-- ==== Sys2Proof/Word.lean ====
section
/-! DEFINITION. The plain words of the module: bytes, 32-bit and 64-bit words, byte strings, and the finite tables
(lists of numbered entries) in which the state keeps everything that is sparse. The operations over them are in
Machine/Ops.lean. -/

namespace Sys2Proof

/-- One byte. -/
abbrev Byte := BitVec 8
/-- A 32-bit register, scalar register or lane (R6, R76). -/
abbrev Word := BitVec 32
/-- A 64-bit field. -/
abbrev DWord := BitVec 64
/-- A byte string; byte 0 comes first. -/
abbrev Bytes := List (BitVec 8)
/-- A SHA-384 digest. -/
abbrev Digest := BitVec 384
/-- A finite table: numbered entries, strictly rising; a number that is not listed has the table's default entry. -/
abbrev Tab (α : Type) := List (Nat × α)
/-- Byte-addressed memory: a table of bytes (`Host.Cell`s); an unlisted address reads as zero (Table 4.14, R192). -/
abbrev Mem := List (Nat × BitVec 8)

end Sys2Proof
end

