-- ==== Sys2Proof/Syntax.lean ====
section
/-! DEFINITION. The commands of the module: one constructor of `Instr` for each row of spec/opcode_table.json, and the
operand types they carry (packets, memory requests, conditions of the outside world). The table gives no row any
bits, so operands are structured; where the spec lays an operand out in bytes, the command carries the bytes. -/

namespace Sys2Proof

/-- How the raw read of one line came back from the memory device: the wrong symbols that the outside world (noise, an
adversary of R235) left in the stored codeword, each with the bits that differ. Symbols are numbered as in R189; on the
capacity tier symbols 0 to 63 are the metadata line (R190) and 64 to 127 the bytes of the data line. -/
abbrev RawRead := List (Nat × Nat)

/-- What the decoder makes of a raw read (Table 8.3, R189, R191). -/
inductive Decoded where
  | clean        -- the codeword is as it was written
  | oneSymbol    -- one wrong symbol: corrected
  | manySymbols  -- wrong symbols that the code cannot correct, or an uncorrectable metadata line
  | altered      -- the codeword decodes, but the ciphertext or the tag is not what was written
  deriving DecidableEq, Repr, Inhabited

/-- Which agent issues a memory request: it decides the key index check and the fault record's context (R200). -/
structure MemReq where
  ctx  : Nat          -- context whose MMU translates, or 4,096 for the module's own accesses
  addr : Nat          -- canonical address of the first byte
  key  : Nat          -- key index of the request
  len  : Nat          -- bytes, 1 to 64, within one line
  deriving DecidableEq, Repr, Inhabited

/-- A Lath packet: the 32-byte header of Table 10.4 field by field, and its payload. -/
structure Packet where
  version : Nat
  op      : Nat
  vc      : Nat
  ordered : Bool
  arrive  : Bool
  dir     : Nat
  srcNode : Nat
  dstNode : Nat
  keyIdx  : Nat
  sched   : Bool
  asub    : Nat
  epoch   : Nat
  offset  : Nat
  window  : Nat
  len     : Nat
  ctr     : Nat
  flowSeq : Nat       -- a request's ordered sequence; a response's STATUS
  xid     : Nat
  rsvd    : Nat       -- every reserved bit of the header, as one number
  payload : Bytes
  deriving DecidableEq, Repr, Inhabited

/-- A packet as it arrives: the port, the packet, and whether its GCM tag passes (check 1 of Table 10.7). -/
structure Rx where
  port  : Nat
  tagOk : Bool
  pkt   : Packet
  deriving DecidableEq, Repr, Inhabited

/-- The bounce buffer behind a submission entry as the module finds it (R173): the plaintext that the body decrypts to,
which key sealed it (`none`: no tag that any key of the module accepts), and the sealing IV and data fields. -/
structure Body where
  plain   : Bytes
  sealedBy : Option Nat    -- key slot whose key sealed it
  queue   : Nat            -- IV bytes 0-1
  seq     : Nat            -- IV bytes 4-11
  aad     : Bytes          -- the submission entry it was sealed with
  deriving DecidableEq, Repr, Inhabited

/-- A resource that the scheduler arbitrates (R144). -/
inductive Resource where
  | clusters (partition : Nat)
  | grout
  | trowel
  | barrier
  deriving DecidableEq, Repr, Inhabited

/-- A clock source that a monitor of R424 can declare lost. -/
inductive ClockSource where
  | refclk
  | crystal
  | mainPll (die : Nat)      -- 0-3 CD0-CD3, 4 HD
  | backupPll (die : Nat)
  deriving DecidableEq, Repr, Inhabited

/-- An admission record (R374): the session in which an ADMISSION object was approved, the physical address, epoch and identity
that it names; the owners whose approvals it carries, and the identity of the member that signed it, each with whether the
signatures verify. -/
structure Admission where
  session   : Nat
  phys      : Nat
  epoch     : Nat
  identity  : Digest
  approvals : List (Nat × Bool)
  member    : Option (Digest × Bool)
  deriving DecidableEq, Repr, Inhabited

/-- One Node Map entry carried by a membership record or update (Table 10.9), with the admission record of R374 that
an update carries for a new holder. -/
structure NodeChange where
  node       : Nat
  phys       : Nat
  member     : Bool
  admitEpoch : Nat
  timeParent : Nat
  portMask   : Nat
  admission  : Option Admission
  deriving DecidableEq, Repr, Inhabited

/-- A membership record (R270, R274): epoch, entries, grandmaster and coordinator lists; as an update brings it, with the new
domain control key wrapped for the member's security processor (R272). -/
structure MembRecord where
  epoch        : Nat
  nodes        : List NodeChange
  grandmasters : List Nat
  coordinators : List Nat
  wrapped      : Bytes := []
  deriving DecidableEq, Repr, Inhabited

/-- An attestation report as a giver of SESSION_JOIN checks it (R373): whether both signatures and the chain verify,
and the facts it reports. -/
structure Report where
  genuine   : Bool
  endorse   : Digest
  fw        : Digest
  authority : Nat
  part      : Nat
  field     : Bool
  node      : Nat
  phys      : Nat
  identity  : Digest
  sessionId : Nat
  deriving DecidableEq, Repr, Inhabited

/-- A life-cycle or debug token: the 4,979 bytes of Table 15.3 and whether both signatures of R386 verify. -/
structure AuthToken where
  bytes  : Bytes
  sigsOk : Bool
  deriving DecidableEq, Repr, Inhabited

/-- Where CKPT_RESTORE and CKPT_VERIFY find an image (R341): SOURCE (0 host bus, 1 Lath, 2 device), SRC_KEY, SRC_ADDR and
MANIFEST_OFF; what the host bus returns from SRC_ADDR on; and what the check of the manifest's two signatures finds: whether both
verify, and the identity that they are by. -/
structure CkptSource where
  source : Nat
  key    : Nat
  addr   : Nat
  manOff : Nat
  host   : Bytes
  sigsOk : Bool
  signer : Digest
  deriving DecidableEq, Repr, Inhabited

/-- What LC_ADVANCE presents: a token, or, from the platform in LOCAL mode, none: the target alone (R387). -/
inductive Advance where
  | token (t : AuthToken)
  | target (state : Nat)
  deriving DecidableEq, Repr, Inhabited

/-- The asymmetric algorithms that a requester offers (Table 14.7): BaseAsymAlgo and ReqBaseAsymAlg. -/
structure AsymOffer where
  base : Nat
  req  : Nat
  deriving DecidableEq, Repr, Inhabited
/-- The rest of its offer: AEAD, KeySchedule, MeasurementSpecification. -/
structure AeadOffer where
  aead     : Nat
  schedule : Nat
  meas     : Nat
  deriving DecidableEq, Repr, Inhabited

/-- The commands: one constructor for each row of spec/opcode_table.json, in the table's order. -/
inductive Instr where
  -- cores, crews and engines (02 to 05)
  | bundleIssue (core : Nat)
  | waitTokRelease (core : Nat)
  | waitSigRelease (core : Nat)
  | waitArrRelease (core : Nat)
  | crewSyncRelease (queue task barrier cluster : Nat)
  | endRelease (core : Nat)
  | taskScrubComplete (core : Nat)
  | signalIncrement (sender target counter : Nat)
  | meshPutLand (target : Nat)
  | dmaOperationStart (core queue : Nat)
  | dmaOperationComplete (core token : Nat)
  | gangStart (core : Nat)
  | gangComplete (core : Nat)
  | stageStart (core : Nat)
  | stageComplete (core : Nat)
  | tilePassSwap (core : Nat)
  | tileComplete (core : Nat)
  | cFillStart (core : Nat)
  | cFillComplete (core : Nat)
  | drainStart (core : Nat)
  | drainComplete (core : Nat)
  | taskStopComplete (queue task : Nat)
  -- the graph scheduler (06)
  | planLoad (queue : Nat)
  | arbitrationDecision (resource : Resource)
  | skimAdmission (partition : Nat)
  | prologueLoadIssue (queue task entry cluster : Nat)
  | aheadDispatch (queue task cluster : Nat)
  | skimRangeZero (cluster base : Nat)
  | watchdogExpiry (queue task : Nat)
  | signalLimitExpiry (queue task : Nat)
  -- host interface (07)
  | submissionFetch (queue : Nat) (entry : Bytes) (body : Option Body) (busError : Bool)
  | commandCompletion (queue : Nat)
  | sqTailDoorbell (queue value : Nat)
  | cqHeadDoorbell (queue value : Nat)
  | primeBitsSet (queue : Nat)
  | unmapAccessTimeout (queue : Nat)
  | clusterRemovalTimeout (cluster : Nat)
  | queueDestroyTimeout (queue : Nat)
  -- memory (08, 09)
  | lineRead (req : MemReq) (first second : RawRead)
  | lineWrite (req : MemReq) (data : Bytes) (first second : RawRead)
  | zeroFillComplete (granule : Nat)
  | patrolScrubRead (addr : Nat) (raw : RawRead)
  | memoryRefresh (controller bank : Nat) (delayed : Nat)
  | sandingRetry (key : Nat)
  | sandingLineStep (key controller : Nat) (first second : RawRead)
  -- die-to-die links (09)
  | d2dFrameSend (link dir : Nat) (payload : Bytes)
  | d2dFrameReceive (link dir : Nat) (tagOk : Bool)
  | linkKeyInstall (link dir : Nat)
  | linkKeyTimeout (link dir : Nat)
  -- the Lath link layer (10)
  | portTrainingComplete (port : Nat) (ok : Bool)
  | linkFrameReceive (port seq : Nat) (fecOk fecFixed crcOk tagOk : Bool)
  | linkNakReceive (port seq : Nat)
  | linkAckReceive (port seq : Nat) (credits : List Nat)
  -- the Lath fabric (10)
  | store (rx : Rx)
  | put (rx : Rx)
  | load (rx : Rx)
  | get (rx : Rx)
  | fetchAdd (rx : Rx)
  | compareSwap (rx : Rx)
  | leaseAcquire (rx : Rx)
  | leaseRelease (rx : Rx)
  | resp (rx : Rx)
  | respTimeout (node xid : Nat)
  | completionRecordExpiry (node xid : Nat)
  | epochHoldTimeout (node xid : Nat)
  | plumbSyncTimer
  | syncReq (rx : Rx)
  | syncResp (rx : Rx)
  | plumbLockLoss
  | ppsInEdge
  | ppsOutPulse
  | slotSlip (rx : Rx)
  | scheduledLaneReturn
  | epochUpdate (rx : Rx) (record : MembRecord)
  | epochAck (rx : Rx)
  | epochAckTimeout
  | lathKeyRetire (key : Nat)
  | lathPairWaitTimeout (core token : Nat)
  -- Grout (11)
  | reduceData (rx : Rx)
  | bcastData (rx : Rx)
  | credit (rx : Rx)
  | hold (rx : Rx)
  | abort (rx : Rx)
  | holdTimer (partition group tag receiver : Nat)
  | slotLeaseExpiry (partition group tag sender : Nat)
  -- Trowel (12)
  | trowelChunkRetire
  -- journal and checkpoints (13)
  | healthWindowExpiry (monitor : Nat)
  | ckptCapture (sess : Nat) (session : Nat) (operands : Bytes)
  | ckptRestore (sess : Nat) (session context : Nat) (targets : Bytes) (source : CkptSource)
  | ckptVerify (sess : Nat) (session context : Nat) (targets : Bytes) (source : CkptSource)
  -- key store and sessions (14)
  | sessionOpen (sess : Nat) (manifest : Bytes) (sigsOk : Bool) (partition : Nat) (founder : Bool)
  | sessionApprove (sess session owner kind : Nat) (object : Digest) (sigsOk : Bool)
  | sessionJoin (sess session : Nat) (report : Report)
  | sessionEnd (sess session : Nat)
  | keyImport (sess session slot cls : Nat) (key : BitVec 256)
  | keyCtxBind (sess partition session key role : Nat)
  | keyCtxErase (sess key : Nat) (immediate : Bool)
  | keyRollInstall (sess session role count : Nat)
  | keyRollRetire (sess session role : Nat)
  | sandStart (sess key : Nat)
  | windowOpen (sess window : Nat) (entry : Bytes)
  | windowClose (sess window : Nat)
  | groupOpen (sess partition : Nat) (operands : Bytes)
  | groupClose (sess partition group : Nat)
  | epochRequest (sess : Nat) (record : MembRecord)
  | domainForm (sess node : Nat) (record : MembRecord)
  | domainJoin (sess node : Nat) (record : MembRecord) (key : BitVec 256)
  | releasePrepare (sess session rule context addr len key : Nat)
  | releaseKeyGet (sess session ticket : Nat)
  | slotErase (sess slot : Nat) (immediate : Bool)
  | slotZeroize (slot : Nat)
  | slotRemask
  | measLogRead (sess partition seq : Nat)
  | pqOffer (sess : Nat) (encapsKey : Bytes)
  | pqSign (sess : Nat) (verifies : Bool)
  | pqCountersign (sess : Nat)
  | levelPair (sess partition peer va len key : Nat) (halt detail : Bool)
  | spLogRead (sess seq : Nat)
  | spdmKeyExchange (sess requester : Nat) (identity : Digest) (handle : Nat) (offerDigest : Digest)
  | spdmFinish (sess : Nat) (verifies : Bool)
  | spdmGetMeasurements (sess index : Nat)
  | spdmUnsupportedRequest (sess code : Nat)
  | entropyStartup (samples : List Nat)
  | entropyTestFailure
  | drbgReseed (entropyOk : Bool)
  | rootSecretGenerate
  -- life cycle and debug (15)
  | lcGet (sess : Nat)
  | lcNonce (sess : Nat)
  | lcAdvance (sess : Nat) (by' : Advance)
  | debugChallenge (sess : Nat)
  | debugUnlock (sess : Nat) (token : AuthToken)
  | debugLock (sess : Nat)
  | debugKill (sess : Nat) (token : Option AuthToken)
  | nonceLapse
  | debugDurationExpiry
  -- Level mode (16)
  | levelPeerSilent (partition : Nat)
  -- clocks and power (17)
  | clkgateWrite (offset : Nat) (value : Word)
  | clkgateTakeEffect (block : Nat)
  | domainDrainEnd (domain : Nat)
  | domainWakeComplete (domain : Nat)
  | clusterClockStop (cluster : Nat)
  | clusterOffDelay (cluster : Nat)
  | clockLadderStep (clock : Nat)
  | dvfsDecision (cluster n : Nat)
  | clockLoss (source : ClockSource)
  | clockRecovery
  | fastCurrentOverride
  | sustainedCurrentStep
  | voltageDroop (die : Nat)
  | temperatureThrottleStep
  | temperatureFloor
  | temperatureTrip
  | tripCooldownRelease
  | throttleOutRelease
  | brakeAssertedRepeat
  | brakeInTrigger
  | brakeRelease
  -- flow control and events (18)
  | loanReclaim (node : Nat)
  | evrCfgWrite (value : Word)
  | evrHeadWrite (value : Word)
  | wmStickyWrite (value : Word)
  | evtStickyWrite (page : Nat) (value : Word)
  -- register pages (19)
  | rcFieldRead (addr size racing : Nat)
  | plumbLoRead
  | q0CfgWrite (value : Word)
  | lpCtrlWrite (port : Nat) (value : Word)
  | registerWrite (addr size : Nat) (value : DWord)
  -- connectors and management bus (20)
  | inputPowerUp (millivolts : Nat)
  | inputBrownOut (millivolts : Nat)
  | inputLockout (millivolts : Nat)
  | inputOvervoltage (millivolts : Nat)
  | perstAssert
  | perstDeassert (slotId : Nat)
  | cableInsert (connector : Nat)
  | cableRemove (connector : Nat)
  | smbusStuck (scl sda : Bool)
  | smbusResume
  | smbusAlertResponse
  | mctpControlMessage (binding eid : Nat)
  | pldmFwTransfer (component : Nat) (image : Digest) (version : Nat) (sigsOk : Bool)
  | pldmApply (component : Nat)
  | pldmActivateFirmware (sess : Nat)
  | pldmSensorRead (sensor : Nat)
  | pldmFruRead
  | sensorRefresh (millivolts watts : Nat) (temps : List Nat) (inlet outlet : Nat)
  | d2dLinkTrainingComplete (link : Nat) (ok : Bool)
  | clusterScrubComplete (cluster : Nat)
  | safetyOverrideEnd (loop : Nat)
  | brownOutRecovery (millivolts : Nat)
  | overvoltageRecovery (millivolts : Nat)
  | crystalReturn
  | laneSlotStart (lane : Nat)
  | platformManagementRequest (sess : Nat) (entry : Bytes)
  | spdmGetVersion (sess : Nat)
  | spdmGetCapabilities (sess : Nat)
  | spdmNegotiateAlgorithms (sess : Nat) (asym : AsymOffer) (hash : Nat) (dhe : Nat) (aead : AeadOffer)
  | spdmGetDigests (sess : Nat)
  | spdmGetCertificate (sess : Nat)
  | spdmChallenge (sess : Nat)
  | spdmHeartbeat (sess : Nat)
  | spdmKeyUpdate (sess : Nat)
  | spdmEndSession (sess : Nat)
  deriving DecidableEq, Repr

end Sys2Proof
end

