-- ==== Sys2Proof/Decode.lean ====
section
/-! DEFINITION. The word decoder. spec/opcode_table.json gives no row any bits (every row's field list is empty), so no
word spells a command. -/

namespace Sys2Proof

/-- The command that a word of the opcode table spells: none, because the table lays out no row in bits. -/
def decodeTableWord (_nbits _w : Nat) : Option Instr := none

end Sys2Proof
end

