-- ==== Sys2Proof/Config.lean ====
section
/-! DEFINITION. What one module fixes, and the values that the spec leaves open. A constant without a body is a FREE
VALUE: nothing can evaluate it, so a statement about it holds for every value. The notes/assumptions rows say which
rule leaves each of them open. -/

namespace Sys2Proof.Config
open Sys2Proof

/-- The elementary functions of Table 2.6 whose bits the reference model fixes and the manual does not print (R50). -/
inductive Trans where
  | exp | exp2 | log | log2 | rsqrt | sin | cos | tanh | sigmoid | erf | silu
  deriving DecidableEq, Repr

/-- Bits of a transcendental on an operand whose result Table 2.6 does not give exactly (R48 to R50). UNVERIFIED bits. -/
opaque transcendental : Trans → BitVec 32 → BitVec 32

/-- SHA-384 (FIPS 180-4), a standard the manual cites and does not print. -/
opaque sha384 : Bytes → BitVec 384
/-- HKDF-SHA-384 with the salt of R355: input key material and info give 512 bits, of which a derivation takes the first. -/
opaque hkdf : Bytes → Bytes → BitVec 512
/-- The AES-256 block cipher (FIPS 197): key and block, the first byte the most significant. -/
opaque aes : BitVec 256 → BitVec 128 → BitVec 128
/-- The inverse cipher of AES-256 (FIPS 197). -/
opaque aesInverse : BitVec 256 → BitVec 128 → BitVec 128
/-- A signature of the module's identity keys (ECDSA P-384 then ML-DSA-87) over a byte string (R337, R366). -/
opaque sign : Bytes → Bytes
/-- The i-th output of the DRBG since island power-up (R353): 384 bits, of which a draw takes what it needs. -/
opaque random : Nat → BitVec 384
/-- ML-KEM-1024 encapsulation (R365): encapsulation key and randomness give the ciphertext. -/
opaque kemEncaps : Bytes → BitVec 384 → Bytes
/-- The shared secret of that encapsulation (R365 step 4). -/
opaque kemSecret : Bytes → BitVec 384 → BitVec 256
/-- The ECDH P-384 secret of a session: the responder's ephemeral randomness and the number of the exchange, which stands for the
requester's public point (R365 step 4). -/
opaque ecdhSecret : BitVec 384 → Nat → BitVec 384
/-- The identity digest that the leaf of the stored certificate chain certifies (Table 15.4): a FREE VALUE. -/
opaque leafIdentity : BitVec 384
/-- The transcript hash TH2 of a secured session (R365): the commands carry no message bytes, so a FREE VALUE for each index. -/
opaque transcript : Nat → BitVec 384

/-- The key that protects key index 0 (R155): the manual names no slot for it. -/
opaque moduleKey : BitVec 256
/-- The pairwise key of a coordinator and a member, by logical node (R272, R357): the manual does not say how the two come by
it. -/
opaque pairKey : Nat → Nat → BitVec 256
/-- The unit serial fused at wafer test (Table 15.3). -/
opaque serial : BitVec 128
/-- The ECDSA P-384 public key of a scalar, in SEC1 uncompressed form: 97 bytes (R356). -/
opaque ecdsaPublic : Nat → Bytes
/-- The ML-DSA-87 public key that KeyGen_internal gives for a seed ξ: 2,592 bytes (R356). -/
opaque mldsaPublic : Bytes → Bytes
/-- The X.509 chain of certificate slot 0 (R356). -/
opaque certificate : Bytes
/-- The endorsement root of the stored chain: SHA-384 of the root certificate (Table 14.10). -/
opaque endorseRoot : BitVec 384
/-- The list of (logical node, identity digest) pairs whose digest a MEMBERS approval carries (R372). -/
opaque membersList : BitVec 384 → List (Nat × BitVec 384)
/-- The admitted (logical node, identity digest) pairs, and the recorded approvals (owner, kind, object), that a giver's
SESSION_JOIN delivers to this module (R373): FREE VALUES for each index. -/
opaque joinMembers : Nat → List (Nat × BitVec 384)
opaque joinApprovals : Nat → List (Nat × Nat × BitVec 384)
/-- The OWNER_IN and OWNER_OUT keys of the session (slot, class, owner, key), and R_MAX of the Lath pairs (even key index, R_MAX), that a
giver's SESSION_JOIN delivers (R233 step 2, R373): FREE VALUES for each index. -/
opaque joinOwners : Nat → List (Nat × Nat × Nat × BitVec 256)
opaque joinBounds : Nat → List (Nat × Nat)
/-- The 8 bytes of a link header (R238): frame sequence, virtual channel, and the credits of 64 bytes returned for VC0 to VC4. The
manual names what it holds and not where. -/
opaque linkHeader : Nat → Nat → List Nat → List (BitVec 8)
/-- The host takes the i-th PCI Express write of an event record; otherwise the write fails (R436): a FREE VALUE for each index. -/
opaque hostTakes : Nat → Bool
/-- The digests that the peer of a Level pair has kept of a task's write operations (R410): crew index, issue number, digest. The
manual does not say how they reach this module: a FREE VALUE for each index. -/
opaque peerDetail : Nat → List (Nat × Nat × BitVec 64)
/-- SHA-384 of the security-processor ROM (block 0x01 of Table 14.8). -/
opaque romDigest : BitVec 384
/-- A FREE VALUE for each index: results that a rule calls undefined or does not state. -/
opaque free : Nat → BitVec 2048

end Sys2Proof.Config
end

