-- ==== Sys2Proof/Machine/State.lean ====
section
/-! DEFINITION. The state of the module as plain data: every register, store, queue, table and mode that the spec gives
it, and the queue of commands that wait. Each structure cites the rule that names it; INVENTORY.md lists the fields
with their reset values. Numbers that the spec counts or indexes are `Nat`; values that it treats as bits are bit
vectors. Nothing here computes; the operations are in Machine/Ops.lean and the family files. -/

namespace Sys2Proof.Machine
open Sys2Proof

/-- Status codes (Table 18.1). `codeOf` in Ops gives their numbers. -/
inductive Status where
  | ok | stepSkipped
  | aborted | abortedByReset | abortedByDestroy | squashed | clockInterrupted
  | descInvalid | descRange | unsupported
  | pageFault | policyDenied | windowDenied
  | tagMismatch | keyRevoked | keyExhausted | keyBusy
  | staleEpoch | leaseExpired | linkDown | retryExhausted | domainSealed
  | notReady | busy | entropyNotReady
  deriving DecidableEq, Repr, Inhabited

/-- Why a step faults. No command of this block ends in a fault: every event the spec describes has an effect in
`State`. The one constructor stands for a state no command can be run in. -/
inductive Fault where
  /-- Raised by no meaning of this model (kept so that the type has a name for a lost module); safe. -/
  | moduleLost
  deriving DecidableEq, Repr, Inhabited

/-- Why a command is refused. -/
inductive Refusal where
  /-- Raised by an arm of `exec` for a command that has no meaning yet; safe. -/
  | notModelled (mnemonic : String)
  deriving DecidableEq, Repr, Inhabited

/-! ## Cores and engines (chapters 02 to 04) -/

/-- A task of a loaded plan: the queue whose plan it is, and its index in the plan. -/
structure TaskRef where
  queue : Nat
  task  : Nat
  deriving DecidableEq, Repr, Inhabited

/-- A DMA token (R98). -/
inductive Token where
  | idle
  | pending
  | done (st : Status)
  deriving DecidableEq, Repr, Inhabited

/-- Where a result of a vector or scalar operation lands. -/
inductive RegName where
  | x (n : Nat)
  | s (n : Nat)
  deriving DecidableEq, Repr, Inhabited

/-- A result on its way to a register or, over port F, to the core store, with the first core cycle that sees it (R82, R94);
and the bytes of a landed mesh put, which came over port D, with the first cluster cycle that sees them (R95). -/
inductive PendWrite where
  | reg   (due : Nat) (r : RegName) (v : BitVec 2048)
  | bytes (due : Nat) (addr : Nat) (data : Bytes)
  | put   (due : Nat) (addr : Nat) (data : Bytes)
  deriving DecidableEq, Repr, Inhabited

/-- An active LOOP (R84): the bundle indices of its body and the iterations still to run after this one. -/
structure LoopFrame where
  first : Nat
  last  : Nat
  left  : Nat
  deriving DecidableEq, Repr, Inhabited

/-- The wait point a core stands at (R97). -/
inductive Wait where
  | tok  (lenient : Bool) (group mask : Nat)
  | sig  (counter : Nat) (threshold : Word)
  | arr  (counter : Nat) (threshold : Word)
  | sync (barrier : Nat)
  | fin
  deriving DecidableEq, Repr, Inhabited

/-- One cell register (R51): sign, base-4 digits of |M| least significant first, and the offset d, `none` the drop mark. -/
structure CellReg where
  neg    : Bool
  digits : List Nat
  off    : Option Nat
  deriving DecidableEq, Repr, Inhabited

/-- One column-block of a stationary set with its sideband (R51, R57): engine column n of the set, segment, 32 cells,
the stationary exponent term, scale and exponent base, and the non-finite flag. A column-block that is not listed is
idle. -/
structure ColBlock where
  col       : Nat
  seg       : Nat
  cells     : List CellReg
  expTerm   : Int
  scale     : Nat
  expBase   : Int
  nonFinite : Bool
  deriving DecidableEq, Repr, Inhabited

/-- The registers of one set (active or shadow) of a core's four engines: the tile record whose pass it holds, the
column chunk and K chunk, and its column-blocks. -/
structure StatSet where
  recd   : Nat
  jn     : Nat
  jk     : Nat
  blocks : List ColBlock
  deriving DecidableEq, Repr, Inhabited

/-- A tile record (Table 3.3), decoded at issue. -/
structure TileRec where
  (m n k : Nat)
  stat     : Bool
  acc      : Nat
  base     : Nat
  preload  : Bool
  (aDesc bDesc cDesc outDesc : Nat)
  deriving DecidableEq, Repr, Inhabited

/-- A local or memory-view descriptor (Tables 5.4 to 5.6), decoded: one record serves both kinds. -/
structure Desc where
  fmt     : Nat
  scaled  : Bool
  oob     : Bool         -- 1 ZERO, 0 CLAMP
  round   : Bool
  space   : Nat
  blkDim  : Nat
  expBase : Int
  handle  : Nat          -- memory view
  addr    : Nat          -- local
  target  : Nat          -- local, core store
  other   : Bool
  rank    : Nat          -- local, cluster store
  seed    : Nat
  ext     : List Nat     -- EXT or VEXT
  valid   : List Nat     -- VALID (local)
  origin  : List Nat     -- ORIGIN (memory view)
  stride  : List Nat     -- STRIDE1-3
  pitch   : List Nat     -- IDX_PITCH1-3
  idxBase : Nat
  rsvd    : Nat          -- every reserved bit, as one number
  deriving DecidableEq, Repr, Inhabited

/-- A tensor-table entry (Table 5.3); only LIVE entries are listed. -/
structure Tensor where
  fmt    : Nat
  scaled : Bool
  blkDim : Nat
  key    : Nat
  base   : Nat
  ext    : List Nat
  stride : List Nat
  deriving DecidableEq, Repr, Inhabited

/-- How far an operation of a tile path has come. -/
inductive OpPhase where
  | queued
  | running   -- started
  deriving DecidableEq, Repr, Inhabited

/-- A TILE, STAGE or GANG on the array path (R69, R72). -/
structure ArrayOp where
  kind     : Nat         -- 1 TILE, 2 STAGE, 4 GANG
  recAddr  : Nat
  tile     : TileRec
  descs    : List Desc   -- A, B and C as read at issue
  gang     : Nat         -- GANG: the new configuration
  issue    : Nat         -- issue cycle
  phase    : OpPhase
  start    : Nat         -- GANG, STAGE: start cycle; TILE: cycle of the last swap
  pass     : Nat         -- TILE: passes that have been swapped in
  summed   : Nat         -- TILE: passes whose block values stand in the accumulator file
  fill     : Nat         -- TILE with ACC = 0b10: 0 C fill waits, 1 runs, 2 done; otherwise 2
  fillAt   : Nat         -- start cycle of the C fill, then its completion cycle
  deriving DecidableEq, Repr, Inhabited

/-- A DRAIN, or the C fill of a TILE, on the drain path (R64, R69, R72). -/
structure DrainOp where
  isFill  : Bool
  recAddr : Nat
  tile    : TileRec
  desc    : Desc
  issue   : Nat
  running : Bool
  start   : Nat
  deriving DecidableEq, Repr, Inhabited

/-- A DMA or Lath operation of a queue (R85, R86, R246): the command record and descriptors as copied at issue. -/
structure DmaOp where
  op       : Nat          -- Table 4.5
  token    : Nat
  fence    : Bool
  seq      : Nat          -- issue number within the core
  started  : Bool
  form     : Nat
  (src dst : Desc)
  idx      : Desc
  (srcT dstT : Option Tensor)  -- tensor-table entries as read at issue (R114); `none`: a local descriptor
  (operand operand2 : Nat)
  xids     : List Nat     -- Lath: packets that have no response yet
  unsent   : List (Packet × List Nat) -- Lath: packets not yet sent, with the landing addresses of a read's bytes
  key      : Nat          -- Lath: the index it sent under
  issuedNs : Nat
  issuedAt : Nat          -- cluster cycle of its issue
  failed   : Option Status -- the failure of its lowest-numbered failing packet
  failAt   : Nat := 0     -- Lath: offset of that packet
  precommit : Bool        -- issued before the core's commit point (R99)
  deriving DecidableEq, Repr, Inhabited

/-- A MESH_PUT on its way (R95). -/
structure MeshPut where
  (sender target : Nat)     -- core numbers
  crewIndex     : Nat     -- sender's
  addr          : Nat
  data          : BitVec 2048
  land          : Nat     -- first cycle in which it can land
  seq           : Nat     -- issue number within the sender
  deriving DecidableEq, Repr, Inhabited

/-- A SIGNAL increment on its way (R96). -/
structure Signal where
  (sender target : Nat)
  counter       : Nat
  task          : TaskRef -- the sender's task
  due           : Nat     -- first cycle in which it can take effect, in the target's cluster
  before        : Nat     -- it follows the sender's puts to the same core with a smaller issue number
  afterCopies   : List Nat -- cross-cluster: sequence numbers of the sender's earlier COPYs to that store
  deriving DecidableEq, Repr, Inhabited

/-- A core (Table 4.1). -/
structure Core where
  task      : Option TaskRef := none
  crewIndex : Nat := 0
  image     : List (BitVec 128) := []     -- instruction buffer
  pc        : Nat := 0                    -- index of the next bundle
  nextIssue : Nat := 0                    -- first cycle in which it can issue
  issuing   : Bool := false               -- the entry bundle has issued and bundle issue has not stopped
  xregs     : Tab (BitVec 2048) := []
  sregs     : Tab Word := []
  pend      : List PendWrite := []
  store     : Mem := []
  loops     : List LoopFrame := []        -- innermost first
  tokens    : Tab Token := []
  signals   : Tab Word := []
  flags     : BitVec 16 := 0
  wait      : Option Wait := none
  arrived   : Nat := 0                    -- cycle in which the wait point issued
  committed : Bool := false               -- passed its commit point (R99)
  synced    : Tab Nat := []               -- per barrier: CREW_SYNCs issued
  lastVa    : Tab Nat := []               -- per VA opcode: cycle of its last issue, plus one
  gang      : Nat := 0                    -- R54: 0 apart, 1 2x2, 2 4x1
  active    : Option StatSet := none
  shadow    : Option StatSet := none
  acc       : Tab Word := []              -- accumulator file, +0
  arrayPath : List ArrayOp := []          -- issue order
  drainPath : List DrainOp := []
  drainFree : Nat := 0                    -- cycle in which the drain path last became free
  arrayFree : Nat := 0                    -- cycle in which a STAGE or GANG last freed its entry
  loadDone  : Nat := 0                    -- cycle from which the stationary loader can begin its next load
  loaded    : Bool := false               -- the set of the loader's present load stands in the shadow registers
  hist      : List (Nat × Nat × Bytes) := []  -- store bytes replaced while a tile path works: first core cycle that sees the new ones, address, the old ones; newest first
  held      : Nat := 0                    -- cycles for which port F has held the core (R94)
  portAt    : Nat := 0                    -- first core cycle whose port-F use has not been settled
  portUse   : Option (Nat × List Nat) := none -- core cycle of the last issue and the banks its VM and SCA slots used
  stopped   : Option Nat := none          -- cluster cycle in which bundle issue stopped for good (Table 4.15)
  lastStage : Option Nat := none          -- record of the last STAGE, while no TILE or GANG has issued since
  lastPut   : Tab Nat := []               -- per target core: cycle of the last MESH_PUT, plus one
  putSeq    : Nat := 0                    -- MESH_PUTs issued
  dma       : List DmaOp := []            -- queues Q0 and Q1, issue order (the token tells the queue)
  dmaSeq    : Nat := 0
  ended     : Bool := false               -- END has released
  result    : Option Status := none       -- the status with which this core ended the task
  faultVa   : Tab Nat := []               -- per token: virtual address of its failed access (R201)
  resultVa  : Option Nat := none                  -- that of the token that ended the task
  scrub     : Option Nat := none          -- in the task-end scrub since this cycle
  bundles   : Nat := 0                    -- CORE_BUNDLES
  deriving DecidableEq, Repr, Inhabited

/-- Who a cluster DMA channel serves (R76, R86, R147): an operation of a core, or a prologue load of a task. -/
inductive ChanUser where
  | dma  (core seq : Nat)
  | load (task : TaskRef) (entry : Nat)
  deriving DecidableEq, Repr, Inhabited

/-- A cluster (Tables 4.1, 19.4, R420, R464). Cluster power is `Power.domains` 0 to 63. -/
structure Cluster where
  partition : Option Nat := none
  clock     : Bool := false               -- the clock runs
  n         : Nat := 60                   -- frequency in 25 MHz units (R413)
  skip      : Bool := false               -- cycle skipping (R428)
  cycle     : Nat := 0                    -- cluster clock cycles
  phase     : Nat := 0                    -- fraction of a cycle, in units of 1/160
  store     : Mem := []                   -- cluster store, 8 MiB
  channels  : Tab ChanUser := []          -- DMA channels in use: 0 to 5 serve cores, 6 and 7 Skim
  reserved  : Option TaskRef := none      -- R141, R144
  removing  : Option Nat := none          -- R162: ns since which the cluster leaves its partition
  scrub     : Option Nat := none          -- cluster scrub running since ns
  idleAt    : Option Nat := none          -- ns since which it is idle (R420)
  stoppedAt : Option Nat := none          -- ns since which its idle clock is stopped
  skim      : List (Nat × Nat × TaskRef × Bool) := []  -- held skim ranges: base, end, task, transfer stopped
  tasks     : Nat := 0                    -- CL_TASKS
  portF     : Nat := 0                    -- CL_PORTF
  deriving DecidableEq, Repr, Inhabited

/-! ## Plans (chapter 06) -/

/-- Task states (Table 6.5). -/
inductive TState where
  | blocked | ahead | ready | running | done | bypassed | notRun
  deriving DecidableEq, Repr, Inhabited

/-- A conditional, data or remote-signal edge (Table 6.3) and how it has resolved: `none` pending, `some true` satisfied
or taken, `some false` not taken. -/
structure Edge where
  type      : Nat
  pol       : Bool
  predict   : Bool
  flag      : Nat
  src       : Nat
  counter   : Nat
  threshold : Word
  resolved  : Option Bool
  deriving DecidableEq, Repr, Inhabited

/-- A prologue entry (Table 6.4). -/
structure Prologue where
  mode   : Nat
  rdim   : Nat
  source : Desc
  dest   : Desc
  deriving DecidableEq, Repr, Inhabited

/-- A task record (Table 6.2) with its place in the plan's run. -/
structure Task where
  kind      : Nat
  unit      : Nat         -- CREW_UNIT
  skim      : Bool
  crew      : Nat
  flagBase  : Nat
  flagMask  : Nat
  image     : Nat
  args      : List Word
  edges     : List Edge
  pros      : List Prologue
  -- the run
  won       : Bool := false               -- a decision of R144 has given it its place
  state     : TState
  status    : Status
  place     : List (Nat × List Nat)       -- clusters in rank order with the local cores taken
  entered   : List Nat                    -- clusters that have issued the entry bundle
  admitted  : Bool                        -- it has been in the run-ahead window (R146, R147)
  loads     : List (Nat × Nat × Token × Option Tensor) -- prologue loads issued: entry, cluster, how the load stands, tensor entry
  held      : Option Status               -- R142, R150: failure held until the edges resolve
  faultVa   : Option (Status × Nat)       -- a failed access: its status and virtual address (R201)
  runSince  : Nat                         -- ns of entry to RUNNING
  resolved  : Option Nat                  -- ns at which every data and conditional edge had resolved
  stop      : Option (Status × Nat)       -- stop sequence running (Table 4.15): status and ns of step 1
  flags     : Nat                         -- result flags published
  digest    : BitVec 64                   -- Level digest D (R408)
  opSeq     : Nat                         -- write requests so far (R410)
  detail    : List (Nat × Nat × BitVec 64) := [] -- DETAIL digests of R410: crew index, issue number, digest
  deriving DecidableEq, Repr, Inhabited

/-- A loaded plan (R127 to R140). -/
structure Plan where
  queue    : Nat
  ctx      : Nat
  key      : Nat
  base     : Nat
  watchdog : Nat
  sigLimit : Nat
  statusAt : Nat                          -- virtual address of the status words
  flags    : BitVec 64
  tasks    : List Task
  halted   : Option Status
  culprit  : Option Nat                   -- task that set the status
  loadedAt : Nat
  dt       : Bool                         -- loaded in deterministic-timing mode (R405)
  freq     : Nat := 0x3C                  -- DT_FREQ at its load (R405)
  seq      : Nat                          -- plan sequence since pairing (R409)
  wordVa   : Option Nat := none           -- the status word whose write failed (R201)
  deriving DecidableEq, Repr, Inhabited

/-! ## Host objects (chapter 07) -/

/-- The use of a key slot that a COPY_IN or COPY_OUT has bound, from its start to its completion (R359, R360): the slot, the key
of its generation, the memory key index, session and role, whether the load is measured, the host's body as it authenticated, how
the data leaves (Bounce.lean), the ticket, and whether the host access fails. -/
structure CopyUse where
  (slot : Nat)
  key      : BitVec 256
  (mkey ses role : Nat)
  ro       : Bool
  data     : Bytes
  tagOk    : Bool
  clear    : Bool
  ticket   : Option Nat
  busError : Bool
  deriving DecidableEq, Repr, Inhabited

/-- The command that a queue executes, from its fetch to its completion entry (R169). -/
structure Running where
  entry   : Bytes                         -- the 128-byte submission entry
  status  : Option Status                 -- `none` while it still runs
  info0   : Nat
  info1   : Nat
  result  : Nat
  phase   : Nat                           -- step of the command's own sequence (PRIME, UNMAP, RESIZE, DESTROY ...)
  since   : Nat                           -- ns of that step's start
  granules : List Nat                     -- granules the command still has to prime
  addr    : Option Nat                    -- virtual address of its failed access (R165, R201)
  waitFor : List Nat                      -- clusters or queues it waits for
  use     : Option CopyUse := none        -- COPY_IN, COPY_OUT: the bound use
  deriving DecidableEq, Repr, Inhabited

/-- Queue states (Table 7.6). -/
inductive QState where
  | enabled | held | stopping
  deriving DecidableEq, Repr, Inhabited

/-- A queue-table entry (Table 7.6) with its place in the hub's cache and the command it runs. Queue 0 uses the same
record; its configuration is that of Q0_CFG (R166, R454). -/
structure Queue where
  valid    : Bool := false
  state    : QState := .enabled
  prio     : Nat := 0
  context  : Nat := 0
  msix     : Nat := 0
  msixEn   : Bool := false
  sqLog2   : Nat := 4
  cqLog2   : Nat := 4
  sqBase   : Nat := 0
  cqBase   : Nat := 0
  sqHead   : Nat := 0
  sqTail   : Nat := 0
  cqTail   : Nat := 0
  cqHead   : Nat := 0
  phase    : Bool := false
  session  : Nat := 0
  seqIn    : Nat := 0
  seqOut   : Nat := 0
  cached   : Bool := false
  lastUse  : Nat := 0                      -- order of cache use
  waiting  : Option Nat := none            -- an SQ tail doorbell kept because every entry is pinned
  waitingCq : Option Nat := none           -- a CQ head doorbell kept likewise
  running  : Option Running := none
  planWait : Option (Nat × Nat) := none    -- PLAN_SUBMIT not yet loaded: plan base and key index
  flushTo  : Option Nat := none            -- QUEUE_FLUSH: tail at acceptance
  abortAs  : Option Status := none         -- entries not started complete with this status (R176 to R178)
  abortTo  : Nat := 0                      -- CONTEXT_RESET: tail at acceptance
  ages     : Tab Nat := []                 -- AGE per resource (R144): partition number, 32 Grout, 33 Trowel, 34 barrier
  deriving DecidableEq, Repr, Inhabited

/-- A context (R164, R165). -/
structure Context where
  live     : Bool := false
  partition : Nat := 0
  session  : Nat := 0
  ptRoot   : Nat := 0
  ttBase   : Nat := 0
  tensors  : Nat := 0                      -- TENSOR_COUNT
  table    : Tab Tensor := []
  faultSt  : Option Status := none         -- fault record
  faultQ   : Nat := 0
  faultCmd : Nat := 0
  faultAt  : Nat := 0
  faults   : Nat := 0
  stopping : Option (Status × Nat) := none -- reset or destroy in progress: status and ns
  deriving DecidableEq, Repr, Inhabited

/-- A measurement-log entry (Table 14.9). -/
structure MeasEntry where
  (seq type context key role session length : Nat)
  digest : Digest
  tb     : Nat
  plumb  : Nat
  deriving DecidableEq, Repr, Inhabited

/-- A Level log entry (Table 16.5). -/
structure LevelEntry where
  (planSeq task : Nat)
  first        : Bool
  cause        : Nat
  (dOwn dPeer : BitVec 64)
  (crewIdx opSeq : Nat)
  deriving DecidableEq, Repr, Inhabited

/-- A Level record (Table 16.5a). -/
structure LevelRecord where
  (planSeq task : Nat)
  status       : Nat
  d            : BitVec 64
  flags        : Nat
  rseq         : Nat
  preds        : List Nat                  -- own record: its data-edge predecessors that ran
  detail       : List (Nat × Nat × BitVec 64) := [] -- own record: the task's DETAIL digests
  deriving DecidableEq, Repr, Inhabited

/-- Level pairing of a partition (R407 to R411). -/
structure Level where
  peer   : Nat
  logVa  : Nat
  logLen : Nat
  logKey : Nat
  halt   : Bool
  detail : Bool
  plans  : Nat                             -- plan loads since pairing
  rseq   : Nat                             -- next record sequence
  own    : List LevelRecord                -- sent, unmatched
  theirs : List LevelRecord                -- received, unmatched
  seen   : List Nat                        -- record sequences accepted
  matched : List (Nat × Nat)               -- (plan sequence, task) pairs that matched
  heard  : Nat                             -- ns of the peer's last record
  log    : List LevelEntry
  digests : List (Nat × Nat × List (Nat × Nat × BitVec 64)) := [] -- DETAIL digests in the log region (R410): plan sequence, task, digests
  unsent : List (Nat × Packet) := []       -- records not yet sent, with the session they go under
  deriving DecidableEq, Repr, Inhabited

/-- A partition (R160, Table 7.3, R421, R368). -/
structure Partition where
  live     : Bool := false
  clusters : List Nat := []
  hbmBase  : Nat := 0
  hbmLen   : Nat := 0
  capBase  : Nat := 0
  capLen   : Nat := 0
  keyFirst : Nat := 0
  keyCount : Nat := 0
  skimUnits : Nat := 0
  ctxLimit : Nat := 0
  fmin     : Nat := 16
  fmax     : Nat := 60
  pin      : Bool := false
  offDelay : Nat := 100
  busy     : Option Nat := none            -- reset or destroy in progress, by this queue-0 command
  log      : List MeasEntry := []          -- measurement log, oldest first
  progHead : Digest := 0                   -- program chain head
  loadHead : Digest := 0                   -- measured-load chain head
  programs : List (Nat × Digest) := []     -- (session, image digest) pairs dispatched
  level    : Option Level := none
  deriving DecidableEq, Repr, Inhabited

/-! ## Memory (chapters 08, 09) -/

/-- A line as it was last written (Table 8.2, R190): the key index and full generation it was written under (the stored GEN is
that generation modulo 4), POISON, the ciphertext and the TAG. CHECK and the reserved bit follow from these (lineMeta). -/
structure Line where
  key    : Nat
  gen    : Nat
  poison : Bool
  cipher : Bytes
  tag    : Nat
  deriving DecidableEq, Repr, Inhabited

/-- A line access that waits (R208, R418, R426): the request, its data (none: a read), and what its raw reads find once it runs. -/
structure HeldMem where
  req    : MemReq
  data   : Bytes
  first  : RawRead
  second : RawRead
  deriving DecidableEq, Repr, Inhabited

/-- A granule out of the primed state (R205, R208, R218): the granule key map entry and what its zero-fill wrote. A granule that
is not listed is primed. -/
structure Granule where
  key     : Nat
  gen     : Nat                            -- generation under which its zero-fill wrote the lines that are not listed
  filling : Bool                           -- a zero-fill is in progress
  waiting : List HeldMem                   -- accesses that wait for it, in arrival order: first the write that started it
  root    : BitVec 256                     -- key from which the keys of that generation derive
  trigger : Nat                            -- address of the line whose write started the zero-fill
  deriving DecidableEq, Repr, Inhabited

/-- A memory controller: HBM stack 0 to 7, capacity controller 16 to 23 (Table 19.9). -/
structure MemCtl where
  (corr poisonRead poisonSet tagFail uncorr reread zeroFills patrols refreshes : Nat := 0)
  selfRefresh : Bool := false
  patrolAt : Nat := 0                      -- next line of the patrol scrub
  deriving DecidableEq, Repr, Inhabited

/-- States of an inline key context (Table 9.1). -/
inductive KState where
  | free | active | sanding | zeroizing
  deriving DecidableEq, Repr, Inhabited

/-- An inline key context (Table 9.1), with the Lath roll counts of R375. -/
structure KeyCtx where
  state   : KState := .free
  cls     : Nat := 0                       -- Table 9.2: 0 MEM, 1 MEM_RO, 2 LATH_PAIR
  partition : Nat := 0
  session : Nat := 0
  role    : Nat := 0
  slotCur : Nat := 0
  slotOld : Nat := 0
  gen     : Nat := 0
  wCur    : Nat := 0
  wOld    : Nat := 0
  sandAt  : Nat := 0xC0000000000
  sweep   : Tab Nat := []                  -- SWEEP0-15; an unlisted pointer is 0
  txctr0  : Nat := 0
  txctr1  : Nat := 0
  roll    : Nat := 0                       -- LATH_PAIR: roll count of its key
  rollDue : Bool := false                  -- KEY_ROLL_DUE posted for this key
  rMax    : Option Nat := none             -- R233: no sending until a roll count above this
  bad     : Nat := 0                       -- lines left poisoned by the running pass
  retire  : Option Nat := none             -- Plumb time at which every member had moved off this index
  deferred : Option Nat := none            -- a sanding start waits for a slot or the DRBG: time of the last attempt (R223)
  deriving DecidableEq, Repr, Inhabited

/-- State of a key slot. -/
inductive SlotState where
  | empty | loaded | erasing
  deriving DecidableEq, Repr, Inhabited

/-- A key slot (Table 14.4): the two shares and the record. -/
structure Slot where
  cls     : Nat := 0
  state   : SlotState := .empty
  share1  : BitVec 256 := 0
  share2  : BitVec 256 := 0
  sgen    : Nat := 0
  partition : Nat := 0
  session : Nat := 0
  owner   : Nat := 0
  expiry  : Nat := 0
  pins    : Nat := 0
  bound   : Nat := 0                       -- uses bound and not yet ended (R359)
  uses    : Nat := 0
  limit   : Nat := 0
  eraseAt : Nat := 0                       -- ns at which ERASING began
  deriving DecidableEq, Repr, Inhabited

/-! ## Links (chapters 09, 10) -/

/-- One direction of a die-to-die link (R229). -/
structure D2dDir where
  keys   : Nat := 0                        -- bit p: phase p holds an installed key
  fresh  : Nat := 0                        -- bit p: phase p holds a fresh key that has sent nothing
  phase  : Nat := 0
  ctr    : Tab Nat := []                   -- frame counter per phase
  heldAt : Option Nat := none              -- ns since which frames are held for want of a key
  fails  : Nat := 0                        -- consecutive frames that failed their tag
  last   : Bytes := []                     -- payload of the last frame sent, for a replay
  held   : List Bytes := []                -- payloads of frames that wait: for a key, or for the end of a training
  wire   : Bytes := []                     -- what crosses: header, ciphertext and tag of that frame
  deriving DecidableEq, Repr, Inhabited

/-- States of a Lath port (Table 10.2) and of a die-to-die link (R464). -/
inductive PState where
  | down | training | up | failed
  deriving DecidableEq, Repr, Inhabited

/-- A die-to-die link: 0 to 3 CDn and HD, 4 to 7 ring links. -/
structure D2d where
  dirs     : Tab D2dDir := []
  state    : PState := .down
  trains   : Nat := 0                      -- consecutive failed retrains
  replays  : Nat := 0                      -- LINK_REPLAY
  retrains : Nat := 0                      -- LINK_RETRAIN
  deriving DecidableEq, Repr, Inhabited

/-- A frame of a port (R238): its sequence, its replays, the packet as it crosses (header in clear, payload encrypted, R230),
the 16-byte tag; and, once it has been sent, the credits that its link header returns and its CRC-32. -/
structure Frame where
  seq     : Nat
  replays : Nat
  pkt     : Packet
  tag     : Bytes
  returns : List Nat := []                 -- per VC
  crc     : Nat := 0
  deriving DecidableEq, Repr, Inhabited

/-- A Lath port (R236 to R239, Table 19.10). -/
structure Port where
  state    : PState := .down
  cable    : Bool := false
  enable   : Bool := true
  fails    : Nat := 0                      -- consecutive failed trainings
  txSeq    : Nat := 0                      -- 12-bit frame sequence
  rxSeq    : Nat := 0
  retry    : List Frame := []              -- sent and not acknowledged
  waiting  : List Frame := []              -- not yet sent: their VC has no credit at the neighbour
  deficit  : Tab Nat := []                 -- bytes that VC0 to VC2 may still send in the round (R256)
  turn     : Nat := 0                      -- the VC that the round robin serves
  credits  : Tab Nat := []                 -- per VC: credits of 64 bytes in use at the neighbour
  buffer   : Tab Nat := []                 -- per VC: credits in use in this port's own receive buffer (Table 10.8)
  owed     : Tab Nat := []                 -- per VC: credits freed there and not yet returned
  naks     : Nat := 0                      -- NAKs sent
  (fecCorr fecUncorr crc gcm replay retrain dropKey dropMalf dropReplay dropResp slip epochDisc : Nat := 0)
  deriving DecidableEq, Repr, Inhabited

/-- A window entry (Table 10.3). -/
structure Window where
  (r w a l arr : Bool)
  (partition context session lkey mkey counter base size : Nat)
  deriving DecidableEq, Repr, Inhabited

/-- An arrival counter (R242, R260). -/
structure Arrival where
  partition : Nat
  windows   : Nat                          -- windows that name it
  value     : Word
  deriving DecidableEq, Repr, Inhabited

/-- A Node Map entry (Table 10.9). -/
structure Node where
  phys       : Nat := 0
  member     : Bool := false
  admitEpoch : Nat := 0
  timeParent : Nat := 0
  portMask   : Nat := 0
  deriving DecidableEq, Repr, Inhabited

/-- What a request sent by this module belongs to. -/
inductive Sender where
  | dma (core token : Nat)
  | grout (partition group tag : Nat)
  | trowel
  | level (partition : Nat)
  | ckpt (session : Nat)
  | module
  deriving DecidableEq, Repr, Inhabited

/-- A request that has no response yet (R248, R255). -/
structure Pending where
  pkt    : Packet
  tries  : Nat                             -- retransmissions so far
  sentAt : Nat                             -- ns
  by'    : Sender
  dest   : List Nat                        -- landing addresses of a read's bytes, in order
  deriving DecidableEq, Repr, Inhabited

/-- A completion record (R255): the response kept for a request that is not idempotent. -/
structure Recorded where
  (node xid : Nat)
  resp     : Packet
  at'      : Nat
  deriving DecidableEq, Repr, Inhabited

/-- A request held for a newer epoch (check 5 of Table 10.7) or for FLOW_SEQ order (R258). -/
structure HeldReq where
  rx  : Rx
  at' : Nat
  deriving DecidableEq, Repr, Inhabited

/-- Replay state of one (source, key index, direction) (R231). -/
structure Replay where
  (node key dir : Nat)
  top          : Nat                       -- highest counter accepted
  seen         : List Nat                  -- accepted counters within the window
  deriving DecidableEq, Repr, Inhabited

/-- An ordered flow (R258). -/
structure Flow where
  (src dst vc key : Nat)
  next           : Nat                     -- next FLOW_SEQ to send or to make visible
  sent           : Nat                     -- packets sent in the flow (R257)
  deriving DecidableEq, Repr, Inhabited

/-- A credit loan (R443). -/
structure Loan where
  units  : Nat
  seq    : Nat
  expiry : Nat
  hold   : Nat                             -- hold time in units of 10 µs
  deriving DecidableEq, Repr, Inhabited

/-- A scheduled-lane entry (R265). -/
structure Lane where
  (partition group : Nat)
  (portMask start length flight : Nat)
  deriving DecidableEq, Repr, Inhabited

/-- The Plumb timebase (R261 to R264) and PPS (R474, R475). -/
structure Plumb where
  running  : Bool := false
  time     : Nat := 0
  epoch    : Nat := 0                      -- TB_EPOCH
  anchor   : Nat := 0
  anchored : Bool := false                 -- epoch 0 has an anchor from PPS_IN
  locked   : Bool := false
  offset   : Int := 0                      -- latest offset estimate, ns
  slew     : Int := 0                      -- correction still to be slewed, ns
  lastOk   : Nat := 0                      -- ns of the last successful exchange
  goodSince : Nat := 0                     -- ns since which the offset stays below 16 ns
  missed   : Nat := 0
  t1       : Option Nat := none            -- outstanding SYNC_REQ
  lastSync : Nat := 0
  withdrawn : Bool := false                -- withdrawn from scheduled lanes (R267)
  ppsLast  : Option Nat := none            -- ns of the last accepted PPS_IN edge
  ppsDrop  : Nat := 0                      -- discarded PPS_IN edges
  ppsOut   : Option Nat := none            -- ns at which PPS_OUT rose
  ppsNext  : Nat := 0                      -- k of the next PPS_OUT edge
  latch    : Nat := 0                      -- PLUMB_HI latch (R455)
  deriving DecidableEq, Repr, Inhabited

/-- Membership (R270 to R276). -/
structure Member where
  epoch        : Nat := 0
  node         : Nat := 0
  isMember     : Bool := false
  grandmasters : List Nat := []
  coordinators : List Nat := []
  key          : Option (BitVec 256) := none  -- domain control key
  ctr0         : Nat := 0                  -- VC4 counters under it, per direction
  ctr1         : Nat := 0
  asked        : Option MembRecord := none -- coordinator: an update requested and not yet sent
  acks         : List Nat := []            -- coordinator: members that have acknowledged
  sentAt       : Option Nat := none        -- coordinator: ns of the outstanding update
  sentEpoch    : Option Nat := none        -- coordinator: epoch of the last update that this module sent
  slipFrames   : List (Nat × Nat) := []    -- (source, frame) for which SLOT_SLIP has been sent
  phys         : Nat := 0                  -- this module's own fabric address
  admitted     : List (Nat × Nat × Nat × Digest) := []  -- admission records applied: node, PHYS, epoch, identity
  rMaxes       : List (Nat × Nat × Nat × Nat) := []  -- R233 step 1: node removed, local session, even key index, R_MAX
  joins        : List Nat := []            -- coordinator: admitted modules to which DOMAIN_JOIN is not yet sent
  joined       : List Nat := []            -- coordinator: modules to which DOMAIN_JOIN has been sent
  deriving DecidableEq, Repr, Inhabited

/-! ## Grout and Trowel (chapters 11, 12) -/

/-- An open group (R281 to R285). -/
structure Group where
  (context lkey stageKey maxInst stageVa slotHold : Nat)
  members : List Nat
  self    : Nat
  listId  : BitVec 64
  deriving DecidableEq, Repr, Inhabited

/-- A stream that a member receives in a collective, in the order in which its chain takes it: the sender's position, the
range of positions that its value covers, whether that range is the lower half of its node, chunks granted, packets
received, chunks added (or, in a broadcast, complete), and its slot lease (R279, R295 to R297). -/
structure RxStream where
  pos     : Nat
  (lo hi : Nat)
  lower   : Bool
  granted : Nat                            -- chunks granted
  got     : List (Nat × Nat)               -- (chunk, packet) received
  added   : Nat
  lease   : Option (Nat × Nat × Nat)       -- owner, epoch, expiry
  deriving DecidableEq, Repr, Inhabited

/-- A member that this one sends to in a collective: its position, the chunks it has granted, the chunks sent to it, and
when this member last sent it a packet (R295, R297). -/
structure TxStream where
  pos     : Nat
  granted : List (Nat × Nat)               -- first and last chunk of each grant
  sent    : Nat
  lastAt  : Option Nat
  deriving DecidableEq, Repr, Inhabited

/-- A live Grout instance at this member (R286 to R300). -/
structure Grout where
  task      : TaskRef
  ctx       : Nat
  (partition group tag : Nat)
  (op fmt root count : Nat)
  (srcVa srcKey dstVa dstKey : Nat)
  streams   : List RxStream                -- streams it receives, in chain order
  targets   : List TxStream                -- members it sends to
  done      : Nat                          -- chunks written or handed on
  outbox    : List Packet                  -- packets not yet sent
  unacked   : List (Nat × Nat)             -- XIDs of data packets not acknowledged, with the position they go to
  written   : List (Word × Bool)           -- per result chunk: sum of squares, non-finite
  flag0     : Bool
  step      : Option (Nat × Nat × Nat)     -- barrier: STEP, STEP_VA and the step record's key index
  value     : Bytes                        -- barrier: the element it contributes, then the one it holds
  deriving DecidableEq, Repr, Inhabited

/-- A CREDIT held because the sender's task has not started (R295). -/
structure HeldCredit where
  (partition group tag pos : Nat)
  payload : Bytes
  deriving DecidableEq, Repr, Inhabited

/-- An ended instance of a collective at this member (R296, R297, R299). -/
structure EndedGrout where
  (partition group tag : Nat)
  at'    : Nat                             -- when it ended
  lapsed : Option Nat                      -- the sender whose slot lease lapsed
  failed : Bool
  deriving DecidableEq, Repr, Inhabited

/-- An ABORT of a group with scheduled lanes that waits for a slot (R265, R299). -/
structure HeldAbort where
  (partition group tag : Nat)
  status : Status
  pkt    : Packet
  deriving DecidableEq, Repr, Inhabited

/-- The running Trowel task (R302 to R322). -/
structure Trowel where
  task     : TaskRef
  ctx      : Nat
  op       : Nat
  descVa   : Nat
  dkey     : Nat
  desc     : Bytes                         -- descriptor as read at dispatch, its unit fields as written since
  aux      : Bytes                         -- step record, or the journal record's first 256 bytes
  auxVa    : Nat
  rkey     : Nat
  first    : Nat                           -- PROGRESS at the start
  progress : Nat
  sealing  : Bool                          -- the journal seal or record is not yet visible
  unsent   : List Packet                   -- JMODE 0b10: packets not yet sent
  xids     : List Nat
  failed   : Option Status                 -- first failure among its packets
  badW     : Bool                          -- a W written was NaN or infinite
  revoked  : List Nat := []                -- key indices erased IMMEDIATE since it was bound (R213)
  deriving DecidableEq, Repr, Inhabited

/-! ## Sessions, checkpoints and the security processor (chapters 13 to 15) -/

/-- A role, release rule and declassification of a manifest (Table 14.10). -/
structure Role where
  (kclass owner lkey : Nat)
  deriving DecidableEq, Repr, Inhabited
structure Rule where
  (role dest destOwner k approvers maxLen : Nat)
  deriving DecidableEq, Repr, Inhabited

/-- A session manifest, decoded (Table 14.10). -/
structure Manifest where
  (magic version rsvd : Nat)
  (owners operator : Nat)
  replaceAuto : Bool
  (kMembers kAdmit authority grades : Nat)
  roles    : List Role
  programs : List Digest
  rules    : List Rule
  declass  : List (Nat × Nat)
  maxMembers : Nat
  nonce    : Nat
  endorse  : Digest
  fw       : List Digest
  ownerIds : List Digest
  deriving DecidableEq, Repr, Inhabited

/-- Session states (R371 to R379). -/
inductive SesState where
  | pending | running | ended
  deriving DecidableEq, Repr, Inhabited

/-- A release ticket (R378). -/
structure Ticket where
  (id rule context addr len key : Nat)
  pieces   : List Digest
  digest   : Digest
  slot     : Nat
  armed    : Bool
  sent     : List Nat
  complete : Bool
  deriving DecidableEq, Repr, Inhabited

/-- A checkpoint chain of a session on this node (R333, R338). -/
structure Chain where
  context  : Nat                           -- context of its last sealed FULL or DIFF
  prev     : Digest
  lastNo   : Option Nat                    -- CKPT_NO of the last sealed FULL or DIFF
  topNo    : Option Nat                    -- greatest CKPT_NO sealed
  regions  : List (Nat × Nat × Nat × Digest) -- VA, key, LEN and SHARD_DIGEST of that checkpoint
  granules : List Nat                      -- granules registered
  restored : List (Nat × Nat × List (Nat × Nat × Nat)) -- FULL or DIFF last restored, by its targets: context, CKPT_NO; VA, key and LEN
  deriving DecidableEq, Repr, Inhabited

/-- A region or target entry (Table 13.2). -/
structure Region where
  (va key len list rsvd : Nat)
  deriving DecidableEq, Repr, Inhabited

/-- Packets of a checkpoint to or from a Lath address: not yet sent, sent and not answered, the first failure, and what reads have
returned, by the offset read. -/
structure CkptLink where
  unsent : List Packet := []
  xids   : List Nat := []
  failed : Option Status := none
  got    : List (Nat × Bytes) := []
  deriving DecidableEq, Repr, Inhabited

/-- A capture under way (R334). -/
structure Capture where
  operands : Bytes
  aad      : Bytes                         -- manifest bytes 0x008 to 0x017
  ck       : BitVec 256
  step     : Nat                           -- COMMIT_STEP as first read
  top      : Nat := 0                      -- JOURNAL: highest record STEP so far
  picks    : List (List Nat)               -- by region: the granules to capture
  region   : Nat := 0                      -- the region under way
  begun    : Bool := false                 -- its list has been read
  entries  : List Digest := []             -- its list so far
  todo     : List Nat := []                -- its granules still to capture
  picked   : List Nat := []                -- its granules captured
  objs     : Bytes := []                   -- their objects
  since    : Option (Nat × Nat) := none    -- ns at which the read of the next granule began, and its re-reads
  objects  : Bytes := []                   -- objects of the regions done
  table    : List (Region × Nat × Nat × Digest) := [] -- regions done: granules captured, OBJ_OFF, SHARD_DIGEST
  lists    : List (Region × Bytes) := []   -- their new lists
  cleared  : List Nat := []                -- granules whose dirty bits it has cleared
  sent     : Bool := false                 -- the objects have been written
  final    : Option (Chain × Nat × Digest) := none -- the manifest has been sent: the chain it makes, its end, its digest
  link     : CkptLink := {}
  deriving DecidableEq, Repr, Inhabited

/-- A restore or a verification under way (R341 to R344). -/
structure Restore where
  verify   : Bool
  context  : Nat
  targets  : Bytes
  source   : CkptSource
  manifest : Bytes := []                   -- empty until it has been read and checked
  slot     : Nat := 0                      -- the checkpoint-wrap slot it uses from then on
  ck       : BitVec 256 := 0
  region   : Nat := 0                      -- the region under way
  begun    : Bool := false                 -- its list object has passed
  entries  : List Digest := []             -- its list
  todo     : List Nat := []                -- its present granules still to write
  off      : Nat := 0                      -- offset of the next object
  since    : Nat := 0                      -- ns at which the work on the next granule began
  link     : CkptLink := {}
  deriving DecidableEq, Repr, Inhabited

/-- A session open on the module (R370 to R379). -/
structure Session where
  id        : Nat                          -- SESSION_ID
  state     : SesState
  partition : Nat
  founder   : Bool
  manifest  : Manifest
  nonce     : Nat                          -- BOUNCE_NONCE
  ss        : Option (BitVec 384)
  obs       : Option (BitVec 256)
  approvals : List (Nat × Nat × Digest)    -- owner, kind, object
  members   : List (Nat × Digest)          -- admitted (node, identity)
  tickets   : List Ticket
  nextTicket : Nat
  chain     : Option Chain
  ckptBusy  : Bool
  capture   : Option Capture := none
  restore   : Option Restore := none
  endReq    : Bool                         -- a SESSION_END request waits for its end
  rolls     : Tab Nat := []                -- by Lath role: roll counts used so far on this module (R228, R375)
  asker     : Option Nat := none           -- SPDM session whose SESSION_END or checkpoint request runs (R350)
  deriving DecidableEq, Repr, Inhabited

/-- Requester classes (R348). -/
inductive ReqClass where
  | owner (identity : Digest)
  | peer (identity : Digest)
  | platform
  | driver
  deriving DecidableEq, Repr, Inhabited

/-- What the security processor last answered: a status, a code for the kind of data, and the data. -/
structure Answer where
  status : Status
  data   : List Nat
  bytes  : Bytes
  deriving DecidableEq, Repr, Inhabited

/-- An SPDM secured session with the responder (R350, R364, R365). -/
structure Spdm where
  cls      : ReqClass
  finished : Bool := false
  pqSigned : Bool := false                 -- every required PQ_SIGN has verified
  keyGen   : Nat := 0                      -- KEY_UPDATEs
  secret   : Bytes := []                   -- what enters the key schedule: ECDH secret, then ML-KEM shared secret
  th2      : Digest := 0                   -- transcript hash TH2, once FINISH has completed
  late     : List Answer := []             -- answers that wait for an earlier request of the session
  deriving DecidableEq, Repr, Inhabited

/-- An entry of the security processor's log (R438). -/
structure LogEntry where
  (seq tb plumb : Nat)
  source : Nat                             -- 0 event, 1 status report, 2 refusal
  code   : Nat
  (partition context : Nat)
  (info0 info1 : Nat)
  seen   : Bool := false                   -- SP_LOG_READ has returned it
  deriving DecidableEq, Repr, Inhabited

/-- The security processor (chapters 14, 15): entropy and DRBG, root secret, OTP, slots, SPDM, sessions, log. -/
structure Sp where
  entropyOk  : Bool := false               -- start-up tests have passed and no continuous test has failed
  drbgReady  : Bool := false
  startFails : Nat := 0                    -- consecutive failed start-up runs
  stopped    : Bool := false               -- R352: stopped until module reset
  generates  : Nat := 0                    -- generate calls since the last reseed
  draws      : Nat := 0                    -- MODEL'S OWN: index of the next free random value
  seededAt   : Nat := 0
  powerGood  : Nat := 0                    -- ns of island power-good
  lcWord     : DWord := 0xFFFFFFFFF#64     -- OTP bank LC
  debugKill  : BitVec 8 := 0
  bankA      : BitVec 264 := 0
  bankB      : BitVec 264 := 0
  part       : Nat := 0                    -- OTP PART
  mask       : DWord := 0xFFFFFFFFFFFFFFFF#64  -- OTP CLUSTER_MASK
  authority  : Nat := 1                    -- OTP AUTHORITY: 0 LOCAL, 1 HOST
  platform   : Digest := 0                 -- OTP PLATFORM
  certStored : Bool := true                -- endorsement chain stored in slot 0
  testAccess : Bool := false               -- TEST-mode memory access open
  nonce      : Option (BitVec 256) := none
  nonceAt    : Nat := 0
  nonceDebug : Bool := false               -- DEBUG_CHALLENGE issued it (otherwise LC_NONCE)
  programming : Option (Nat × Nat) := none -- life-cycle programming under way: target state, ns of the last step (R388)
  debugOpen  : Option (Nat × Nat × Nat × Option Nat) := none  -- SCOPE, ns opened, DURATION, the SPDM session that unlocked
  hubHalt    : Bool := false               -- a SCOPE 2 debug session halts the hub firmware cores (R392)
  debugged   : Bool := false               -- a debug session has opened in FIELD since module reset
  fwWait     : Bool := false               -- target-0 FW_ACTIVATE waits or runs
  fwSp       : Digest := 0                 -- measurement block 0x02
  fwHub      : Digest := 0                 -- measurement block 0x03
  verSp      : Nat := 0
  verHub     : Nat := 0
  staged     : Tab (Digest × Nat) := []    -- per component: staged image digest and version
  transfer   : Option (Nat × Digest × Nat) := none -- PLDM image transferred and verified, not yet applied
  slots      : Tab Slot := []
  keyCtxs    : Tab KeyCtx := []
  sessions   : Tab Session := []
  endedIds   : List Nat := []              -- SESSION_IDs ended since module reset
  nextSession : Nat := 1
  spdm       : Tab Spdm := []
  offers     : List (Nat × Nat × Digest × Bytes) := [] -- PQ handles: handle, SPDM requester, digest, ML-KEM shared secret
  measured   : Tab Bytes := []             -- by SPDM requester: transcript of its last signed MEASUREMENTS response (R366)
  nextHandle : Nat := 1
  log        : List LogEntry := []         -- oldest first, at most 16,384
  logSeq     : Nat := 0
  answer     : Option Answer := none       -- last answer
  remasks    : Nat := 0                    -- MODEL'S OWN: re-mask rounds done
  deriving DecidableEq, Repr, Inhabited

/-! ## Clocks, power, pins (chapters 17, 20) -/

/-- Power-domain states (R417). -/
inductive DState where
  | on | draining | sealed | retain | off | waking
  deriving DecidableEq, Repr, Inhabited

/-- A power domain (R416 to R418). -/
structure Domain where
  state  : DState := .off
  target : DState := .off                  -- where a drain or wake ends
  since  : Nat := 0
  reqs   : List HeldMem := []              -- requests held at the boundary router
  deriving DecidableEq, Repr, Inhabited

/-- A clock domain (R413, R414): clusters 0 to 63, and 64 + d for the other clocks of die d. -/
structure Clock where
  backup : Bool := false                   -- runs from the backup PLL
  want   : Bool := false                   -- source wanted
  ladder : Bool := false                   -- on the ladder of R414
  moving : Bool := false                   -- a frequency move is under way
  target : Nat := 60                       -- N at its end
  heldAt : Nat := 0                        -- ns at which the present step began
  step   : Nat := 60                       -- of clocks 64 + d: their ladder step; a cluster's frequency is its own `n`
  deriving DecidableEq, Repr, Inhabited

/-- Module power states (Table 20.4). -/
inductive PowerState where
  | off | island | active | standby | halted
  deriving DecidableEq, Repr, Inhabited

/-- Power, clocks and thermal state (chapter 17, R469 to R476). -/
structure Power where
  state     : PowerState := .island
  mv        : Nat := 48000                 -- the 48 V input
  mvRead    : Nat := 0                     -- its last reading (PWR_INPUT, Table 19.6)
  watts     : Nat := 0
  temps     : Tab Nat := []                -- die sensors, degrees C
  inlet     : Nat := 0
  outlet    : Nat := 0
  perst     : Bool := true                 -- PERST# asserted
  slotId    : Nat := 0
  resetDone : Bool := false
  failed    : Bool := false                -- R445
  tripped   : Bool := false                -- temperature trip, held until PERST#
  cooling   : Bool := false                -- after a trip: no sensor reading of 95 °C or less yet (R471)
  domains   : Tab Domain := []
  clocks    : Tab Clock := []              -- per cluster
  pcap      : Nat := 2800
  brownOut  : Bool := false
  refclkOk  : Bool := true
  crystalOk : Bool := true
  mainOk    : Tab Bool := []               -- per die; an unlisted lock holds
  backupOk  : Tab Bool := []
  dustSheet : Bool := false
  dustAt    : Nat := 0
  dustSrc   : Nat := 0
  overrides : List Nat := []               -- safety loops overriding now
  droops    : List Nat := []               -- dies on which loop 2 skips cycles
  lowAt     : Tab Nat := []                -- per loop: ns of its last step
  floor     : Bool := false
  brake     : Bool := false                -- filtered BRAKE
  brakeTrig : Nat := 0                     -- ns of the latest trigger
  brakeAt   : Nat := 0                     -- ns of assertion
  brakePosts : Nat := 0                    -- BRAKE_ASSERTED posted
  throttle  : Bool := false                -- THROTTLE_OUT#
  throttleAt : Nat := 0
  throttleClear : Option Nat := none       -- ns at which the last condition cleared
  -- CLKGATE (Table 17.2)
  cgCluster : DWord := 0xFFFFFFFFFFFFFFFF#64
  cgLath    : Word := 0xFFFFFFFF#32
  cgHbm     : BitVec 8 := 0xFF#8
  cgCap     : BitVec 8 := 0xFF#8
  cgTrowel  : BitVec 8 := 0xFF#8
  cgHub     : BitVec 3 := 0b101#3
  cgPend    : List Nat := []               -- blocks whose gate has not yet taken effect
  -- deterministic timing (R405)
  dtEn      : Bool := false
  dtFreq    : Nat := 0x3C
  memExc    : Nat := 0
  linkExc   : Nat := 0
  -- management bus (R478, R479)
  eids      : Tab Nat := []                -- per binding: endpoint ID
  smbusUp   : Bool := true
  stuckCount : Nat := 0
  mctpMsg   : Bool := false                -- a message waits for the SMBus owner
  deriving DecidableEq, Repr, Inhabited

/-! ## Events and registers (chapters 18, 19) -/

/-- An event ring (Table 18.3, R434 to R437); the records themselves are bytes of host memory. -/
structure Ring where
  en      : Bool := false
  log2    : Nat := 4
  msixEn  : Bool := false
  msix    : Nat := 0
  base    : Nat := 0
  head    : Nat := 0
  tail    : Nat := 0
  phase   : Bool := true
  ovf     : Bool := false
  lost    : Nat := 0                       -- displaced or dropped since overflow began
  drop    : Nat := 0                       -- EVR_DROP
  deriving DecidableEq, Repr, Inhabited

/-- A register page's common header state (Table 19.1). -/
structure Page where
  msix    : Nat := 0
  msixEn  : Bool := false
  raw     : Word := 0
  sticky  : Word := 0
  enable  : Word := 0
  count   : Nat := 0
  info    : Tab Word := []
  deriving DecidableEq, Repr, Inhabited

/-- A watermark source (R440). -/
structure Watermark where
  level  : Nat := 0
  thresh : Nat := 0
  count  : Nat := 0
  hit    : Bool := false
  deriving DecidableEq, Repr, Inhabited

/-- A health monitor (R329, R463): count, start of its window and whether it has posted in it. -/
structure Monitor where
  thresh : Option Nat := none              -- `none`: the default of Table 13.1
  count  : Nat := 0
  since  : Nat := 0
  posted : Bool := false
  deriving DecidableEq, Repr, Inhabited

/-- Events, registers and what the module has sent to the host. -/
structure Regs where
  rings    : Tab Ring := []
  evrSel   : Nat := 0
  pages    : Tab Page := []                -- by BAR0 page number
  marks    : Tab Watermark := []
  monitors : Tab Monitor := []
  qcSel    : Nat := 0
  qcMiss   : Nat := 0
  qcEvict  : Nat := 0
  (dispatch squash bypass dbDrop dbWait wdog : Nat := 0)
  (grDone grAbortTx grAbortRx grLease grBusy : Nat := 0)
  (twDone twSkipped twDirty : Nat := 0)
  sprayPin : Bool := false
  respTimeout : Nat := 50                  -- µs
  (hubReplay hubRetrain : Nat := 0)        -- hub uncore page (R464)
  readData : DWord := 0                    -- value the last register read returned
  msixSent : List (Nat × Nat × Nat) := []  -- MSI-X messages sent, oldest first: vector, the entry's address and data
  msixOn   : Bool := true                  -- MSI-X Enable of the capability
  msixMask : Bool := false                 -- Function Mask of the capability
  posts    : Nat := 0                      -- MODEL'S OWN: event records written, the index of the next write's outcome
  msixTab  : Tab Word := []                -- MSI-X table and pending bits (R453), by word; a vector control word is kept inverted in bit 0
  hostMem  : Mem := []                     -- bytes the module has written to host bus addresses
  deriving DecidableEq, Repr, Inhabited

/-- The Lath fabric and Grout and Trowel units. -/
structure Fabric where
  d2d      : Tab D2d := []
  ports    : Tab Port := []
  windows  : Tab Window := []
  arrivals : Tab Arrival := []
  nodes    : Tab Node := []
  member   : Member := {}
  plumb    : Plumb := {}
  pending  : Tab Pending := []             -- by XID
  nextXid  : Nat := 0
  usedXids : List (Nat × Nat × Nat) := []  -- node, XID and ns of the requests sent within the last 2 ms (R255)
  records  : List Recorded := []
  heldEpoch : List HeldReq := []
  heldFlow : List HeldReq := []
  heldLink : List HeldReq := []            -- requests whose memory access waits for a die-to-die link or a drain
  replays  : List Replay := []
  txFlows  : List Flow := []
  rxFlows  : List Flow := []
  loansOut : Tab Loan := []                -- lent by this module, per source node
  loansIn  : Tab Loan := []                -- held by this module, per destination node
  lanes    : Tab Lane := []                -- 0 to 15
  groups   : Tab Group := []               -- by partition * 4,096 + group
  grouts   : List Grout := []
  credits  : List HeldCredit := []
  doneTags : List EndedGrout := []         -- latest first
  aborts   : List HeldAbort := []
  trowel   : Option Trowel := none
  deriving DecidableEq, Repr, Inhabited

/-- Device memory: both tiers, by canonical byte address. -/
structure Memory where
  bytes    : Mem := []                     -- plaintext of every line
  lines    : Tab Line := []                -- by line address; unlisted: as the granule's zero-fill left it
  granules : Tab Granule := []             -- by granule number; unlisted: primed
  clean    : List Nat := []                -- granules whose dirty bit is clear (module reset sets every bit)
  marked   : List (Nat × Nat) := []        -- granules marked in the table bitmaps (R199), with the context whose marks they are
  ptes     : Tab DWord := []               -- page-table entries, by entry address
  locks    : Tab (Nat × Nat) := []         -- view locks per 1 GiB region: 1 INTERLEAVED or 2 DIE_LOCAL, and the count
  ctls     : Tab MemCtl := []
  tlb      : Tab (List (Nat × Nat)) := []  -- cached table entries, context and entry address (R202): caches 0-63 of the
                                           -- clusters, 64-67 of the compute dies, 68 of the hub
  xlatMiss : Tab Nat := []                 -- XLAT_MISS of caches 64 to 68 (R464)
  outstanding : List (Nat × MemReq) := []  -- accesses in flight through cleared leaves: queue of the UNMAP, request
  answer   : Option (Status × Bytes) := none -- what the last line read delivered to its requester
  deriving DecidableEq, Repr, Inhabited

/-- THE STATE OF THE MODULE. -/
structure State where
  ns       : Nat := 0                      -- monotonic module time (R329)
  half     : Bool := false                 -- MODEL'S OWN: half of the present nanosecond has passed
  fresh    : Nat := 0                      -- MODEL'S OWN: index of the next free value
  cores    : Tab Core := []
  clusters : Tab Cluster := []
  puts     : List MeshPut := []            -- mesh puts on their way
  signals  : List Signal := []             -- increments on their way
  plans    : Tab Plan := []                -- by queue
  queues   : Tab Queue := []
  contexts : Tab Context := []
  parts    : Tab Partition := []
  mem      : Memory := {}
  fab      : Fabric := {}
  sp       : Sp := {}
  pow      : Power := {}
  regs     : Regs := {}
  pending  : List Instr := []              -- commands that wait, first in first out
  deriving DecidableEq, Repr

/-- The module right after reset: input power present, PERST# still asserted, nothing opened, loaded, mapped or cached
(R180, R274, R450, R471). Values that no rule gives are those the assumption log names. -/
def State.reset : State := {}

end Sys2Proof.Machine
end

