-- ==== Sys2Proof/Machine/Ops.lean ====
section
/-! DEFINITION. The shared operations: finite tables, byte strings, status codes, reading and writing the parts of the
state, memory as bytes, free values, the tick of the module's clocks. -/

namespace Sys2Proof.Machine
open Sys2Proof

/-! ## Finite tables -/

/-- The entry of number `k`, if it is listed. -/
def tlook {α : Type} : Tab α → Nat → Option α
  | [], _ => none
  | (a, v) :: t, k => if a = k then some v else tlook t k

/-- The entry of number `k`; an unlisted number has the default `d`. -/
def tget {α : Type} (d : α) (t : Tab α) (k : Nat) : α := (tlook t k).getD d

/-- Lists `v` under number `k`, at its place in the rising order. -/
def tins {α : Type} : Tab α → Nat → α → Tab α
  | [], k, v => [(k, v)]
  | (a, w) :: t, k, v =>
    if k < a then (k, v) :: (a, w) :: t
    else if k = a then (k, v) :: t
    else (a, w) :: tins t k v

/-- Takes number `k` off the list. -/
def tdel {α : Type} (t : Tab α) (k : Nat) : Tab α := t.filter (fun p => p.1 != k)

/-- Sets the entry of `k`, keeping the canonical form: no entry equal to the default is listed. -/
def tput {α : Type} [DecidableEq α] (d : α) (t : Tab α) (k : Nat) (v : α) : Tab α :=
  if v = d then tdel t k else tins t k v

/-- The numbers strictly rise. -/
def trising {α : Type} : Tab α → Bool
  | [] => true
  | [_] => true
  | (a, _) :: (b, w) :: t => decide (a < b) && trising ((b, w) :: t)

/-- Canonical form of a table with default `d` (the form `tput` keeps). -/
def Tab.wf {α : Type} [DecidableEq α] (d : α) (t : Tab α) : Bool :=
  trising t && t.all (fun p => decide (p.2 ≠ d))

/-- Canonical form of a memory (addresses rising, no listed zero). -/
def memWf (m : Mem) : Bool := Tab.wf (0 : Byte) m

/-! ## Bytes -/

/-- The byte at an address; an unlisted one reads 0 (Table 4.14, R156, R192). -/
def mread (m : Mem) (a : Nat) : Byte := tget 0 m a
/-- Writes one byte. -/
def mwrite (m : Mem) (a : Nat) (b : Byte) : Mem := tput 0 m a b
/-- `n` bytes from an address on. -/
def mreadN (m : Mem) (a : Nat) : Nat → Bytes
  | 0 => []
  | n + 1 => mread m a :: mreadN m (a + 1) n
/-- Writes a byte string. -/
def mwriteN (m : Mem) (a : Nat) : Bytes → Mem
  | [] => m
  | b :: bs => mwriteN (mwrite m a b) (a + 1) bs
/-- Zeroes `n` bytes from an address on. -/
def mzero (m : Mem) (a n : Nat) : Mem := m.filter (fun p => p.1 < a || a + n ≤ p.1)

/-- Puts an element in a list before the first one that it does not come after. -/
def putBy {α : Type} (le : α → α → Bool) (x : α) : List α → List α
  | [] => [x]
  | y :: l => if le x y then x :: y :: l else y :: putBy le x l
/-- A list in the order of `le`; elements that are equal there keep their order. -/
def sortBy {α : Type} (le : α → α → Bool) (l : List α) : List α := l.foldr (putBy le) []

/-- Little-endian value of a byte string (R5). -/
def leVal : Bytes → Nat
  | [] => 0
  | b :: bs => b.toNat + 256 * leVal bs
/-- `n` little-endian bytes of a number (R5). -/
def leBytes : Nat → Nat → Bytes
  | 0, _ => []
  | n + 1, v => BitVec.ofNat 8 v :: leBytes n (v / 256)
/-- Byte `i` of a string, 0 beyond its end. -/
def byteAt (b : Bytes) (i : Nat) : Byte := b.getD i 0
/-- The little-endian field of `n` bytes at offset `o`; bytes beyond the end count as 0. -/
def le (b : Bytes) (o n : Nat) : Nat := leVal ((List.range n).map (fun i => byteAt b (o + i)))
/-- Bits `[hi:lo]` of a number (R5: both ends included). -/
def bits (v hi lo : Nat) : Nat := v / 2 ^ lo % 2 ^ (hi + 1 - lo)
/-- Bit `i` of a number. -/
def bit (v i : Nat) : Bool := v / 2 ^ i % 2 == 1
/-- `n` bytes of `b` from offset `o` on, padded with zeros. -/
def slice (b : Bytes) (o n : Nat) : Bytes := (List.range n).map (fun i => byteAt b (o + i))
/-- Overwrites bytes of a string from offset `o` on. -/
def patch (b : Bytes) (o : Nat) (d : Bytes) : Bytes :=
  (List.range b.length).map (fun i => if o ≤ i && i < o + d.length then byteAt d (i - o) else byteAt b i)
/-- A number from 0 or 1. -/
def b2n (b : Bool) : Nat := if b then 1 else 0
/-- A saturating counter of `w` bits after `n` more counts (R447, R450: counters saturate). -/
def satAdd (w c n : Nat) : Nat := min (c + n) (2 ^ w - 1)
/-- `x` clamped to `lo`..`hi`. -/
def clamp (lo hi x : Nat) : Nat := max lo (min hi x)
/-- The ceiling of `a / b`. -/
def ceilDiv (a b : Nat) : Nat := (a + b - 1) / b
/-- The i-th element of a list of numbers, 0 beyond its end. -/
def nth (l : List Nat) (i : Nat) : Nat := l.getD i 0
/-- A two's complement value of `w` bits. -/
def sext (w v : Nat) : Int := if v / 2 ^ (w - 1) % 2 = 1 then (v : Int) - 2 ^ w else v

/-- Bytes of a SHA-384 digest. -/
def digestBytes (d : Digest) : Bytes := leBytes 48 d.toNat
/-- The digest held by 48 bytes. -/
def bytesDigest (b : Bytes) : Digest := BitVec.ofNat 384 (leVal (b.take 48))

/-! ## Status codes -/

/-- The 16-bit code of a status (Table 18.1). -/
def statusCode : Status → Nat
  | .ok => 0x0000 | .stepSkipped => 0x0001
  | .aborted => 0x0100 | .abortedByReset => 0x0101 | .abortedByDestroy => 0x0102
  | .squashed => 0x0103 | .clockInterrupted => 0x0104
  | .descInvalid => 0x0200 | .descRange => 0x0201 | .unsupported => 0x0202
  | .pageFault => 0x0300 | .policyDenied => 0x0301 | .windowDenied => 0x0302
  | .tagMismatch => 0x0400 | .keyRevoked => 0x0401 | .keyExhausted => 0x0402 | .keyBusy => 0x0403
  | .staleEpoch => 0x0500 | .leaseExpired => 0x0501 | .linkDown => 0x0502
  | .retryExhausted => 0x0503 | .domainSealed => 0x0504
  | .notReady => 0x0600 | .busy => 0x0601 | .entropyNotReady => 0x0602

/-- Every status, in the order of Table 18.1. -/
def allStatuses : List Status :=
  [.ok, .stepSkipped, .aborted, .abortedByReset, .abortedByDestroy, .squashed, .clockInterrupted,
   .descInvalid, .descRange, .unsupported, .pageFault, .policyDenied, .windowDenied,
   .tagMismatch, .keyRevoked, .keyExhausted, .keyBusy,
   .staleEpoch, .leaseExpired, .linkDown, .retryExhausted, .domainSealed, .notReady, .busy, .entropyNotReady]

/-- The status that a received code names; a value outside Table 18.1 is taken as ABORTED (R432). -/
def statusOf (code : Nat) : Status := (allStatuses.find? (fun st => statusCode st == code)).getD .aborted

/-- Class 0x00 is exactly the set of success statuses (R139, R432). -/
def Status.success : Status → Bool
  | .ok => true | .stepSkipped => true | _ => false

/-! ## Parts of the state -/

/-- A core by its number. -/
def coreOf (s : State) (c : Nat) : Core := tget {} s.cores c
/-- Replaces a core. -/
def setCore (s : State) (c : Nat) (v : Core) : State := { s with cores := tput {} s.cores c v }
/-- Changes a core. -/
def modCore (s : State) (c : Nat) (f : Core → Core) : State := setCore s c (f (coreOf s c))
/-- A cluster by its number. -/
def clusterOf (s : State) (n : Nat) : Cluster := tget {} s.clusters n
def setCluster (s : State) (n : Nat) (v : Cluster) : State := { s with clusters := tput {} s.clusters n v }
def modCluster (s : State) (n : Nat) (f : Cluster → Cluster) : State := setCluster s n (f (clusterOf s n))
/-- The queue-table entry of a queue (queue 0: its hub registers, R166). -/
def queueOf (s : State) (q : Nat) : Queue := tget {} s.queues q
/-- The queue that stands for management requests of the security processor in LOCAL mode (log entry on R158). -/
def mgmtQueue : Nat := 16384
/-- Opcode of a submission entry. -/
def opcodeOf (e : Bytes) : Nat := le e 0 1
/-- CMD_ID of the command that a queue runs. -/
def cmdIdOf (s : State) (q : Nat) : Nat := match (queueOf s q).running with | some r => le r.entry 2 2 | none => 0
def setQueue (s : State) (q : Nat) (v : Queue) : State := { s with queues := tput {} s.queues q v }
def modQueue (s : State) (q : Nat) (f : Queue → Queue) : State := setQueue s q (f (queueOf s q))
def ctxOf (s : State) (c : Nat) : Context := tget {} s.contexts c
def setCtx (s : State) (c : Nat) (v : Context) : State := { s with contexts := tput {} s.contexts c v }
def modCtx (s : State) (c : Nat) (f : Context → Context) : State := setCtx s c (f (ctxOf s c))
def partOf (s : State) (p : Nat) : Partition := tget {} s.parts p
def setPart (s : State) (p : Nat) (v : Partition) : State := { s with parts := tput {} s.parts p v }
def modPart (s : State) (p : Nat) (f : Partition → Partition) : State := setPart s p (f (partOf s p))
/-- The plan that a queue has loaded. -/
def planOf (s : State) (q : Nat) : Option Plan := tlook s.plans q
def setPlan (s : State) (q : Nat) (v : Plan) : State := { s with plans := tins s.plans q v }
def dropPlan (s : State) (q : Nat) : State := { s with plans := tdel s.plans q }
def keyOf (s : State) (k : Nat) : KeyCtx := tget {} s.sp.keyCtxs k
def setKey (s : State) (k : Nat) (v : KeyCtx) : State := { s with sp := { s.sp with keyCtxs := tput {} s.sp.keyCtxs k v } }
def modKey (s : State) (k : Nat) (f : KeyCtx → KeyCtx) : State := setKey s k (f (keyOf s k))
def slotOf (s : State) (k : Nat) : Slot := tget {} s.sp.slots k
def setSlot (s : State) (k : Nat) (v : Slot) : State := { s with sp := { s.sp with slots := tput {} s.sp.slots k v } }
def modSlot (s : State) (k : Nat) (f : Slot → Slot) : State := setSlot s k (f (slotOf s k))
/-- A session by its local identifier. -/
def sesOf (s : State) (i : Nat) : Option Session := tlook s.sp.sessions i
def setSes (s : State) (i : Nat) (v : Session) : State := { s with sp := { s.sp with sessions := tins s.sp.sessions i v } }
def portOf (s : State) (p : Nat) : Port := tget {} s.fab.ports p
def setPort (s : State) (p : Nat) (v : Port) : State := { s with fab := { s.fab with ports := tput {} s.fab.ports p v } }
def modPort (s : State) (p : Nat) (f : Port → Port) : State := setPort s p (f (portOf s p))
def nodeOf (s : State) (n : Nat) : Node := tget {} s.fab.nodes n
def d2dOf (s : State) (l : Nat) : D2d := tget {} s.fab.d2d l
def setD2d (s : State) (l : Nat) (v : D2d) : State := { s with fab := { s.fab with d2d := tput {} s.fab.d2d l v } }
def ctlOf (s : State) (k : Nat) : MemCtl := tget {} s.mem.ctls k
def setCtl (s : State) (k : Nat) (v : MemCtl) : State := { s with mem := { s.mem with ctls := tput {} s.mem.ctls k v } }
def modCtl (s : State) (k : Nat) (f : MemCtl → MemCtl) : State := setCtl s k (f (ctlOf s k))
def domOf (s : State) (d : Nat) : Domain := tget {} s.pow.domains d
def setDom (s : State) (d : Nat) (v : Domain) : State := { s with pow := { s.pow with domains := tput {} s.pow.domains d v } }
def clockOf (s : State) (c : Nat) : Clock := tget {} s.pow.clocks c
def setClock (s : State) (c : Nat) (v : Clock) : State := { s with pow := { s.pow with clocks := tput {} s.pow.clocks c v } }
def ringOf (s : State) (r : Nat) : Ring := tget {} s.regs.rings r
def setRing (s : State) (r : Nat) (v : Ring) : State := { s with regs := { s.regs with rings := tput {} s.regs.rings r v } }
def pageOf (s : State) (p : Nat) : Page := tget {} s.regs.pages p
def setPage (s : State) (p : Nat) (v : Page) : State := { s with regs := { s.regs with pages := tput {} s.regs.pages p v } }
def markOf (s : State) (w : Nat) : Watermark := tget {} s.regs.marks w
def setMark (s : State) (w : Nat) (v : Watermark) : State := { s with regs := { s.regs with marks := tput {} s.regs.marks w v } }
def monOf (s : State) (m : Nat) : Monitor := tget {} s.regs.monitors m
def setMon (s : State) (m : Nat) (v : Monitor) : State := { s with regs := { s.regs with monitors := tput {} s.regs.monitors m v } }

/-- Applies `f` for every number of a list, left to right. -/
def forAll (l : List Nat) (s : State) (f : Nat → State → State) : State := l.foldl (fun s i => f i s) s

/-- The cluster of a core, and its local number (R10). -/
def clusterNo (core : Nat) : Nat := core / 16
def localNo (core : Nat) : Nat := core % 16
/-- The cycle of the cluster clock of a core. -/
def clusterCycle (s : State) (core : Nat) : Nat := (clusterOf s (clusterNo core)).cycle
/-- A core's own cycle: bundle issue, engine, vector and tile paths count cluster cycles but for those in which port F held
the whole core (R94). -/
def cycleOf (s : State) (core : Nat) : Nat := clusterCycle s core - (coreOf s core).held
/-- The enabled clusters (R3): those of the OTP mask. -/
def enabled (s : State) (n : Nat) : Bool := n < 64 && bit s.sp.mask.toNat n

/-- A free value, and the state in which the next one is another (log entry on free values). -/
def drawFree (s : State) : BitVec 2048 × State := (Config.free s.fresh, { s with fresh := s.fresh + 1 })

/-- Life-cycle states (Table 15.1): 0 BLANK to 5 SCRAP, 7 INVALID. -/
def lcState (w : DWord) : Nat :=
  if w = 0#64 then 0 else if w = 0xFFF#64 then 1 else if w = 0xFFFFFF#64 then 2
  else if w = 0xFFFFFFFFF#64 then 3 else if w = 0xFFFFFFFFFFFF#64 then 4
  else if w = 0x0FFFFFFFFFFFFFFF#64 then 5 else 7
/-- The life-cycle word of a state (Table 15.1). -/
def lcCode (n : Nat) : DWord :=
  match n with
  | 0 => 0#64 | 1 => 0xFFF#64 | 2 => 0xFFFFFF#64 | 3 => 0xFFFFFFFFF#64 | 4 => 0xFFFFFFFFFFFF#64 | _ => 0x0FFFFFFFFFFFFFFF#64
/-- The life-cycle word once the programming under way has ended (R388). -/
def lcSettled (p : Sp) : DWord := match p.programming with | none => p.lcWord | some (t, _) => p.lcWord ||| lcCode t
/-- Outstanding work is possible: the module is powered, out of reset and not failed. -/
def live (s : State) : Bool := s.pow.state == .active && s.pow.resetDone && !s.pow.failed

/-- What the security processor answers. -/
def answerSp (s : State) (st : Status) (data : List Nat) (bytes : Bytes) : State :=
  { s with sp := { s.sp with answer := some ⟨st, data, bytes⟩ } }

/-- Counts a link-recovery exception (R403). -/
def countLinkExc (s : State) : State := { s with pow := { s.pow with linkExc := satAdd 16 s.pow.linkExc 1 } }

end Sys2Proof.Machine
end

