-- ==== Sys2Proof/Machine/Approx.lean ====
section
/-! DEFINITION. The elementary functions of Table 2.6 to some eighty bits, in fixed point with 256 fraction bits: what the error
bounds of R48 are measured against. -/

namespace Sys2Proof.Machine
open Sys2Proof

/-- Bits `k-1` to 0 of the integer square root of `n`, after the higher bits gave `r`. -/
def isqrtLoop : Nat → Nat → Nat → Nat
  | 0, _, r => r
  | k + 1, n, r => if (r + 2 ^ k) * (r + 2 ^ k) ≤ n then isqrtLoop k n (r + 2 ^ k) else isqrtLoop k n r
/-- The integer square root. -/
def isqrt (n : Nat) : Nat := isqrtLoop (Nat.log2 n / 2 + 1) n 0

/-- 1 in fixed point. -/
def fxOne : Int := 2 ^ 256
/-- ln 2. -/
def fxLn2 : Int := 0xb17217f7d1cf79abc9e3b39803f2f6af40f343267298b62d8a0d175b8baafa2b
/-- 2/√π. -/
def fxErfScale : Int := 0x120dd750429b6d11ae3a914fed7fd8688281341d7587cea2e7342b06199cc4161
/-- 2π with 400 fraction bits: enough to reduce the largest FP32 argument. -/
def twoPi400 : Int := 2 * 0x3243f6a8885a308d313198a2e03707344a4093822299f31d0082efa98ec4e6c89452821e638d01377be5466cf34e90c6cc0ac
/-- The fixed-point product. -/
def fxMul (a b : Int) : Int := a * b / fxOne
/-- A value limited to magnitudes below 2^8. -/
def fxClamp (x : Int) : Int := max (-(256 * fxOne)) (min (256 * fxOne) x)

/-- The sum of a power series, `k` terms: term `t` of index `n` contributes `give n t`, and `next n t` is the one after it. -/
def seriesSum (next give : Nat → Int → Int) : Nat → Nat → Int → Int
  | 0, _, _ => 0
  | k + 1, n, t => give n t + seriesSum next give k (n + 1) (next n t)

/-- e^r for 0 ≤ r < 1. -/
def fxExpSmall (r : Int) : Int := seriesSum (fun n t => fxMul t r / (n + 1)) (fun _ t => t) 60 0 fxOne
/-- e^x: a magnitude and its power of two. -/
def expParts (x : Int) : Nat × Int :=
  let x := fxClamp x
  let k := x / fxLn2
  ((fxExpSmall (x - k * fxLn2)).toNat, k - 256)
/-- 2^x: a magnitude and its power of two. -/
def exp2Parts (x : Int) : Nat × Int :=
  let x := fxClamp x
  let k := x / fxOne
  ((fxExpSmall (fxMul (x - k * fxOne) fxLn2)).toNat, k - 256)
/-- e^x in fixed point. -/
def fxExp (x : Int) : Int :=
  let (m, e) := expParts x
  if 0 ≤ e + 256 then m * 2 ^ (e + 256).toNat else m / 2 ^ (-(e + 256)).toNat
/-- ln (m × 2^e) for m > 0: by the inverse hyperbolic tangent of (a - 1)/(a + 1), where 1 ≤ a < 2. -/
def fxLog (m : Nat) (e : Int) : Int :=
  let l := Nat.log2 m
  let a : Int := m * 2 ^ 256 / 2 ^ l
  let y := (a - fxOne) * fxOne / (a + fxOne)
  2 * seriesSum (fun _ t => fxMul (fxMul t y) y) (fun n t => t / (2 * n + 1)) 90 0 y + (e + l) * fxLn2
/-- An angle reduced to one turn. -/
def fxTurn (x : Int) : Int := x * 2 ^ 144 % twoPi400 / 2 ^ 144
/-- sin x and cos x. -/
def fxSin (x : Int) : Int :=
  let r := fxTurn x
  seriesSum (fun n t => -(fxMul (fxMul t r) r) / ((2 * n + 2) * (2 * n + 3))) (fun _ t => t) 60 0 r
def fxCos (x : Int) : Int :=
  let r := fxTurn x
  seriesSum (fun n t => -(fxMul (fxMul t r) r) / ((2 * n + 1) * (2 * n + 2))) (fun _ t => t) 60 0 fxOne
/-- An odd function from its values on non-negative arguments. -/
def fxOdd (f : Int → Int) (x : Int) : Int := if x < 0 then -(f (-x)) else f x
/-- tanh x for x ≥ 0. -/
def fxTanhPos (x : Int) : Int :=
  if 64 * fxOne < x then fxOne
  else
    let e := fxExp (2 * x)
    (e - fxOne) * fxOne / (e + fxOne)
/-- 1/(1 + e^-x). -/
def fxSigmoid (x : Int) : Int :=
  if 0 ≤ x then fxOne * fxOne / (fxOne + fxExp (-x))
  else
    let e := fxExp x
    e * fxOne / (fxOne + e)
/-- erf x for x ≥ 0. -/
def fxErfPos (x : Int) : Int :=
  if 6 * fxOne < x then fxOne
  else fxMul fxErfScale (seriesSum (fun n t => -(fxMul (fxMul t x) x) / (n + 1)) (fun n t => t / (2 * n + 1)) 220 0 x)

/-- A fixed-point value as sign, magnitude and power of two. -/
def fxParts (x : Int) : Bool × Nat × Int := (decide (x < 0), x.natAbs, -256)
/-- A function of Table 2.6 at the value (-1)^neg × m × 2^e of an FP32 code inside its domain. -/
def approx (t : Config.Trans) (neg : Bool) (m : Nat) (e : Int) : Bool × Nat × Int :=
  let x : Int := (if neg then -1 else 1) * (m * 2 ^ (e + 256).toNat : Nat)
  match t with
  | .exp => (false, expParts x)
  | .exp2 => (false, exp2Parts x)
  | .log => fxParts (fxLog m e)
  | .log2 => fxParts (fxLog m e * fxOne / fxLn2)
  | .rsqrt => (false, isqrt (2 ^ (512 - e).toNat / m), -256)
  | .sin => fxParts (fxSin x)
  | .cos => fxParts (fxCos x)
  | .tanh => fxParts (fxOdd fxTanhPos x)
  | .sigmoid => fxParts (fxSigmoid x)
  | .erf => fxParts (fxOdd fxErfPos x)
  | .silu => fxParts (fxMul x (fxSigmoid x))

/-- The bound of Table 2.6, in units in the last place. -/
def ulpBound : Config.Trans → Nat
  | .exp => 1 | .exp2 => 1 | .log => 1 | .log2 => 1 | .rsqrt => 1
  | .sin => 2 | .cos => 2 | .tanh => 2 | .sigmoid => 2 | .erf => 2 | .silu => 3

end Sys2Proof.Machine
end

