-- ==== Sys2Proof/Machine/Fp.lean ====
section
/-! DEFINITION. The arithmetic of chapter 02: element formats, exact values, rounding, the block-dot contract, output
conversion, Philox, and the FP32 and BF16 operations of the vector unit. Codes are numbers below 2^width; every finite
value is held exactly as sign, magnitude and a power of two, and each operation rounds once. -/

namespace Sys2Proof.Machine
open Sys2Proof

/-- An element format of Table 2.1 by its code of Table 5.1: width, exponent and mantissa bits, bias, precision p, emin
and emax; `ints` marks the two's complement formats. -/
structure Fmt where
  width : Nat
  eb    : Nat
  mb    : Nat
  bias  : Int
  p     : Nat
  emin  : Int
  emax  : Int
  ints  : Bool
  deriving DecidableEq, Repr, Inhabited

/-- Table 2.1 by the codes of Table 5.1; 0xA and the reserved codes have the row of FP32 (no rule converts them). -/
def fmtInfo (code : Nat) : Fmt :=
  match code with
  | 1 => ⟨16, 8, 7, 127, 8, -126, 127, false⟩
  | 2 => ⟨16, 5, 10, 15, 11, -14, 15, false⟩
  | 3 => ⟨8, 4, 3, 7, 4, -6, 8, false⟩
  | 4 => ⟨8, 5, 2, 15, 3, -14, 15, false⟩
  | 5 => ⟨6, 2, 3, 1, 4, 0, 2, false⟩
  | 6 => ⟨6, 3, 2, 3, 3, -2, 4, false⟩
  | 7 => ⟨4, 2, 1, 1, 2, 0, 2, false⟩
  | 8 => ⟨8, 0, 7, 0, 8, 7, 7, true⟩
  | 9 => ⟨4, 0, 3, 0, 4, 3, 3, true⟩
  | _ => ⟨32, 8, 23, 127, 24, -126, 127, false⟩

/-- Bits of an element (Table 5.1). -/
def fmtBits (code : Nat) : Nat := (fmtInfo code).width
/-- A format code that Table 5.1 names (0xB to 0xF are reserved). -/
def fmtNamed (code : Nat) : Bool := code ≤ 0xA
/-- A format that may carry block scales (Table 5.1). -/
def fmtScalable (code : Nat) : Bool := 3 ≤ code && code ≤ 9
/-- An engine operand format (R24): every format of Table 2.1 but FP32. -/
def fmtEngine (code : Nat) : Bool := 1 ≤ code && code ≤ 9
/-- Digits per product of a stationary format (Table 3.1). -/
def fmtDigits (code : Nat) : Nat :=
  match code with
  | 7 => 1 | 1 => 4 | 8 => 4 | 2 => 6 | _ => 2

/-- What a code stands for: an exact finite value (-1)^neg × mag × 2^exp, an infinity or a NaN. -/
inductive Fv where
  | fin (neg : Bool) (mag : Nat) (exp : Int)
  | inf (neg : Bool)
  | nan
  deriving DecidableEq, Repr, Inhabited

/-- A code of a two's complement format as sign and magnitude. -/
def intParts (w code : Nat) : Bool × Nat :=
  if code / 2 ^ (w - 1) % 2 = 1 then (true, 2 ^ w - code % 2 ^ w) else (false, code % 2 ^ w)

/-- Non-finite codes of Table 2.2: 1 infinity, 2 NaN, 0 finite. -/
def nonFiniteKind (code v : Nat) : Nat :=
  let f := fmtInfo code
  let e := v / 2 ^ f.mb % 2 ^ f.eb
  let m := v % 2 ^ f.mb
  match code with
  | 3 => if v % 128 = 127 then 2 else 0
  | 5 | 6 | 7 | 8 | 9 => 0
  | _ => if e = 2 ^ f.eb - 1 then (if m = 0 then 1 else 2) else 0

/-- Sign, significand integer M and element exponent e of a finite element (R25, R26). -/
def elemParts (code v : Nat) : Bool × Nat × Int :=
  let f := fmtInfo code
  if f.ints then let (s, m) := intParts f.width v; (s, m, (f.p : Int) - 1)
  else
    let e := v / 2 ^ f.mb % 2 ^ f.eb
    let m := v % 2 ^ f.mb
    let s := v / 2 ^ (f.width - 1) % 2 == 1
    if e = 0 then (s, m, f.emin) else (s, 2 ^ (f.p - 1) + m, (e : Int) - f.bias)

/-- Decodes an element (R20, R21, R25, R26). -/
def decodeElem (code v : Nat) : Fv :=
  match nonFiniteKind code v with
  | 1 => .inf (v / 2 ^ ((fmtInfo code).width - 1) % 2 == 1)
  | 2 => .nan
  | _ => let (s, m, e) := elemParts code v; .fin s m (e - ((fmtInfo code).p - 1))

/-- An FP32 code as a value. -/
def fp32 (v : Nat) : Fv := decodeElem 0 v
/-- A BF16 code as a value. -/
def bf16 (v : Nat) : Fv := decodeElem 1 v

/-! ## Rounding -/

/-- The magnitude shifted right by `k`, rounded to nearest, ties to even. -/
def rneShift (mag k : Nat) : Nat :=
  let q := mag / 2 ^ k
  let r := mag % 2 ^ k
  if k = 0 then mag
  else if r * 2 > 2 ^ k then q + 1
  else if r * 2 < 2 ^ k then q
  else q + q % 2

/-- `mag × 2^exp` as a multiple of `2^q`, rounded to nearest even. -/
def rneTo (mag : Nat) (exp q : Int) : Nat :=
  if q ≤ exp then mag * 2 ^ (exp - q).toNat else rneShift mag (q - exp).toNat

/-- The exponent of the last place of a value of magnitude `mag × 2^exp` in a format. -/
def quantum (f : Fmt) (mag : Nat) (exp : Int) : Int :=
  max ((Nat.log2 mag : Int) + exp) f.emin - ((f.p : Int) - 1)

/-- The canonical NaN of a format (Table 2.2). -/
def canonNan (code : Nat) : Nat :=
  match code with
  | 3 => 0x7F | 4 => 0x7E | 1 => 0x7FC0 | 2 => 0x7E00 | 0 => 0x7FC00000 | _ => 0

/-- The sign bit of a floating-point format. -/
def signBit (code : Nat) (neg : Bool) : Nat := if neg then 2 ^ ((fmtInfo code).width - 1) else 0
/-- The largest finite magnitude code of a format (Table 2.1). -/
def maxFinite (code : Nat) : Nat :=
  match code with
  | 0 => 0x7F7FFFFF | 1 => 0x7F7F | 2 => 0x7BFF | 3 => 0x7E | 4 => 0x7B | 5 => 0x1F | 6 => 0x1F | 7 => 0x7 | 8 => 127 | _ => 7
/-- The infinity of a format that has one. -/
def infCode (code : Nat) (neg : Bool) : Nat :=
  signBit code neg + (match code with | 0 => 0x7F800000 | 1 => 0x7F80 | 2 => 0x7C00 | 4 => 0x7C | _ => maxFinite code)

/-- Code of the magnitude `n × 2^q` where `q` is the quantum of the format there; `none` above the largest finite value. -/
def encodeMag (code n : Nat) (q : Int) : Option Nat :=
  let f := fmtInfo code
  let (n, q) := if n = 2 ^ f.p then (2 ^ (f.p - 1), q + 1) else (n, q)
  let c := if n < 2 ^ (f.p - 1) then n
    else ((q + ((f.p : Int) - 1) + f.bias).toNat) * 2 ^ f.mb + (n - 2 ^ (f.p - 1))
  if c ≤ maxFinite code then some c else none

/-- What a finite overflow gives (Table 2.4): infinity in FP32, BF16, FP16 and unscaled E5M2, otherwise saturation. -/
def overflowCode (code : Nat) (scaled neg : Bool) : Nat :=
  match code with
  | 0 | 1 | 2 => infCode code neg
  | 4 => if scaled then signBit 4 neg + maxFinite 4 else infCode 4 neg
  | _ => signBit code neg + maxFinite code

/-- Rounds an exact finite value to a floating-point format with RNE (R37), keeping subnormals and the sign of zero. -/
def roundRne (code : Nat) (scaled neg : Bool) (mag : Nat) (exp : Int) : Nat :=
  if mag = 0 then signBit code neg
  else
    let q := quantum (fmtInfo code) mag exp
    match encodeMag code (rneTo mag exp q) q with
    | some c => signBit code neg + c
    | none => overflowCode code scaled neg

/-- Rounds stochastically (R41): `r` is the random word. DESIGN CHOICE: an input at or above 2^(emax+1), whose fraction f would be 1
or more, always goes up (R41 gives D up to 2^32 - 1 only). -/
def roundSr (code : Nat) (scaled neg : Bool) (mag : Nat) (exp : Int) (r : Nat) : Nat :=
  if mag = 0 then signBit code neg
  else
    let f := fmtInfo code
    -- the largest finite magnitude as an exact value
    let (_, mm, me) := elemParts code (maxFinite code)
    let me := me - ((f.p : Int) - 1)
    -- compare |x| with it on a common exponent
    let lo := min exp me
    let x := mag * 2 ^ (exp - lo).toNat
    let mx := mm * 2 ^ (me - lo).toNat
    if x > mx then
      let hi := 2 ^ (f.emax + 1 - lo).toNat
      let d := (x - mx) * 2 ^ 32 / (hi - mx)
      if d + r ≥ 2 ^ 32 then overflowCode code scaled neg else signBit code neg + maxFinite code
    else
      let q := quantum f mag exp
      if q ≤ exp then
        match encodeMag code (mag * 2 ^ (exp - q).toNat) q with
        | some c => signBit code neg + c
        | none => overflowCode code scaled neg
      else
        let k := (q - exp).toNat
        let n := mag / 2 ^ k
        let d := mag % 2 ^ k * 2 ^ 32 / 2 ^ k
        let n := if mag % 2 ^ k = 0 then n else if d + r ≥ 2 ^ 32 then n + 1 else n
        match encodeMag code n q with
        | some c => signBit code neg + c
        | none => overflowCode code scaled neg

/-- Rounds an exact finite value to INT8 (Table 2.4): saturation to -128 (unscaled) or -127 (scaled) and 127. -/
def roundInt8 (scaled neg : Bool) (mag : Nat) (exp : Int) : Nat :=
  let n := rneTo mag exp 0
  if neg then (256 - min n (if scaled then 127 else 128)) % 256 else min n 127

/-- A value rounded once to FP32 with RNE. -/
def toFp32 : Fv → Nat
  | .fin s m e => roundRne 0 false s m e
  | .inf s => infCode 0 s
  | .nan => canonNan 0

/-- A value rounded once to BF16 with RNE. -/
def toBf16 : Fv → Nat
  | .fin s m e => roundRne 1 false s m e
  | .inf s => infCode 1 s
  | .nan => canonNan 1

/-! ## Exact operations (R35, R44): the result before its one rounding -/

/-- Sign of a value. -/
def Fv.neg : Fv → Bool
  | .fin s _ _ => s | .inf s => s | .nan => false
/-- Negates a value. -/
def fvNeg : Fv → Fv
  | .fin s m e => .fin (!s) m e | .inf s => .inf (!s) | .nan => .nan

/-- The sum, with the special cases of R35: an exact zero sum of opposite signs is +0. -/
def fvAdd : Fv → Fv → Fv
  | .nan, _ => .nan
  | _, .nan => .nan
  | .inf a, .inf b => if a = b then .inf a else .nan
  | .inf a, _ => .inf a
  | _, .inf b => .inf b
  | .fin a m e, .fin b n g =>
    let lo := min e g
    let x := m * 2 ^ (e - lo).toNat
    let y := n * 2 ^ (g - lo).toNat
    if a = b then .fin a (x + y) lo
    else if x = y then .fin false 0 lo
    else if x > y then .fin a (x - y) lo else .fin b (y - x) lo

/-- The product. -/
def fvMul : Fv → Fv → Fv
  | .nan, _ => .nan
  | _, .nan => .nan
  | .inf a, .inf b => .inf (a != b)
  | .inf a, .fin b n _ => if n = 0 then .nan else .inf (a != b)
  | .fin a m _, .inf b => if m = 0 then .nan else .inf (a != b)
  | .fin a m e, .fin b n g => .fin (a != b) (m * n) (e + g)

/-- The quotient to 40 significant bits with a sticky bit below them: enough for one correct rounding to 24 or 8 bits. -/
def fvDiv : Fv → Fv → Fv
  | .nan, _ => .nan
  | _, .nan => .nan
  | .inf _, .inf _ => .nan
  | .inf a, .fin b _ _ => .inf (a != b)
  | .fin a _ _, .inf b => .fin (a != b) 0 0
  | .fin a m e, .fin b n g =>
    if n = 0 then (if m = 0 then .nan else .inf (a != b))
    else if m = 0 then .fin (a != b) 0 0
    else
      let k := 40 + Nat.log2 n
      let q := m * 2 ^ k / n
      let s := if m * 2 ^ k % n = 0 then 0 else 1
      .fin (a != b) (2 * q + s) (e - g - k - 1)

/-- The square root with a sticky bit (R44). -/
def fvSqrt : Fv → Fv
  | .nan => .nan
  | .inf s => if s then .nan else .inf false
  | .fin s m e =>
    if m = 0 then .fin s 0 0
    else if s then .nan
    else
      let odd := (e % 2).toNat
      let x := m * 2 ^ (80 + odd)
      let r := isqrt x
      let st := if r * r = x then 0 else 1
      .fin false (2 * r + st) ((e - odd) / 2 - 40 - 1)

/-- `a < b` for values that are not NaN. -/
def fvLt : Fv → Fv → Bool
  | .fin a m e, .fin b n g =>
    let lo := min e g
    let x : Int := (m * 2 ^ (e - lo).toNat : Nat)
    let y : Int := (n * 2 ^ (g - lo).toNat : Nat)
    (if a then -x else x) < (if b then -y else y)
  | .inf a, .inf b => a && !b
  | .inf a, .fin _ _ _ => a
  | .fin _ _ _, .inf b => !b
  | _, _ => false

/-- Quiet equality (R45): NaN is unordered and -0 equals +0. -/
def fvEq (x y : Fv) : Bool := x != .nan && y != .nan && !fvLt x y && !fvLt y x

/-- The minimum (R45): canonical NaN, and -0 below +0. -/
def fvMin (x y : Fv) : Fv :=
  if x = .nan ∨ y = .nan then .nan
  else if fvLt x y then x else if fvLt y x then y else if x.neg then x else y
/-- The maximum (R45). -/
def fvMax (x y : Fv) : Fv :=
  if x = .nan ∨ y = .nan then .nan
  else if fvLt x y then y else if fvLt y x then x else if x.neg then y else x

/-- fp32_add_rne (R35) on codes. -/
def fp32Add (a b : Nat) : Nat := toFp32 (fvAdd (fp32 a) (fp32 b))
def fp32Sub (a b : Nat) : Nat := toFp32 (fvAdd (fp32 a) (fvNeg (fp32 b)))
def fp32Mul (a b : Nat) : Nat := toFp32 (fvMul (fp32 a) (fp32 b))
def fp32Fma (a b c : Nat) : Nat := toFp32 (fvAdd (fvMul (fp32 a) (fp32 b)) (fp32 c))
def fp32Div (a b : Nat) : Nat := toFp32 (fvDiv (fp32 a) (fp32 b))
def fp32Sqrt (a : Nat) : Nat := toFp32 (fvSqrt (fp32 a))
def fp32Lt (a b : Nat) : Bool := fvLt (fp32 a) (fp32 b)
/-- An FP32 code that is NaN or infinite. -/
def fp32NonFinite (a : Nat) : Bool := a / 2 ^ 23 % 256 = 255

/-! ## The block-dot contract (R28 to R36) -/

/-- A streamed element aligned to the block exponent: RNE(value × 2^(22 - E_x)), signed (R28). -/
def alignElem (code v : Nat) (ex : Int) : Int :=
  let (s, m, e) := elemParts code v
  let n := rneTo m (e - ((fmtInfo code).p - 1) + (22 - ex)) 0
  if s then -(n : Int) else n

/-- The block exponent: the greatest element exponent, zeros included (R28, R29). -/
def blockExp (code : Nat) (vs : List Nat) : Int :=
  match vs.map (fun v => (elemParts code v).2.2) with
  | [] => (fmtInfo code).emin
  | e :: es => es.foldl max e

/-- A block has a NaN or an infinity among its elements, or the scale 0xFF (R32). -/
def blockBad (code : Nat) (vs : List Nat) (scale : Nat) : Bool :=
  scale == 0xFF || vs.any (fun v => nonFiniteKind code v != 0)

/-- The rendered block of a streamed operand (R56): aligned integers, exponent term, non-finite flag. -/
def renderBlock (code : Nat) (vs : List Nat) (scale : Nat) (base : Int) : List Int × Int × Bool :=
  let ex := blockExp code vs
  (vs.map (fun v => alignElem code v ex), (ex - 22) + ((scale : Int) - 127) + base, blockBad code vs scale)

/-- Base-4 digits of a number, least significant first (R27). -/
def digits4 : Nat → Nat → List Nat
  | 0, _ => []
  | n + 1, v => v % 4 :: digits4 n (v / 4)
/-- The number that base-4 digits spell. -/
def digitsVal : List Nat → Nat
  | [] => 0
  | d :: ds => d + 4 * digitsVal ds

/-- The cell of one stationary element (R27, R29, R51). -/
def cellOf (code v : Nat) (ew : Int) : CellReg :=
  let (s, m, e) := elemParts code v
  let d := (ew - e).toNat
  { neg := s, digits := digits4 (fmtDigits code) m, off := if d ≤ 31 then some d else none }

/-- The column-block that the stationary loader stores (R57). -/
def loadBlock (code : Nat) (col seg : Nat) (vs : List Nat) (scale : Nat) (base : Int) : ColBlock :=
  let ew := blockExp code vs
  { col := col, seg := seg, cells := vs.map (fun v => cellOf code v ew),
    expTerm := (ew - ((fmtInfo code).p - 1) - 31) + ((scale : Int) - 127) + base, scale := scale, expBase := base,
    nonFinite := blockBad code vs scale }

/-- The block sum S (R30) of aligned integers against cells. -/
def blockSum : List Int → List CellReg → Int
  | a :: as, c :: cs =>
    (match c.off with
     | some d => let m : Int := digitsVal c.digits; a * (if c.neg then -m else m) * (2 ^ (31 - d) : Nat)
     | none => 0) + blockSum as cs
  | _, _ => 0

/-- The block value V (R31, R32) of a rendered block against a column-block. -/
def blockValue (x : List Int × Int × Bool) (w : ColBlock) : Nat :=
  if x.2.2 || w.nonFinite then canonNan 0
  else
    let s := blockSum x.1 w.cells
    if s = 0 then 0 else roundRne 0 false (decide (s < 0)) s.natAbs (x.2.1 + w.expTerm)

/-- R28 to R32 in one: the value of a block from codes, scales and exponent bases. -/
def blockDot (xc : Nat) (xs : List Nat) (sx : Nat) (bx : Int) (wc : Nat) (ws : List Nat) (sw : Nat) (bw : Int) : Nat :=
  blockValue (renderBlock xc xs sx bx) (loadBlock wc 0 0 ws sw bw)

/-- An initial accumulator (R36): FP32, or BF16 widened exactly; a NaN enters as the canonical NaN. -/
def widenInit (code v : Nat) : Nat := toFp32 (decodeElem code v)

/-! ## Output conversion (R37 to R41) -/

/-- Converts one FP32 code to an unscaled target (Table 2.4); `r` is the random word under SR. -/
def convUnscaled (code : Nat) (r : Option Nat) (v : Nat) : Nat :=
  match fp32 v with
  | .nan => if code = 8 ∨ code = 9 then 0 else canonNan code
  | .inf s =>
    match code with
    | 8 => if s then 128 else 127
    | 3 => 0x7F
    | _ => infCode code s
  | .fin s m e =>
    if code = 0 then v
    else if code = 8 then roundInt8 false s m e
    else match r with
      | none => roundRne code false s m e
      | some r => roundSr code false s m e r

/-- Largest magnitude of a block of finite FP32 codes, as its code with the sign cleared. -/
def blockMax (vs : List Nat) : Nat := vs.foldl (fun a v => max a (v % 2 ^ 31)) 0
/-- emax_T of R38; 6 for scaled INT8. -/
def emaxOf (code : Nat) : Int := if code = 8 then 6 else (fmtInfo code).emax
/-- floor(log2) of a finite non-zero FP32 code, subnormals included. -/
def fp32Log2 (v : Nat) : Int :=
  match fp32 v with
  | .fin _ m e => (Nat.log2 m : Int) + e
  | _ => 128
/-- The scale of a block of 32 FP32 inputs (R38, R40). -/
def blockScale (code : Nat) (vs : List Nat) : Nat :=
  if vs.any fp32NonFinite then 0xFF
  else
    let a := blockMax vs
    if a = 0 then 0x7F else (max 0 (min 0xFE (fp32Log2 a - emaxOf code + 127))).toNat
/-- Converts one input of a scaled block under a chosen scale (R38, R40). -/
def convScaled (code scale : Nat) (r : Option Nat) (v : Nat) : Nat :=
  if scale = 0xFF then 0
  else match fp32 v with
    | .fin s m e =>
      let e := e - ((scale : Int) - 127)
      if code = 8 then roundInt8 true s m e
      else match r with
        | none => roundRne code true s m e
        | some r => roundSr code true s m e r
    | _ => 0

/-- WIDEN (R89): the element value times its scale, rounded once to FP32. -/
def widenElem (code scale v : Nat) : Nat :=
  if scale = 0xFF then canonNan 0
  else match decodeElem code v with
    | .fin s m e => roundRne 0 false s m (e + ((scale : Int) - 127))
    | x => toFp32 x

/-- A row of Table 2.4: the pair of format and scaled bit that CVT, CVTSR and WIDEN accept (R89). -/
def convRow (code : Nat) (scaled : Bool) : Bool :=
  match code with
  | 1 | 2 => !scaled
  | 3 | 4 | 8 => true
  | 5 | 6 | 7 => scaled
  | _ => false

/-! ## Philox4x32-10 (R42, R43) -/

/-- The rounds of R42, `n` still to run. -/
def philoxRounds : Nat → List Nat → Nat → Nat → List Nat
  | 0, c, _, _ => c
  | n + 1, c, k0, k1 =>
    let p0 := 0xD2511F53 * nth c 0
    let p1 := 0xCD9E8D57 * nth c 2
    let c' := [(p1 / 2 ^ 32) ^^^ nth c 1 ^^^ k0, p1 % 2 ^ 32, (p0 / 2 ^ 32) ^^^ nth c 3 ^^^ k1, p0 % 2 ^ 32]
    philoxRounds n c' ((k0 + 0x9E3779B9) % 2 ^ 32) ((k1 + 0xBB67AE85) % 2 ^ 32)

/-- Philox4x32-10 of a counter and a key. -/
def philox (c : List Nat) (k0 k1 : Nat) : List Nat := philoxRounds 10 c k0 k1

/-- The random word of an output element (R43). -/
def srWord (seed idx : Nat) : Nat :=
  nth (philox [idx % 2 ^ 32, idx / 2 ^ 32 % 2 ^ 32, 0, 0xFFFFFFFF] (seed % 2 ^ 32) (seed / 2 ^ 32 % 2 ^ 32)) 0

/-! ## Transcendentals (R48 to R50): the exact special values of Table 2.6, otherwise a free function of the bits -/

/-- FP32 code of an integer. -/
def fp32OfInt (i : Int) : Nat := roundRne 0 false (decide (i < 0)) i.natAbs 0
/-- The integer an FP32 code stands for, if it is one. -/
def fp32IsInt (v : Nat) : Option Int :=
  match fp32 v with
  | .fin s m e =>
    if e ≥ 0 then some (if s then -((m * 2 ^ e.toNat : Nat) : Int) else ((m * 2 ^ e.toNat : Nat) : Int))
    else if m % 2 ^ (-e).toNat = 0 then let k : Int := (m / 2 ^ (-e).toNat : Nat); some (if s then -k else k)
    else none
  | _ => none
/-- The power k with v = 2^k, if there is one. -/
def fp32IsPow2 (v : Nat) : Option Int :=
  match fp32 v with
  | .fin false m e => if m ≠ 0 ∧ m = 2 ^ Nat.log2 m then some ((Nat.log2 m : Int) + e) else none
  | _ => none

/-- An FP32 code lies within `b` units in the last place (of the exact result, R48) of a value. -/
def withinUlp (b : Nat) (neg : Bool) (m : Nat) (e : Int) (c : Nat) : Bool :=
  match fp32 c with
  | .fin n k g =>
    let q := quantum (fmtInfo 0) m e
    let lo := min (min e g) q
    let x : Int := (if neg then -1 else 1) * (m * 2 ^ (e - lo).toNat : Nat)
    let y : Int := (if n then -1 else 1) * (k * 2 ^ (g - lo).toNat : Nat)
    decide ((x - y).natAbs ≤ b * 2 ^ (q - lo).toNat)
  | _ => false
/-- The bits that version 1 of the reference model gives, where Table 2.6 does not fix them (R48 to R50): any that keep the bound
of Table 2.6, which the free value picks; where it picks others, the nearest. An infinity outside the table's special inputs has no
bound. -/
def refModel (t : Config.Trans) (v : Nat) : Nat :=
  let c := (Config.transcendental t (BitVec.ofNat 32 v)).toNat
  match fp32 v with
  | .fin n m e =>
    let (n, m, e) := approx t n m e
    if withinUlp (ulpBound t) n m e c then c else roundRne 0 false n m e
  | _ => c

/-- One transcendental (Table 2.6) on an FP32 code. -/
def trans (t : Config.Trans) (v : Nat) : Nat :=
  match fp32 v with
  | .nan => canonNan 0
  | x =>
    let zero := v % 2 ^ 31 = 0
    let pinf := x = Fv.inf false
    let minf := x = Fv.inf true
    let negative := fvLt x (.fin false 0 0)
    match t with
    | .exp => if zero then 0x3F800000 else if minf then 0 else if pinf then 0x7F800000
        else if !x.neg && v ≥ 0x42B17218 then 0x7F800000 else refModel .exp v
    | .exp2 =>
      match fp32IsInt v with
      | some k => if -149 ≤ k ∧ k ≤ 127 then roundRne 0 false false 1 k else refModel .exp2 v
      | none => refModel .exp2 v
    | .log => if zero then 0xFF800000 else if negative then canonNan 0 else if pinf then 0x7F800000
        else if v = 0x3F800000 then 0 else refModel .log v
    | .log2 => if zero then 0xFF800000 else if negative then canonNan 0 else if pinf then 0x7F800000
        else match fp32IsPow2 v with
          | some k => fp32OfInt k
          | none => refModel .log2 v
    | .rsqrt => if zero then infCode 0 x.neg else if negative then canonNan 0 else if pinf then 0 else refModel .rsqrt v
    | .sin => if zero then v else if pinf ∨ minf then canonNan 0 else refModel .sin v
    | .cos => if zero then 0x3F800000 else if pinf ∨ minf then canonNan 0 else refModel .cos v
    | .tanh => if zero then v else if pinf then 0x3F800000 else if minf then 0xBF800000 else refModel .tanh v
    | .sigmoid => if zero then 0x3F000000 else if pinf then 0x3F800000 else if minf then 0 else refModel .sigmoid v
    | .erf => if zero then v else if pinf then 0x3F800000 else if minf then 0xBF800000 else refModel .erf v
    | .silu => if zero then v else if minf then 0x80000000 else if pinf then 0x7F800000 else refModel .silu v

/-- RECIP: correctly rounded (Table 2.6). -/
def fp32Recip (v : Nat) : Nat := fp32Div 0x3F800000 v

/-! ## Vector operations (Table 4.8) on lists of lane codes -/

/-- Lanes of a register, `w` bits each, lane 0 first. -/
def lanes (w n : Nat) (x : BitVec 2048) : List Nat := (List.range n).map (fun i => x.toNat / 2 ^ (w * i) % 2 ^ w)
/-- The number whose `w`-bit digits are the list, first least significant. -/
def packNat (w : Nat) : List Nat → Nat
  | [] => 0
  | v :: vs => v % 2 ^ w + 2 ^ w * packNat w vs
/-- A register from its lanes. -/
def packLanes (w : Nat) (l : List Nat) : BitVec 2048 := BitVec.ofNat 2048 (packNat w l)
/-- The 256 bytes of a register. -/
def regBytes (x : BitVec 2048) : Bytes := leBytes 256 x.toNat
/-- A register from 256 bytes. -/
def bytesReg (b : Bytes) : BitVec 2048 := BitVec.ofNat 2048 (leVal b)

/-- The reduction tree of R47 over lane positions, lower half ⌈n/2⌉; `fuel` bounds its depth. -/
def laneTree (f : Nat → Nat → Nat) : Nat → List Nat → Nat
  | 0, l => nth l 0
  | fuel + 1, l =>
    if l.length ≤ 1 then nth l 0
    else
      let h := (l.length + 1) / 2
      f (laneTree f fuel (l.take h)) (laneTree f fuel (l.drop h))

/-- The lane function of VA opcode `op` (0x01 to 0x18) on exact values with a rounding `rnd` of width `w`; `a`, `b`
and `d` are the lane's codes. Transcendentals and RECIP take the FP32 function first (R48). -/
def vaLane (op w : Nat) (dec : Nat → Fv) (rnd : Fv → Nat) (a b d : Nat) : Nat :=
  let all := 2 ^ w - 1
  let A := dec a
  let B := dec b
  let tr := fun t => rnd (fp32 (trans t (toFp32 A)))
  match op with
  | 0x01 => rnd (fvAdd A B)
  | 0x02 => rnd (fvAdd A (fvNeg B))
  | 0x03 => rnd (fvMul A B)
  | 0x04 => rnd (fvAdd (fvMul A B) (dec d))
  | 0x05 => rnd (fvMin A B)
  | 0x06 => rnd (fvMax A B)
  | 0x07 => if fvLt A B then all else 0
  | 0x08 => if fvLt A B || fvEq A B then all else 0
  | 0x09 => if fvEq A B then all else 0
  | 0x0A => if d ≠ 0 then a else b
  | 0x0B => rnd (fvDiv A B)
  | 0x0C => rnd (fvSqrt A)
  | 0x0D => rnd (fp32 (fp32Recip (toFp32 A)))
  | 0x0E => tr .rsqrt
  | 0x0F => tr .exp
  | 0x10 => tr .exp2
  | 0x11 => tr .log
  | 0x12 => tr .log2
  | 0x13 => tr .sin
  | 0x14 => tr .cos
  | 0x15 => tr .tanh
  | 0x16 => tr .sigmoid
  | 0x17 => tr .erf
  | _ => tr .silu

/-- Applies a lane function over three lists of lanes. -/
def zip3 (f : Nat → Nat → Nat → Nat) : List Nat → List Nat → List Nat → List Nat
  | a :: as, b :: bs, d :: ds => f a b d :: zip3 f as bs ds
  | _, _, _ => []

/-- Packs elements of `w` bits from byte 0 in order (R108): little-endian bit order covers every packing. -/
def packElems (w : Nat) (l : List Nat) : Nat := packNat w l

/-- CVT and CVTSR (R89): 64 lanes to the format, with the random words of `rs` under SR. -/
def cvtReg (code : Nat) (scaled : Bool) (rs : Option (List Nat)) (x : BitVec 2048) : BitVec 2048 :=
  let vs := lanes 32 64 x
  let r := fun (i : Nat) => rs.map (fun l => nth l i)
  let w := fmtBits code
  if scaled then
    let s0 := blockScale code (vs.take 32)
    let s1 := blockScale code (vs.drop 32)
    let es := (List.range 64).map (fun i => convScaled code (if i < 32 then s0 else s1) (r i) (nth vs i))
    BitVec.ofNat 2048 (packElems w es + (s0 + 256 * s1) * 2 ^ 1024)
  else BitVec.ofNat 2048 (packElems w ((List.range 64).map (fun i => convUnscaled code (r i) (nth vs i))))

/-- WIDEN (R89). -/
def widenReg (code : Nat) (scaled : Bool) (x : BitVec 2048) : BitVec 2048 :=
  let es := lanes (fmtBits code) 64 x
  let sc := fun (i : Nat) => if scaled then x.toNat / 2 ^ (1024 + (if i < 32 then 0 else 8)) % 256 else 0x7F
  packLanes 32 ((List.range 64).map (fun i => widenElem code (sc i) (nth es i)))

/-- Every VA operation but CVT, CVTSR, WIDEN, PHILOX and SRWORD: `op` is the opcode of Table 4.8. DESIGN CHOICE: the BF16 operations
round with RNE; R46 allows SR too, and no opcode, seed or index of Table 4.8 selects it. -/
def vaArith (op : Nat) (a b d : BitVec 2048) : BitVec 2048 :=
  if op = 0x19 then packLanes 32 [laneTree (fun x y => fp32Add x y) 6 (lanes 32 64 a)]
  else if op = 0x1A then packLanes 32 [laneTree (fun x y => toFp32 (fvMax (fp32 x) (fp32 y))) 6 (lanes 32 64 a)]
  else if op = 0x39 then packLanes 16 [laneTree (fun x y => toBf16 (fvAdd (bf16 x) (bf16 y))) 7 (lanes 16 128 a)]
  else if op = 0x3A then packLanes 16 [laneTree (fun x y => toBf16 (fvMax (bf16 x) (bf16 y))) 7 (lanes 16 128 a)]
  else if op < 0x20 then packLanes 32 (zip3 (vaLane op 32 fp32 toFp32) (lanes 32 64 a) (lanes 32 64 b) (lanes 32 64 d))
  else packLanes 16 (zip3 (vaLane (op - 0x20) 16 bf16 toBf16) (lanes 16 128 a) (lanes 16 128 b) (lanes 16 128 d))

/-- PHILOX (R90). -/
def philoxReg (a : BitVec 2048) (k0 k1 : Nat) : BitVec 2048 :=
  let l := lanes 32 64 a
  packLanes 32 ((List.range 16).flatMap (fun j => philox ((List.range 4).map (fun q => nth l (4 * j + q))) k0 k1))
/-- SRWORD (R90). -/
def srwordReg (a : BitVec 2048) (k0 k1 hi : Nat) : BitVec 2048 :=
  packLanes 32 ((lanes 32 64 a).map (fun v => nth (philox [v, hi, 0, 0xFFFFFFFF] k0 k1) 0))

end Sys2Proof.Machine
end

