-- ==== Sys2Proof/Machine/Cipher.lean ====
section
/-! DEFINITION. The modes of AES-256 that the manual cites: XTS (IEEE Std 1619, R216), CMAC (SP 800-38B, R219), GCM
(SP 800-38D, R228) and AES-KW (SP 800-38F, R337). PRESUMED: their text is taken from the standards, which the manual names and
does not print. The block cipher itself is a constant of Config without a body. -/

namespace Sys2Proof.Machine
open Sys2Proof

/-- The 128-bit block of up to 16 bytes, the first the most significant; a short string is padded with zeros. -/
def blockOf (b : Bytes) : BitVec 128 := BitVec.ofNat 128 (leVal (slice b 0 16).reverse)
/-- The 16 bytes of a block. -/
def blockBytes (x : BitVec 128) : Bytes := (leBytes 16 x.toNat).reverse
/-- A string cut into pieces of 16 bytes, the last perhaps shorter. -/
def blocksOf (b : Bytes) : List Bytes := (List.range (ceilDiv b.length 16)).map (fun i => (b.drop (16 * i)).take 16)
/-- The bytewise exclusive or of a string with a key stream. -/
def xorBytes (a k : Bytes) : Bytes := List.zipWith (· ^^^ ·) a k

/-! ## GCM -/

/-- Multiplication in GF(2^128) as GHASH defines it: `n` bits of `x` still to apply, most significant first. -/
def ghashMulLoop : Nat → BitVec 128 → BitVec 128 → BitVec 128
  | 0, _, _ => 0
  | n + 1, x, v =>
    (if x.msb then v else 0) ^^^ ghashMulLoop n (x <<< 1) (if v.getLsbD 0 then (v >>> 1) ^^^ (0xE1#128 <<< 120) else v >>> 1)
/-- GHASH under the hash key `h`. -/
def ghash (h : BitVec 128) (l : List Bytes) : BitVec 128 := l.foldl (fun y b => ghashMulLoop 128 (y ^^^ blockOf b) h) 0
/-- The big-endian bytes of a number. -/
def beBytes (n v : Nat) : Bytes := (leBytes n v).reverse
/-- The encrypted counter block `i` of a 96-bit IV. -/
def gcmPad (key : BitVec 256) (iv : Bytes) (i : Nat) : BitVec 128 := Config.aes key (blockOf (iv ++ beBytes 4 i))
/-- The key stream of `n` bytes: counters from 2 on. -/
def gcmStream (key : BitVec 256) (iv : Bytes) (n : Nat) : Bytes :=
  (List.range n).map (fun j => byteAt (blockBytes (gcmPad key iv (j / 16 + 2))) (j % 16))
/-- The tag over additional data and ciphertext. -/
def gcmTag (key : BitVec 256) (iv aad c : Bytes) : BitVec 128 :=
  ghash (Config.aes key 0) (blocksOf aad ++ blocksOf c ++ [beBytes 8 (8 * aad.length) ++ beBytes 8 (8 * c.length)]) ^^^ gcmPad key iv 1
/-- GCM encryption (R228): ciphertext of the plaintext's length, and the 16 bytes of the tag. -/
def gcm (key : BitVec 256) (iv aad plain : Bytes) : Bytes × Bytes :=
  let c := xorBytes plain (gcmStream key iv plain.length)
  (c, blockBytes (gcmTag key iv aad c))
/-- GCM decryption: none where the tag fails. -/
def gcmOpen (key : BitVec 256) (iv aad c tag : Bytes) : Option Bytes :=
  if blockBytes (gcmTag key iv aad c) = tag then some (xorBytes c (gcmStream key iv c.length)) else none

/-! ## CMAC, XTS and AES-KW -/

/-- Doubling in GF(2^128), most significant bit first (SP 800-38B). -/
def cmacDouble (x : BitVec 128) : BitVec 128 := if x.msb then (x <<< 1) ^^^ 0x87#128 else x <<< 1
/-- AES-256-CMAC (R219). -/
def cmac (key : BitVec 256) (m : Bytes) : BitVec 128 :=
  let k1 := cmacDouble (Config.aes key 0)
  let last := (m.length - 1) / 16 * 16
  let chain := (blocksOf (m.take last)).foldl (fun y b => Config.aes key (y ^^^ blockOf b)) 0
  let tail := m.drop last
  if tail.length = 16 then Config.aes key (chain ^^^ blockOf tail ^^^ k1)
  else Config.aes key (chain ^^^ blockOf (tail ++ [0x80#8]) ^^^ cmacDouble k1)

/-- The tweak of the next block: multiplication by α of a little-endian number (IEEE Std 1619). -/
def xtsNext (t : Nat) : Nat := if t < 2 ^ 127 then 2 * t else (2 * t - 2 ^ 128) ^^^ 0x87
/-- The blocks of an XTS data unit under tweak `t`. -/
def xtsBlocks (k1 : BitVec 256) : List Bytes → Nat → Bytes
  | [], _ => []
  | b :: bs, t =>
    xorBytes (blockBytes (Config.aes k1 (blockOf (xorBytes b (leBytes 16 t))))) (leBytes 16 t) ++ xtsBlocks k1 bs (xtsNext t)
/-- AES-256-XTS of a data unit of whole blocks (R216): data key, tweak key, tweak as a little-endian number, plaintext. -/
def xts (k1 k2 : BitVec 256) (tweak : BitVec 128) (plain : Bytes) : Bytes :=
  xtsBlocks k1 (blocksOf plain) (leVal (blockBytes (Config.aes k2 (blockOf (leBytes 16 tweak.toNat)))))

/-- The plaintext of an XTS data unit: `t` the tweak of its first block. -/
def xtsOpenBlocks (k1 : BitVec 256) : List Bytes → Nat → Bytes
  | [], _ => []
  | b :: bs, t =>
    xorBytes (blockBytes (Config.aesInverse k1 (blockOf (xorBytes b (leBytes 16 t))))) (leBytes 16 t) ++ xtsOpenBlocks k1 bs (xtsNext t)
/-- AES-256-XTS decryption of a data unit (R216). -/
def xtsOpen (k1 k2 : BitVec 256) (tweak : BitVec 128) (c : Bytes) : Bytes :=
  xtsOpenBlocks k1 (blocksOf c) (leVal (blockBytes (Config.aes k2 (blockOf (leBytes 16 tweak.toNat)))))

/-- The wrapped form of a 256-bit key under AES-KW (R337, R378): 40 bytes, of which A is the first eight. -/
def aesWrap (kek key : BitVec 256) : Bytes :=
  let k := leBytes 32 key.toNat
  let (a, r) := (List.range 24).foldl (fun (x : Bytes × List Bytes) t =>
    let b := blockBytes (Config.aes kek (blockOf (x.1 ++ (x.2[t % 4]?).getD [])))
    (xorBytes (b.take 8) (beBytes 8 (t + 1)), x.2.set (t % 4) (b.drop 8)))
    (List.replicate 8 0xA6#8, (List.range 4).map (fun i => slice k (8 * i) 8))
  a ++ r.flatten
/-- AES-KW unwrapping: none where the integrity check fails. -/
def aesUnwrap (kek : BitVec 256) (w : Bytes) : Option (BitVec 256) :=
  let (a, r) := (List.range 24).foldl (fun (x : Bytes × List Bytes) t =>
    let b := blockBytes (Config.aesInverse kek (blockOf (xorBytes x.1 (beBytes 8 (24 - t)) ++ (x.2[(23 - t) % 4]?).getD [])))
    (b.take 8, x.2.set ((23 - t) % 4) (b.drop 8)))
    (slice w 0 8, (List.range 4).map (fun i => slice w (8 + 8 * i) 8))
  if a = List.replicate 8 0xA6#8 then some (BitVec.ofNat 256 (leVal r.flatten)) else none

end Sys2Proof.Machine
end

