-- ==== Sys2Proof/Machine/Flags.lean ====
section
/-! DEFINITION. Flags and notices: event bits of the register pages (R447 to R449), event rings (R433 to R437), the
security processor's log (R438), watermarks (R440), health monitors (R329) and MSI-X. -/

namespace Sys2Proof.Machine
open Sys2Proof

/-- The module ring's number. -/
def moduleRing : Nat := 0x1000

/-- BAR0 page numbers (Table 19.4). -/
def pgPower : Nat := 2
def pgSched : Nat := 3
def pgHealth : Nat := 5
def pgGrout : Nat := 6
def pgTrowel : Nat := 7
def pgPort (p : Nat) : Nat := 0x20 + p
def pgCluster (n : Nat) : Nat := 0x1000 + n * 0x20
/-- The page of a memory controller: HBM stack 0 to 7, capacity controller 16 to 23. -/
def pgCtl (k : Nat) : Nat := if k < 16 then 0x800 + k / 2 * 0x40 + k % 2 else 0x10 + (k - 16)

/-- The mask bit of an MSI-X vector, bit 0 of its vector control word, set at reset (R453). -/
def msixMasked (s : State) (v : Nat) : Bool := !bit (tget 0 s.regs.msixTab (4 * v + 3)).toNat 0
/-- First word of the pending-bit array, counted from the start of the table (Table 19.4). -/
def pbaWord : Nat := 8192
/-- The pending bit of a vector. -/
def msixPending (s : State) (v : Nat) : Bool := bit (tget 0 s.regs.msixTab (pbaWord + v / 32)).toNat (v % 32)
/-- Turns the pending bit of a vector over. -/
def flipPending (s : State) (v : Nat) : State :=
  let w := pbaWord + v / 32
  { s with regs := { s.regs with msixTab := tput 0 s.regs.msixTab w (tget 0 s.regs.msixTab w ^^^ BitVec.ofNat 32 (2 ^ (v % 32))) } }
/-- Sends an MSI-X message (R453), with the address and the data of its table entry: nothing while the capability's Enable is
clear; while its vector or the function is masked, the pending bit is set in its place. -/
def sendMsix (s : State) (v : Nat) : State :=
  let word := fun i => (tget 0 s.regs.msixTab (4 * v + i)).toNat
  if !s.regs.msixOn then s
  else if s.regs.msixMask || msixMasked s v then if msixPending s v then s else flipPending s v
  else { s with regs := { s.regs with msixSent := s.regs.msixSent ++ [(v, word 0 + word 1 * 2 ^ 32, word 2)] } }

/-- Writes bytes to a host bus address. -/
def hostWrite (s : State) (a : Nat) (b : Bytes) : State :=
  { s with regs := { s.regs with hostMem := mwriteN s.regs.hostMem a b } }

/-! ## Page events (R448, R449) -/

/-- Captures the detail of an event bit: each register named is written (R449). -/
def captureInfo (p : Page) (infos : List (Nat × Nat)) : Page :=
  infos.foldl (fun p i => { p with info := tput 0 p.info i.1 (BitVec.ofNat 32 i.2) }) p

/-- One setting of event bit `b` of page `pg` (R448): the count rises, the sticky bit sets; on its first setting the
detail is captured and, if enabled, one MSI-X message is sent. -/
def pulseEvent (s : State) (pg b : Nat) (infos : List (Nat × Nat)) : State :=
  let p := pageOf s pg
  let first := !bit p.sticky.toNat b
  let p := { p with count := satAdd 32 p.count 1 }
  let q := if first then captureInfo { p with sticky := p.sticky ||| BitVec.ofNat 32 (2 ^ b) } infos else p
  let s := setPage s pg q
  if first && bit p.enable.toNat b && p.msixEn then sendMsix s p.msix else s

/-- The level of event bit `b` (R448): a rise counts and latches, a fall only lowers EVT_RAW. -/
def levelEvent (s : State) (pg b : Nat) (high : Bool) (infos : List (Nat × Nat)) : State :=
  let p := pageOf s pg
  let was := bit p.raw.toNat b
  if high && !was then
    pulseEvent (setPage s pg { p with raw := p.raw ||| BitVec.ofNat 32 (2 ^ b) }) pg b infos
  else if !high && was then setPage s pg { p with raw := p.raw ^^^ BitVec.ofNat 32 (2 ^ b) }
  else s

/-! ## The security processor's log and event rings -/

/-- Number of log entries that SP_LOG_READ has not yet returned (watermark source 12). -/
def logUnread (s : State) : Nat := (s.sp.log.filter (fun e => !e.seen)).length

/-- Enters an event, status report or refusal in the log (R438); the 16,385th overwrites the oldest. -/
def logAdd (s : State) (source code part ctx info0 info1 : Nat) : State :=
  let e : LogEntry := { seq := s.sp.logSeq, tb := s.fab.plumb.epoch, plumb := s.fab.plumb.time, source := source, code := code,
                        partition := part, context := ctx, info0 := info0, info1 := info1 }
  let l := s.sp.log ++ [e]
  { s with sp := { s.sp with log := l.drop (l.length - 16384), logSeq := s.sp.logSeq + 1 } }

/-- The 32 bytes of an event record (Table 18.4). -/
def eventBytes (s : State) (code kind : Nat) (phase crit : Bool) (ring info0 info1 : Nat) : Bytes :=
  leBytes 4 (code % 65536 + kind % 2 * 2 ^ 16 + b2n phase * 2 ^ 17 + b2n crit * 2 ^ 18)
    ++ leBytes 4 (ring % 2 ^ 13 + s.fab.plumb.epoch % 65536 * 2 ^ 16)
    ++ leBytes 8 s.fab.plumb.time ++ leBytes 8 info0 ++ leBytes 8 info1

/-- Writes a record in the ring's next slot: the tail advances, PHASE inverts on each pass, MSI-X follows (R435). A record
whose write fails on PCI Express is dropped and counted (R436). -/
def ringWriteAs (ok : Bool) (s : State) (r code kind : Nat) (crit : Bool) (info0 info1 : Nat) : State :=
  let g := ringOf s r
  let t := (g.tail + 1) % 2 ^ g.log2
  if !ok then setRing s r { g with drop := satAdd 32 g.drop 1 }
  else
    let s := hostWrite s (g.base + 32 * g.tail) (eventBytes s code kind g.phase crit r info0 info1)
    let s := setRing s r { g with tail := t, phase := if t = 0 then !g.phase else g.phase }
    if g.msixEn then sendMsix s g.msix else s
/-- Writes a record; whether PCI Express takes the write is a free value. -/
def ringWrite (s : State) (r code kind : Nat) (crit : Bool) (info0 info1 : Nat) : State :=
  ringWriteAs (Config.hostTakes s.regs.posts) { s with regs := { s.regs with posts := s.regs.posts + 1 } } r code kind crit info0 info1

/-- Unconsumed records of a ring (R437). -/
def ringUsed (g : Ring) : Nat := (g.tail + 2 ^ g.log2 - g.head) % 2 ^ g.log2

/-- Posts to one ring (R434, R437), with no watermark yet. -/
def ringPost (s : State) (r code kind : Nat) (crit : Bool) (info0 info1 : Nat) : State :=
  let g := ringOf s r
  let dropped := { g with drop := satAdd 32 g.drop 1 }
  if !g.en then setRing s r dropped
  else if g.ovf then setRing s r { dropped with lost := g.lost + 1 }
  else if ringUsed g + 2 < 2 ^ g.log2 then ringWrite s r code kind crit info0 info1
  else ringWrite (setRing s r { dropped with ovf := true, lost := 1 }) r 0x000B 0 false 0 code

/-! ## Watermarks (R440) -/

/-- Largest level of a source (Table 18.5). -/
def markMax (w : Nat) : Nat :=
  nth [65535, 512, 65536, 4096, 4096, 65536, 1024, 256, 1024, 1024, 64, 16384, 16384] w

/-- Moves source `w` to a level; tells whether a notice is due: an upward crossing that found HIT clear. -/
def markMove (s : State) (w lvl : Nat) : State × Bool :=
  let m := markOf s w
  let lvl := min lvl (markMax w)
  let crossed := m.thresh != 0 && m.level < m.thresh && m.thresh ≤ lvl
  (setMark s w { m with level := lvl, count := if crossed then satAdd 16 m.count 1 else m.count, hit := m.hit || crossed },
   crossed && !m.hit)

/-- The level of watermark source 0 follows the module ring. -/
def followRing (s : State) (r : Nat) : State :=
  if r = moduleRing then
    let (s, due) := markMove s 0 (ringUsed (ringOf s moduleRing))
    if due then
      let s := ringPost s moduleRing 0x0005 0 false 0 (ringUsed (ringOf s moduleRing))
      (markMove s 0 (ringUsed (ringOf s moduleRing))).1
    else s
  else s

/-- Posts a record to a ring; the level of the module ring's watermark moves with it. -/
def postRecord (s : State) (r code kind : Nat) (crit : Bool) (info0 info1 : Nat) : State :=
  followRing (ringPost s r code kind crit info0 info1) r

/-- Moves a watermark source and posts WATERMARK to the module ring when due. -/
def setLevel (s : State) (w lvl : Nat) : State :=
  let (s, due) := markMove s w lvl
  if due then postRecord s moduleRing 0x0005 0 false w lvl else s

/-- Enters a record in the log and moves watermark source 12. -/
def logIt (s : State) (source code part ctx info0 info1 : Nat) : State :=
  let s := logAdd s source code part ctx info0 info1
  setLevel s 12 (logUnread s)

/-- An event of Table 18.2 to a list of rings; a critical one is also logged, whatever the state of any ring (R433). -/
def postEvent (s : State) (rings : List Nat) (code : Nat) (crit : Bool) (part info0 info1 : Nat) : State :=
  let s := rings.foldl (fun s r => postRecord s r code 0 crit info0 info1) s
  if crit then logIt s 0 code part 0 info0 info1 else s

/-- Rings of every context that exists. -/
def allContexts (s : State) : List Nat := (s.contexts.filter (fun p => p.2.live)).map (·.1)
/-- Rings of the contexts of a partition. -/
def contextsOf (s : State) (part : Nat) : List Nat :=
  (s.contexts.filter (fun p => p.2.live && p.2.partition == part)).map (·.1)
/-- Rings of the contexts bound to a session. -/
def contextsOfSession (s : State) (ses : Nat) : List Nat :=
  (s.contexts.filter (fun p => p.2.live && p.2.session == ses)).map (·.1)

/-! ## Health monitors (R329, R463) -/

/-- Default thresholds of Table 13.1. -/
def monDefault (m : Nat) : Nat := nth [1000, 100, 1, 4, 1, 1, 16, 1, 10, 1, 1] m
/-- The window of a monitor in ns (Table 13.1). -/
def monWindow (m : Nat) : Nat :=
  if m = 6 ∨ m = 8 ∨ m = 10 then 60 * 1000000000 else 3600 * 1000000000
/-- The threshold in force. -/
def monThresh (s : State) (m : Nat) : Nat := (monOf s m).thresh.getD (monDefault m)

/-- Counts one event of a monitor; at its threshold it posts CHECKPOINT_ADVISED once in the window. -/
def countMonitor (s : State) (m : Nat) : State :=
  let v := monOf s m
  let c := satAdd 32 v.count 1
  let due := monThresh s m != 0 && monThresh s m ≤ c && !v.posted
  let s := setMon s m { v with count := c, posted := v.posted || due }
  if due then pulseEvent (postEvent s (allContexts s) 0x0001 false 0 m c) pgHealth m [] else s

end Sys2Proof.Machine
end

