-- ==== Sys2Proof/Machine/Crypto.lean ====
section
/-! DEFINITION. Keys and the wire forms of chapter 09: DRBG draws, key slots, inline key contexts, generations and
write budgets, the start of a sanding pass, and the byte layouts that the ciphers take (tweak, tag input, IVs, the
Reed-Solomon check symbols). -/

namespace Sys2Proof.Machine
open Sys2Proof

/-! ## Entropy (R351 to R353) -/

/-- The DRBG can supply random bits. -/
def drbgOk (s : State) : Bool := s.sp.drbgReady && s.sp.entropyOk && !s.sp.stopped

/-- One DRBG output of up to 384 bits: a fresh free value each time (R353). -/
def draw (s : State) : BitVec 384 × State :=
  (Config.random s.sp.draws, { s with sp := { s.sp with draws := s.sp.draws + 1, generates := s.sp.generates + 1 } })

/-! ## Key slots (R357 to R361) -/

/-- The key a slot holds: the XOR of its shares. -/
def slotKey (v : Slot) : BitVec 256 := v.share1 ^^^ v.share2

/-- Loads a slot: SGEN rises, the key is held as two shares under a fresh mask. Every request that loads a slot needs the DRBG
(R351); where a membership record brings a key while the random service is stopped, no bit is drawn and the slot's share stays
its mask (DESIGN CHOICE: R352 keeps keys usable and says nothing of masks). -/
def loadSlot (s : State) (slot cls : Nat) (key : BitVec 256) (part ses owner expiry limit : Nat) : State :=
  let v := slotOf s slot
  let (m, s) : BitVec 256 × State := if drbgOk s then ((draw s).1.truncate 256, (draw s).2) else (v.share1, s)
  setSlot s slot { v with cls := cls, state := .loaded, share1 := m, share2 := m ^^^ key, sgen := v.sgen + 1,
                          partition := part, session := ses, owner := owner, expiry := expiry, uses := 0, limit := limit,
                          pins := 0, bound := 0 }

/-- Empties a slot, zeroized; SGEN is kept, so that a generation never returns. -/
def emptySlot (s : State) (slot : Nat) : State := setSlot s slot { sgen := (slotOf s slot).sgen }

/-- The slot that the security processor allocates: from 0xD7 downward, skipping occupied ones (R357). -/
def freeSlot (s : State) : Option Nat :=
  ((List.range 0xD8).reverse).find? (fun i => (slotOf s i).state == .empty)

/-- A use of a slot starts (R358, R359, R361): the failure that refuses it, or the state with USES counted. -/
def useSlot (s : State) (slot cls ses : Nat) : Status × State :=
  let v := slotOf s slot
  if v.state = .erasing then (.keyRevoked, s)
  else if v.state ≠ .loaded ∨ v.cls ≠ cls ∨ v.session ≠ ses then (.policyDenied, s)
  else if v.limit ≤ v.uses then (.keyExhausted, s)
  else (.ok, setSlot s slot { v with uses := v.uses + 1 })

/-- A bound use of a slot ends; the last one lets an erasure finish (R360). -/
def endUse (s : State) (slot : Nat) : State :=
  let v := slotOf s slot
  let v := { v with bound := v.bound - 1 }
  if v.state = .erasing ∧ v.bound = 0 then emptySlot s slot else setSlot s slot v

/-- A key context stops naming a slot (R213). -/
def unpin (s : State) (slot : Nat) : State := modSlot s slot (fun v => { v with pins := v.pins - 1 })
/-- A key context names a slot (R213). -/
def pin (s : State) (slot : Nat) : State := modSlot s slot (fun v => { v with pins := v.pins + 1 })

/-! ## Inline key contexts (R211 to R227) -/

/-- A memory class (Table 9.2). -/
def memClass (k : KeyCtx) : Bool := k.cls == 0 || k.cls == 1
/-- The largest write count of a generation (R222). -/
def writeBudget : Nat := 2 ^ 44

/-- The key context serves a memory request (R212, R213): OK, POLICY_DENIED or KEY_REVOKED. Key index 0 is the module's
own (R155) and always serves. A context bound to another session than the key's slots is refused (R358). A request bound before
an IMMEDIATE erase of its key context carries its index plus 256. -/
def memKeyCheck (s : State) (ctx key : Nat) : Status :=
  if key = 0 then .ok
  else if 256 ≤ key then .keyRevoked
  else match (keyOf s key).state with
    | .free => .policyDenied
    | .zeroizing => .policyDenied
    | _ => if memClass (keyOf s key) && (decide (4096 ≤ ctx) || (ctxOf s ctx).session == (keyOf s key).session) then .ok else .policyDenied

/-- A memory key context that a command of a context may name: in its partition and of its session (R172). -/
def commandKeyOk (s : State) (ctx key : Nat) : Bool :=
  let c := ctxOf s ctx
  let k := keyOf s key
  key != 0 && k.state != .free && memClass k && k.partition == c.partition && k.session == c.session

/-- Activation with a key in a slot (R214): GEN rises, counts and counters restart. -/
def activateKey (s : State) (key cls part ses role slot : Nat) : State :=
  let k := keyOf s key
  let s := setKey s key { state := .active, cls := cls, partition := part, session := ses, role := role, slotCur := slot,
                          gen := k.gen + 1, sandAt := 0xC0000000000 }
  pin s slot

/-- Zeroization (R227): GEN rises, the pinned slots are erased, the context is FREE. -/
def zeroizeKey (s : State) (key : Nat) : State :=
  let k := keyOf s key
  if k.state = .free then s
  else
    let s := emptySlot s k.slotCur
    let s := if k.state = .sanding then emptySlot s k.slotOld else s
    -- the roll count of a Lath index and its session stay on record, so that no derived key is used twice (R228, R375)
    setKey s key (if k.cls = 2 then { gen := k.gen + 1, roll := k.roll, session := k.session } else { gen := k.gen + 1 })

/-- Starts a sanding pass (R223, R224 step 1); a missing slot or a DRBG that is not ready defers it, and the deferral
is logged as a refusal. -/
def startSanding (s : State) (key : Nat) : State :=
  let k := keyOf s key
  match freeSlot s with
  | none => logIt (setKey s key { k with deferred := some s.ns }) 2 (statusCode .busy) k.partition 0 key 0
  | some slot =>
    if !drbgOk s then logIt (setKey s key { k with deferred := some s.ns }) 2 (statusCode .entropyNotReady) k.partition 0 key 0
    else
      let (r, s) := draw s
      let s := loadSlot s slot 0 (r.truncate 256) k.partition k.session 0 1 (2 ^ 48 - 1)
      let s := pin s slot
      setKey s key { k with state := .sanding, slotOld := k.slotCur, slotCur := slot, gen := k.gen + 1, wOld := k.wCur,
                            wCur := 0, sweep := [], bad := 0, deferred := none }

/-! ## Wire forms -/

/-- The 128-bit XTS tweak (Table 9.3). -/
def xtsTweak (addr key gen : Nat) : BitVec 128 :=
  BitVec.ofNat 128 (addr / 64 % 2 ^ 42 + key % 256 * 2 ^ 48 + gen % 2 ^ 32 * 2 ^ 56)

/-- The tag input Mtag (Table 9.4); `cap` tells the capacity tier. -/
def mtag (cipher : Bytes) (addr key gen : Nat) (cap : Bool) : Bytes :=
  slice cipher 0 64 ++ leBytes 6 (addr / 64) ++ leBytes 1 key ++ leBytes 1 (b2n cap) ++ leBytes 4 gen ++ leBytes 4 0

/-- The ASCII bytes of a label. -/
def ascii (l : List Char) : Bytes := l.map (fun c => BitVec.ofNat 8 c.toNat)
/-- The derivation of a 32-byte key (Table 14.3): label and further info. -/
def deriveKey (ikm : Bytes) (label : List Char) (info : Bytes) : BitVec 256 :=
  (Config.hkdf ikm (ascii label ++ info)).truncate 256
/-- Bytes of a 256-bit key. -/
def keyBytes (k : BitVec 256) : Bytes := leBytes 32 k.toNat

/-- The order of the P-384 group (FIPS 186-5; PRESUMED, the manual cites it). -/
def p384Order : Nat :=
  0xFFFFFFFFFFFFFFFFFFFFFFFFFFFFFFFFFFFFFFFFFFFFFFFFC7634D81F4372DDF581A0DB248B0A77AECEC196ACCC52973
/-- The root secret of an OTP bank: its 256-bit secret field (R354). -/
def secretBytes (bank : BitVec 264) : Bytes := leBytes 32 (bank.toNat % 2 ^ 256)
/-- The ECDSA identity scalar: 56 bytes of derivation, big-endian, mod (n - 1) + 1 (R355, R356). -/
def ecdsaScalar (bank : BitVec 264) : Nat :=
  leVal (leBytes 56 (Config.hkdf (secretBytes bank) (ascii ['Z','E','L','-','I','D','-','E','C','D','S','A'])).toNat).reverse % (p384Order - 1) + 1
/-- The ML-DSA identity seed ξ (R355). -/
def mldsaSeed (bank : BitVec 264) : Bytes :=
  keyBytes (deriveKey (secretBytes bank) ['Z','E','L','-','I','D','-','M','L','D','S','A'] [])
/-- The identity digest: SHA-384 of the two public keys, 97 and 2,592 bytes (R356). -/
def identityOf (bank : BitVec 264) : Digest :=
  Config.sha384 (Config.ecdsaPublic (ecdsaScalar bank) ++ Config.mldsaPublic (mldsaSeed bank))

/-- K1, K2 and KT of a generation (R215). -/
def lineKeys (slot : BitVec 256) (key gen : Nat) : BitVec 256 × BitVec 256 × BitVec 256 :=
  let info := leBytes 1 key ++ leBytes 4 gen
  (deriveKey (keyBytes slot) ['Z','E','L','-','X','T','S','-','K','1'] info,
   deriveKey (keyBytes slot) ['Z','E','L','-','X','T','S','-','K','2'] info,
   deriveKey (keyBytes slot) ['Z','E','L','-','T','A','G','-','K','T'] info)

/-- The ciphertext and the 28-bit TAG that a line write stores (R216, R219). -/
def sealLine (slot : BitVec 256) (addr key gen : Nat) (cap : Bool) (plain : Bytes) : Bytes × Nat :=
  let (k1, k2, kt) := lineKeys slot key gen
  let c := xts k1 k2 (xtsTweak addr key gen) plain
  (c, leVal (blockBytes (cmac kt (mtag c addr key gen cap))) % 2 ^ 28)

/-- The 28-bit TAG of a ciphertext, recomputed (R219, R220). -/
def tagOf (slot : BitVec 256) (addr key gen : Nat) (cap : Bool) (cipher : Bytes) : Nat :=
  leVal (blockBytes (cmac (lineKeys slot key gen).2.2 (mtag cipher addr key gen cap))) % 2 ^ 28
/-- The plaintext to which a ciphertext decrypts under a key index and generation (R216). -/
def openLine (slot : BitVec 256) (addr key gen : Nat) (cipher : Bytes) : Bytes :=
  xtsOpen (lineKeys slot key gen).1 (lineKeys slot key gen).2.1 (xtsTweak addr key gen) cipher

/-- The key from which a line's keys derive: the slot of the generation that the key context assigns to it (R215, R224). -/
def rootKey (s : State) (key gen : Nat) : BitVec 256 :=
  let k := keyOf s key
  if key = 0 then Config.moduleKey
  else slotKey (slotOf s (if gen = k.gen then k.slotCur else k.slotOld))

/-- Multiplication in GF(2^8) with x^8 + x^4 + x^3 + x^2 + 1 (R189): `n` bits of the second factor still to apply. -/
def gfMulLoop : Nat → Nat → Nat → Nat
  | 0, _, _ => 0
  | n + 1, a, b =>
    (if b % 2 = 1 then a else 0) ^^^ gfMulLoop n (if a ≥ 128 then (2 * a) ^^^ 0x11D else 2 * a) (b / 2)
/-- The product of two field elements. -/
def gfMul (a b : Nat) : Nat := gfMulLoop 8 a b
/-- The generator polynomial's coefficients below x^4: roots α^0 to α^3 with α = 2, low degree last. -/
def rsGen : List Nat :=
  let mulRoot := fun (p : List Nat) (r : Nat) => ((p ++ [0]).zip (0 :: p)).map (fun (x : Nat × Nat) => x.1 ^^^ gfMul x.2 r)
  ([1, 2, 4, 8].foldl mulRoot [1]).drop 1
/-- The four check symbols of a systematic codeword (R189). DESIGN CHOICE: symbol 0 is the coefficient of the highest degree; R189
gives the layout and the roots and does not say at which end of the polynomial the first symbol stands (log entry 50). -/
def rsCheck (syms : List Nat) : List Nat :=
  syms.foldl (fun reg v =>
    let f := v ^^^ nth reg 0
    (((reg.drop 1) ++ [0]).zip rsGen).map (fun (x : Nat × Nat) => x.1 ^^^ gfMul f x.2)) [0, 0, 0, 0]

/-- The power of α = 2 of an exponent. -/
def gfAlpha : Nat → Nat
  | 0 => 1
  | k + 1 => gfMul 2 (gfAlpha k)
/-- The four syndromes that wrong symbols leave in a codeword of `n` symbols: its values at α^0 to α^3 (R189). The stored
codeword itself contributes nothing to them. -/
def rsSyndromes (n : Nat) (errs : List (Nat × Nat)) : List Nat :=
  (List.range 4).map (fun j => errs.foldl (fun x e => x ^^^ gfMul e.2 (gfAlpha (j * (n - 1 - e.1) % 255))) 0)
/-- The place among `n` symbols at which one wrong symbol explains four syndromes; `x` is the locator of symbol `n - 1`. -/
def rsFind (syn : List Nat) : Nat → Nat → Option Nat
  | 0, _ => none
  | n + 1, x =>
    if nth syn 1 = gfMul (nth syn 0) x ∧ nth syn 2 = gfMul (nth syn 1) x ∧ nth syn 3 = gfMul (nth syn 2) x then some n
    else rsFind syn n (gfMul x 2)
/-- The decoder of a codeword of `n` symbols (R189): it corrects any one wrong symbol and detects any two; what it takes for a
codeword that was not the one written is `altered`. -/
def rsDecode (n : Nat) (errs : List (Nat × Nat)) : Decoded :=
  let syn := rsSyndromes n errs
  if syn.all (· == 0) then (if errs.isEmpty then .clean else .altered)
  else if nth syn 0 = 0 then .manySymbols
  else match rsFind syn n 1 with
    | none => .manySymbols
    | some i => if errs = [(i, nth syn 0)] then .oneSymbol else .altered
/-- The wrong symbols of a raw read with a number from `lo` up to `hi`, counted from `lo`, each once. -/
def wrongSymbols (raw : RawRead) (lo hi : Nat) : List (Nat × Nat) :=
  (raw.filter (fun e => decide (lo ≤ e.1) && decide (e.1 < hi))).foldl
    (fun t e => tput 0 t (e.1 - lo) (tget 0 t (e.1 - lo) ^^^ e.2 % 256)) []
/-- The wrong symbols of a codeword of `n` symbols that stand after the decoder's correction. -/
def rsLeft (n : Nat) (errs : List (Nat × Nat)) : List (Nat × Nat) :=
  let syn := rsSyndromes n errs
  if nth syn 0 = 0 then errs
  else match rsFind syn n 1 with
    | none => errs
    | some i => tput 0 errs i (tget 0 errs i ^^^ nth syn 0)
/-- What the decoder makes of the metadata line alone that stands beside a capacity line (R190), or of an HBM line (R189): the
patrol scrub looks no further (R195). -/
def decodeMeta (cap : Bool) (raw : RawRead) : Decoded :=
  if cap then rsDecode 64 (wrongSymbols raw 0 64) else rsDecode 72 (wrongSymbols raw 0 72)
/-- The decoder changes a symbol of the codeword. -/
def fixesSymbol (cap : Bool) (raw : RawRead) : Bool :=
  let n := if cap then 64 else 72
  let syn := rsSyndromes n (wrongSymbols raw 0 n)
  nth syn 0 != 0 && (rsFind syn n 1).isSome
/-- What the decoder makes of a raw read of a line, of the capacity tier (`cap`) or of HBM (R189 to R191). -/
def decodeRaw (cap : Bool) (raw : RawRead) : Decoded :=
  if cap then
    match rsDecode 64 (wrongSymbols raw 0 64) with
    | .manySymbols => .manySymbols
    | d => if (wrongSymbols raw 64 128).isEmpty then d else .altered
  else rsDecode 72 (wrongSymbols raw 0 72)

/-- The 64 metadata bits of an HBM line (Table 8.2). -/
def hbmMeta (cipher : Bytes) (tag : Nat) (poison : Bool) (gen : Nat) : Nat :=
  let hi := tag % 2 ^ 28 + b2n poison * 2 ^ 28 + gen % 4 * 2 ^ 30
  let syms := (slice cipher 0 64).map (·.toNat) ++ (leBytes 4 hi).map (·.toNat)
  leVal ((rsCheck syms).map (fun v => BitVec.ofNat 8 v)) + hi * 2 ^ 32

/-- A slot's 4-byte entry of a capacity metadata line (R190). -/
def capEntry (tag : Nat) (poison : Bool) (gen : Nat) : Nat := tag % 2 ^ 28 + b2n poison * 2 ^ 28 + gen % 4 * 2 ^ 30
/-- A capacity metadata line: fifteen entries and four check symbols (R190). -/
def capMetaLine (entries : List Nat) : Bytes :=
  let b := (List.range 15).flatMap (fun i => leBytes 4 (nth entries i))
  b ++ (rsCheck (b.map (·.toNat))).map (fun v => BitVec.ofNat 8 v)

/-- One bit of the CRC-32 of IEEE 802.3, reflected. -/
def crcBit (c : Nat) : Nat := if c % 2 = 1 then c / 2 ^^^ 0xEDB88320 else c / 2
/-- The CRC-32 of a byte string (IEEE 802.3; R238). -/
def crc32 (b : Bytes) : Nat :=
  b.foldl (fun c x => (List.range 8).foldl (fun c _ => crcBit c) (c ^^^ x.toNat)) 0xFFFFFFFF ^^^ 0xFFFFFFFF

/-- IV of a host bounce buffer (R173): direction 0 host to device, 1 device to host. -/
def bounceIv (queue dir seq : Nat) : Bytes := leBytes 2 (queue % 2 ^ 14 + dir % 2 * 2 ^ 15) ++ leBytes 2 0 ++ leBytes 8 seq
/-- IV of a die-to-die frame (Table 9.6). -/
def d2dIv (link dir phase ctr : Nat) : Bytes := leBytes 1 link ++ leBytes 1 (dir % 2 + phase % 2 * 2) ++ leBytes 2 0 ++ leBytes 8 ctr
/-- The 32-byte header of a Lath packet (Table 10.4), as a sender of this module makes it: reserved bits 0. -/
def packetHeader (p : Packet) : Bytes :=
  leBytes 4 (p.version % 16 + p.op % 32 * 2 ^ 4 + p.vc % 8 * 2 ^ 9 + b2n p.ordered * 2 ^ 12 + b2n p.arrive * 2 ^ 13 + p.dir % 2 * 2 ^ 14
      + p.srcNode % 2 ^ 16 * 2 ^ 16)
    ++ leBytes 4 (p.dstNode % 2 ^ 16 + p.keyIdx % 256 * 2 ^ 16 + b2n p.sched * 2 ^ 24 + p.asub % 8 * 2 ^ 25)
    ++ leBytes 4 p.epoch ++ leBytes 4 p.offset
    ++ leBytes 4 (p.offset / 2 ^ 32 % 16 + p.window % 4096 * 2 ^ 4 + p.len % 2 ^ 13 * 2 ^ 16)
    ++ leBytes 8 p.ctr ++ leBytes 4 (p.flowSeq % 2 ^ 16 + p.xid % 2 ^ 16 * 2 ^ 16)
/-- IV of a Lath packet (Table 9.7). -/
def lathIv (node key dir ctr : Nat) : Bytes := leBytes 2 node ++ leBytes 1 key ++ leBytes 1 (dir % 2) ++ leBytes 8 ctr

end Sys2Proof.Machine
end

