-- ==== Sys2Proof/Machine/Memory.lean ====
section
/-! DEFINITION. Device memory (chapter 08) with its inline encryption (chapter 09) as a reader sees it: where a byte sits,
translation, line reads and writes with their outcomes, the Primer, and accesses through virtual addresses. The model
keeps each line's plaintext beside what is stored of it: ciphertext, TAG, POISON, and the key index and full generation it was
written under. -/

namespace Sys2Proof.Machine
open Sys2Proof

/-! ## Where a byte sits (R182 to R187) -/

/-- First canonical address of the capacity tier. -/
def capBase : Nat := 0x010000000000
/-- Bytes of HBM (384 GiB). -/
def hbmBytes : Nat := 0x006000000000
/-- Usable bytes of the capacity tier (960 GiB). -/
def capBytes : Nat := 0x00F000000000
/-- First address of the reserved region (R155). -/
def reservedBase : Nat := 0x005FC0000000

/-- The capacity tier holds the canonical address. -/
def isCap (a : Nat) : Bool := capBase ≤ a && a < capBase + capBytes
/-- The reserved region holds the canonical address. -/
def isReserved (a : Nat) : Bool := reservedBase ≤ a && a < hbmBytes
/-- A canonical address of either tier. -/
def isMem (a : Nat) : Bool := a < hbmBytes || isCap a

/-- hbm_locate (R184): stack and die-local offset of an interleaved offset. -/
def hbmLocate (a : Nat) : Nat × Nat :=
  let g := a / 2 ^ 30
  let c := a / 2 ^ 12 % 2 ^ 18
  let s := (c ^^^ c / 2 ^ 3 ^^^ c / 2 ^ 6 ^^^ c / 2 ^ 9 ^^^ c / 2 ^ 12 ^^^ c / 2 ^ 15 ^^^ g) % 8
  (s, g * 2 ^ 28 + s % 2 * 2 ^ 27 + c / 8 * 2 ^ 12 + a % 2 ^ 12)

/-- The inverse of hbm_locate (R184): canonical offset of die-local offset `l` of die `d`. -/
def hbmCanon (d l : Nat) : Nat :=
  let g := l / 2 ^ 28
  let s := 2 * d + l / 2 ^ 27 % 2
  let r := l / 2 ^ 12 % 2 ^ 15
  let c := r * 8 + (s ^^^ r ^^^ r / 2 ^ 3 ^^^ r / 2 ^ 6 ^^^ r / 2 ^ 9 ^^^ r / 2 ^ 12 ^^^ g) % 8
  g * 2 ^ 30 + c * 2 ^ 12 + l % 2 ^ 12

/-- cap_locate (R187): controller, controller-local data line, raw data line and raw metadata line. -/
def capLocate (u : Nat) : Nat × Nat × Nat × Nat :=
  let q := u / 2 ^ 12
  let k := (List.range 10).foldl (fun k i => k ^^^ q / 2 ^ (3 * i) % 8) 0
  let n := q / 8 * 64 + u / 64 % 64
  (k, n, 16 * (n / 15) + n % 15, 16 * (n / 15) + 15)

/-- Usable offset of the data line `n` of capacity controller `k` (the inverse of cap_locate). -/
def capCanon (k n : Nat) : Nat :=
  let h := n / 64
  let f := (List.range 9).foldl (fun x i => x ^^^ h / 2 ^ (3 * i) % 8) 0
  (h * 8 + (k ^^^ f) % 8) * 2 ^ 12 + n % 64 * 64

/-- Die and offset of an address of a die-local view (Table 8.1). -/
def dieLocal (pa : Nat) : Option (Nat × Nat) :=
  if 0x008000000000 ≤ pa ∧ pa < 0x010000000000 then
    let d := (pa - 0x008000000000) / 0x002000000000
    let l := pa % 0x002000000000
    if l < 0x1800000000 then some (d, l) else none
  else none

/-- The canonical address of a device physical address (R183). -/
def canon (pa : Nat) : Option Nat :=
  if isMem pa then some pa
  else match dieLocal pa with
    | some (d, l) => some (hbmCanon d l)
    | none => none

/-- Controller of a canonical address: HBM stack 0 to 7, capacity controller 16 to 23. -/
def ctlNo (a : Nat) : Nat := if isCap a then 16 + (capLocate (a - capBase)).1 else (hbmLocate a).1
/-- Its index among SWEEP0-SWEEP15. -/
def sweepNo (ctl : Nat) : Nat := if ctl < 16 then ctl else ctl - 8
/-- Controller-local index of a line (R224 step 2). -/
def localLine (a : Nat) : Nat :=
  if isCap a then (capLocate (a - capBase)).2.1
  else let l := (hbmLocate a).2; (l / 2 ^ 28 * 2 ^ 27 + l % 2 ^ 27) / 64
/-- Canonical address of the line of a controller-local index. -/
def lineAt (ctl n : Nat) : Nat :=
  if ctl < 16 then hbmCanon (ctl / 2) ((n * 64) / 2 ^ 27 * 2 ^ 28 + ctl % 2 * 2 ^ 27 + n * 64 % 2 ^ 27)
  else capBase + capCanon (ctl - 16) n
/-- Number of lines of a controller. -/
def ctlLines (ctl : Nat) : Nat := if ctl < 16 then 48 * 2 ^ 30 / 64 else 2013265920

/-- Granule of a canonical address (R205): die × 2^21 + die-local granule, or 2^23 + capacity granule. -/
def granOf (a : Nat) : Nat :=
  if isCap a then 2 ^ 23 + (a - capBase) / 2 ^ 16
  else let (s, l) := hbmLocate a; s / 2 * 2 ^ 21 + l / 2 ^ 16
/-- Canonical addresses of the 1,024 lines of a granule. -/
def granLines (g : Nat) : List Nat :=
  if g < 2 ^ 23 then (List.range 1024).map (fun i => hbmCanon (g / 2 ^ 21) (g % 2 ^ 21 * 2 ^ 16 + 64 * i))
  else (List.range 1024).map (fun i => capBase + (g - 2 ^ 23) * 2 ^ 16 + 64 * i)
/-- Granules behind the range of `n` bytes at a canonical address: 512 KiB blocks give eight in the interleaved view. -/
def rangeGrans (a n : Nat) : List Nat :=
  if isCap a then (List.range (ceilDiv n (2 ^ 16))).map (fun i => granOf (a + i * 2 ^ 16))
  else (List.range (ceilDiv n (2 ^ 12))).foldl (fun l i => let g := granOf (a + i * 2 ^ 12); if l.contains g then l else g :: l) []

/-- First address of a line. -/
def lineBase (a : Nat) : Nat := a / 64 * 64

/-- 64 zero bytes. -/
def zeroLine : Bytes := List.replicate 64 0

/-! ## Generations and budgets -/

/-- The generation that a key context assigns to a line now (R217, R224 step 2). -/
def assignedGen (s : State) (key a : Nat) : Nat :=
  let k := keyOf s key
  if k.state = .sanding then
    if localLine a < tget 0 k.sweep (sweepNo (ctlNo a)) then k.gen else k.gen - 1
  else k.gen

/-- Metadata of a line: listed, or as its granule's zero-fill left it. -/
def lineInfo (s : State) (a : Nat) : Line :=
  match tlook s.mem.lines a with
  | some l => l
  | none =>
    let g := (tlook s.mem.granules (granOf a)).getD ⟨0, 0, false, [], 0, 0⟩
    let w := sealLine g.root a g.key g.gen (isCap a) zeroLine
    ⟨g.key, g.gen, false, w.1, w.2⟩

/-- What a write of a line under a key index and generation stores (R193, R216, R217, R219). -/
def sealedLine (s : State) (key gen a : Nat) (plain : Bytes) : Line :=
  let w := sealLine (rootKey s key gen) a key gen (isCap a) plain
  ⟨key, gen, false, w.1, w.2⟩

/-- Adds `cur` and `old` line writes to a key context's counts (R221) and starts a sanding pass at SAND_AT. -/
def addWrites (s : State) (key cur old : Nat) : State :=
  if key = 0 then s
  else
    let k := keyOf s key
    let s := setKey s key { k with wCur := k.wCur + cur, wOld := k.wOld + old }
    if k.state = .active ∧ k.wCur < k.sandAt ∧ k.sandAt ≤ k.wCur + cur then startSanding s key else s

/-- A write of `cur` and `old` lines stays within both budgets (R222). -/
def budgetOk (s : State) (key cur old : Nat) : Bool :=
  key == 0 || ((keyOf s key).wCur + cur ≤ writeBudget && (keyOf s key).wOld + old ≤ writeBudget)

/-- Sets the dirty bit of a granule (R330). -/
def setDirty (s : State) (g : Nat) : State := { s with mem := { s.mem with clean := s.mem.clean.filter (· != g) } }

/-- Primes a granule (R205 to R207): every byte, line and map entry becomes unreachable; PRIME also sets the dirty bit. -/
def primeGranule (s : State) (g : Nat) : State :=
  { s with mem := { s.mem with
      granules := tdel s.mem.granules g
      lines := s.mem.lines.filter (fun p => granOf p.1 != g)
      bytes := s.mem.bytes.filter (fun p => granOf p.1 != g)
      ptes := s.mem.ptes.filter (fun p => granOf p.1 != g)
      clean := s.mem.clean.filter (· != g) } }

/-- A granule is primed: it has no entry in the granule key map. The reserved region is never primed. -/
def isPrimed (s : State) (a : Nat) : Bool := !isReserved a && (tlook s.mem.granules (granOf a)).isNone

/-- The lines of a granule that a zero-fill under `key` writes under the current generation (the others take GEN - 1). -/
def fillCur (s : State) (key g : Nat) : List Nat :=
  if (keyOf s key).state = .sanding then (granLines g).filter (fun a => assignedGen s key a == (keyOf s key).gen)
  else granLines g

/-- Reserves the budget of a zero-fill and its triggering write (R208): the state with both counted, or none. -/
def reserveFill (s : State) (key a : Nat) : Option State :=
  let cur := (fillCur s key (granOf a)).length
  let old := 1024 - cur
  let w := if assignedGen s key a = (keyOf s key).gen then 1 else 0
  if budgetOk s key (cur + w) (old + (1 - w)) then some (addWrites s key (cur + w) (old + (1 - w))) else none

/-- The granule after its zero-fill under `key` (R208, R218): every line, whatever it held, is the encryption of zeros under the
generation that the key context assigns to it now. -/
def fillGranule (s : State) (key g : Nat) : State :=
  let k := keyOf s key
  let cur := fillCur s key g
  let base := if cur.length = 1024 then k.gen else k.gen - 1
  let blank := s.mem.lines.filter (fun p => granOf p.1 != g)
  let lines := if cur.length = 1024 then blank
    else cur.foldl (fun t a => tins t a (sealedLine s key k.gen a zeroLine)) blank
  setDirty { s with mem := { s.mem with granules := tins s.mem.granules g ⟨key, base, false, [], rootKey s key base, 0⟩, lines := lines } } g

/-! ## Line reads (R191, R192) -/

/-- Changes the counters of the controller of a line. -/
def modCtlAt (s : State) (a : Nat) (f : MemCtl → MemCtl) : State := modCtl s (ctlNo a) f

/-- Counts memory-maintenance exceptions (R403, Table 16.4). -/
def countMemExc (s : State) (n : Nat) : State := { s with pow := { s.pow with memExc := satAdd 16 s.pow.memExc n } }
/-- Counts a granule zero-fill at the controller of the line that triggered it (R208, R460). -/
def countFill (s : State) (a : Nat) : State := modCtlAt s a (fun c => { c with zeroFills := satAdd 32 c.zeroFills 1 })

/-- The POISON_SET event of a line (Table 19.9a): cause, address, key index and context. -/
def poisonEvent (s : State) (a cause key ctx : Nat) : State :=
  pulseEvent s (pgCtl (ctlNo a)) 1
    [(0, cause), (1, a % 2 ^ 32), (2, a / 2 ^ 32 % 65536), (3, key % 256 + (if ctx < 4096 then ctx else 0) * 2 ^ 16)]

/-- Poisons one line that is not yet poisoned: written back, counted, monitor 2. -/
def poisonLine (s : State) (a : Nat) : State :=
  let s := { s with mem := { s.mem with lines := tins s.mem.lines a { lineInfo s a with poison := true } } }
  countMonitor (modCtlAt s a (fun c => { c with poisonSet := satAdd 32 c.poisonSet 1 })) 2

/-- The data lines of the group of a capacity line (R187): those that share its metadata line. -/
def groupLines (a : Nat) : List Nat :=
  let (k, n, _) := capLocate (a - capBase)
  (List.range 15).map (fun i => capBase + capCanon k (n / 15 * 15 + i))

/-- The newly poisoned outcome of rows 3 and 4 of Table 8.3: `row3` tells which; `cause` is the cause code. Each line newly
poisoned raises POISON_SET (Table 19.9a). -/
def failLine (s : State) (a key ctx cause : Nat) (row3 : Bool) : State :=
  let s := modCtlAt s a (fun c => if row3 then { c with uncorr := satAdd 32 c.uncorr 1 } else { c with tagFail := satAdd 32 c.tagFail 1 })
  let s := pulseEvent s (pgCtl (ctlNo a)) (if row3 then 3 else 2) []
  let s := if row3 && isCap a then
      (groupLines a).foldl (fun s b => if (lineInfo s b).poison then s else poisonEvent (poisonLine s b) b cause key ctx) s
    else poisonEvent (poisonLine s a) a cause key ctx
  s

/-- Row 5 of Table 8.3: one symbol corrected and written back. -/
def correctLine (s : State) (a : Nat) : State :=
  let s := modCtlAt s a (fun c => { c with corr := satAdd 32 c.corr 1 })
  let s := pulseEvent s (pgCtl (ctlNo a)) 0 [(4, a % 2 ^ 32), (5, a / 2 ^ 32 % 65536)]
  if isCap a then s else countMonitor s 0

/-- A line's stored bits pass the tag check of a request: the GEN field is that of the generation assigned to the line (R217), and
the TAG recomputed over the ciphertext under the request's key has the 28 bits stored (R220). -/
def tagHolds (s : State) (a key : Nat) (l : Line) : Bool :=
  let gen := assignedGen s key a
  l.gen % 4 == gen % 4 && tagOf (rootKey s key gen) a key gen (isCap a) l.cipher == l.tag % 2 ^ 28
/-- The line as it was last written passes its tag under this request. Under the key index and full generation that wrote it the TAG
recomputed is the TAG stored (R219), so nothing is computed there; under another it passes only where the 28 bits meet (R220). -/
def tagPasses (s : State) (a key : Nat) : Bool :=
  let l := lineInfo s a
  (l.key == key && l.gen == assignedGen s key a) || tagHolds s a key l

/-- The byte string that wrong symbols make of a stored one: the symbols from `lo` on are its bytes. -/
def spoil (b : Bytes) (lo : Nat) (errs : List (Nat × Nat)) : Bytes :=
  (List.range b.length).map (fun i => byteAt b i ^^^ BitVec.ofNat 8 (tget 0 errs (lo + i)))
/-- A line as a raw read delivers it behind the decoder: the wrong symbols that the decoder does not correct stand in its ciphertext
and its metadata (R189 to R191). -/
def seenLine (s : State) (a : Nat) (raw : RawRead) : Line :=
  let l := lineInfo s a
  let cap := isCap a
  let left := if cap then rsLeft 64 (wrongSymbols raw 0 64) else rsLeft 72 (wrongSymbols raw 0 72)
  let at' := if cap then 4 * ((capLocate (a - capBase)).2.1 % 15) else 64
  let m := leVal (spoil (leBytes 4 (capEntry l.tag l.poison l.gen)) at' left)
  { key := l.key, gen := l.gen / 4 * 4 + bits m 31 30, poison := bit m 28, tag := bits m 27 0,
    cipher := if cap then spoil l.cipher 0 (wrongSymbols raw 64 128) else spoil l.cipher 0 left }
/-- POISON as a raw read delivers it; where the codeword cannot be decoded it is the stored bit. -/
def seenPoison (s : State) (a : Nat) (raw : RawRead) : Bool :=
  if decodeRaw (isCap a) raw = .altered then (seenLine s a raw).poison else (lineInfo s a).poison
/-- The tag check of a raw read (R220): of the line as written where the decoder gives it back, else of what it gives. -/
def rawPasses (s : State) (a key : Nat) (raw : RawRead) : Bool :=
  if decodeRaw (isCap a) raw = .altered then tagHolds s a key (seenLine s a raw) else tagPasses s a key

/-- The metadata that stands beside a line: the 64 bits of an HBM line with their CHECK (Table 8.2), or the metadata line that a
capacity line shares with its group (R190). -/
def lineMeta (s : State) (a : Nat) : Bytes :=
  if isCap a then
    capMetaLine ((groupLines a).map (fun b => let l := lineInfo s b; capEntry l.tag l.poison l.gen))
  else let l := lineInfo s a; leBytes 8 (hbmMeta l.cipher l.tag l.poison l.gen)

/-- The plaintext of a line. -/
def lineBytes (s : State) (a : Nat) : Bytes := mreadN s.mem.bytes a 64

/-- A line passed its tag check: its bytes go to the requester, and a corrected codeword is written back (rows 5 and 6 of Table
8.3). Bits that are not those written (a chance of 2^-28, R220) decrypt under the request's key. -/
def passLine (s : State) (a key : Nat) (raw : RawRead) : Status × Bytes × State :=
  let l := lineInfo s a
  let gen := assignedGen s key a
  if decodeRaw (isCap a) raw = .altered || !(l.key == key && l.gen == gen) then
    let v := if decodeRaw (isCap a) raw = .altered then seenLine s a raw else l
    let back := fun (s : State) => correctLine { s with mem := { s.mem with
      lines := tins s.mem.lines a v
      bytes := mwriteN s.mem.bytes a (leBytes 64 (leVal (openLine (rootKey s l.key l.gen) a l.key l.gen v.cipher))) } } a
    (.ok, openLine (rootKey s key gen) a key gen v.cipher, if fixesSymbol (isCap a) raw then back s else s)
  else (.ok, lineBytes s a, if decodeRaw (isCap a) raw = .oneSymbol then correctLine s a else s)

/-- A read of the line at canonical address `a` under `key` for context `ctx` (R192), the reserved region apart. `force` is
the cause that a merge (6) or a sanding pass (7) records; `raw1` and `raw2` are what the raw reads found. -/
def readLine (s : State) (ctx key a : Nat) (force : Option Nat) (raw1 raw2 : RawRead) : Status × Bytes × State :=
  let (r1, r2) := (decodeRaw (isCap a) raw1, decodeRaw (isCap a) raw2)
  let st := memKeyCheck s ctx key
  if st ≠ .ok then (st, zeroLine, s)
  else if isPrimed s a then (.ok, zeroLine, s)
  else if seenPoison s a raw1 then
    (.tagMismatch, zeroLine, poisonEvent (modCtlAt s a (fun c => { c with poisonRead := satAdd 32 c.poisonRead 1 })) a 1 key ctx)
  else
    let cause := fun (c : Nat) => force.getD c
    let tagCause := if (lineInfo s a).gen % 4 = assignedGen s key a % 4 then 4 else 5
    if isCap a then
      -- a failing first read is repeated once (R191)
      if r1 = .manySymbols then (.tagMismatch, zeroLine, failLine s a key ctx (cause 3) true)
      else if rawPasses s a key raw1 then passLine s a key raw1
      else
        let s := countMemExc s 1
        if r2 = .manySymbols then (.tagMismatch, zeroLine, failLine s a key ctx (cause 3) true)
        else if rawPasses s a key raw2 then
          passLine (countMonitor (modCtlAt s a (fun c => { c with reread := satAdd 32 c.reread 1 })) 1) a key raw2
        else (.tagMismatch, zeroLine, failLine s a key ctx (cause tagCause) false)
    else
      if r1 = .manySymbols then (.tagMismatch, zeroLine, failLine s a key ctx (cause 2) true)
      else if rawPasses s a key raw1 then passLine s a key raw1
      else (.tagMismatch, zeroLine, failLine s a key ctx (cause tagCause) false)

/-! ## Line writes (R193, R208, R218, R222) -/

/-- Overlays the bits of `data` selected by `mask` on old bits. -/
def overlay (old mask data : Nat) : Nat := (old &&& (mask ^^^ (2 ^ 512 - 1))) ||| (data &&& mask)
/-- A mask that selects every bit of a line. -/
def fullMask : Nat := 2 ^ 512 - 1

/-- The write of a line's bits at canonical address `a` when its granule is not primed; `paid` marks a write that is counted
already, with the zero-fill that it started. -/
def storeLine (s : State) (ctx key a mask data : Nat) (paid : Bool) (r1 r2 : RawRead) : Status × State :=
  let gen := assignedGen s key a
  let cur := if gen = (keyOf s key).gen then 1 else 0
  if !isReserved a && ((tlook s.mem.granules (granOf a)).map (·.key) != some key) then (.policyDenied, s)
  else if !paid && !budgetOk s key cur (1 - cur) then (.keyExhausted, s)
  else
    let put := fun (s : State) (v : Nat) =>
      let s := { s with mem := { s.mem with bytes := mwriteN s.mem.bytes a (leBytes 64 v)
                                            lines := tins s.mem.lines a (sealedLine s key gen a (leBytes 64 v)) } }
      (Status.ok, setDirty (if paid then s else addWrites s key cur (1 - cur)) (granOf a))
    if mask = fullMask then put s data
    else
      match readLine s ctx key a (some 6) r1 r2 with
      | (.ok, old, s) => put s (overlay (leVal old) mask data)
      | (_, _, s) => (.tagMismatch, s)

/-- The bits of a line, from the line address `la` on, that a write of `data` at `va` covers, and their values. -/
def lineMask (va : Nat) (data : Bytes) (la : Nat) : Nat × Nat :=
  (List.range 64).foldl (fun (p : Nat × Nat) i =>
    if va ≤ la + i ∧ la + i < va + data.length then
      (p.1 + 255 * 2 ^ (8 * i), p.2 + (byteAt data (la + i - va)).toNat * 2 ^ (8 * i))
    else p) (0, 0)

/-- What the last access delivered. -/
def setAnswer (s : State) (st : Status) (b : Bytes) : State := { s with mem := { s.mem with answer := some (st, b) } }
/-- The line read of a request (R192). -/
def landRead (s : State) (r : MemReq) (r1 r2 : RawRead) : State :=
  let (st, b, s) := readLine s r.ctx r.key (lineBase r.addr) none r1 r2
  setAnswer s st (slice b (r.addr % 64) r.len)
/-- The line write of a request whose granule is not primed (R193). -/
def landWrite (s : State) (r : MemReq) (data : Bytes) (paid : Bool) (r1 r2 : RawRead) : State :=
  let st := memKeyCheck s r.ctx r.key
  if st ≠ .ok then setAnswer s st []
  else if (keyOf s r.key).cls = 1 then setAnswer s .policyDenied []
  else
    let (mask, v) := lineMask r.addr (data.take r.len) (lineBase r.addr)
    let (st, s) := storeLine s r.ctx r.key (lineBase r.addr) mask v paid r1 r2
    setAnswer s st []
/-- An access that waited for a zero-fill proceeds: one without data is a read. -/
def landHeld (paid : Bool) (s : State) (q : HeldMem) : State :=
  if q.data.isEmpty then landRead s q.req q.first q.second else landWrite s q.req q.data paid q.first q.second
/-- A zero-fill in progress ends: the granule is filled and its bit cleared, and what waits for it proceeds in arrival order,
first the write that started it (R208, R209). -/
def finishFill (s : State) (g : Nat) : State :=
  match tlook s.mem.granules g with
  | none => s
  | some e =>
    if !e.filling then s
    else
      let s := countFill (fillGranule s e.key g) e.trigger
      match e.waiting with
      | [] => s
      | q :: rest => rest.foldl (landHeld false) (landHeld true s q)

/-- A whole write of a line's bits by a unit of the module, zero-fill included (R208): `measured` marks a measured load (R174).
A zero-fill that runs ends first. -/
def writeLine (s : State) (ctx key a mask data : Nat) (measured : Bool) (r1 r2 : RawRead) : Status × State :=
  let st := memKeyCheck s ctx key
  if st ≠ .ok then (st, s)
  else if (keyOf s key).cls = 1 && key != 0 && !measured then (.policyDenied, s)
  else
    let s := finishFill s (granOf a)
    if isPrimed s a then
      match reserveFill s key a with
      | none => (.keyExhausted, s)
      | some s => storeLine (countFill (fillGranule s key (granOf a)) a) ctx key a mask data true r1 r2
    else storeLine s ctx key a mask data false r1 r2

/-! ## Lines of the module's own tables (R155, R199) -/

/-- The plaintext of a line of a page table. -/
def tableLine (s : State) (a : Nat) : Bytes := (List.range 8).flatMap (fun i => leBytes 8 (tget 0 s.mem.ptes (a + 8 * i)).toNat)
/-- A line of a table in a context's memory is written under key index 0 (R199): the granule comes out of the primed state under
that index where it is not yet there, and its dirty bit is set (R330). DESIGN CHOICE (log entry 47): a granule that is out of the
primed state under another key index is primed first, so that its zero-fill is that of index 0; R199 does not say what becomes of
the lines that stood there. -/
def writeOwnLine (s : State) (a : Nat) (plain : Bytes) : State :=
  let g := granOf a
  let s := if (tlook s.mem.granules g).map (·.key) = some 0 then s else fillGranule (primeGranule s g) 0 g
  setDirty { s with mem := { s.mem with lines := tins s.mem.lines a (sealedLine s 0 (assignedGen s 0 a) a plain) } } g
/-- Writes one page-table entry, 0 to clear it. -/
def writePte (s : State) (ea e : Nat) : State :=
  let s := writeOwnLine s (lineBase ea) zeroLine
  let s := { s with mem := { s.mem with ptes := tput 0 s.mem.ptes ea (BitVec.ofNat 64 e) } }
  writeOwnLine s (lineBase ea) (tableLine s (lineBase ea))
/-- Zero-fills a table of 4 KiB (R203). -/
def zeroTable (s : State) (table : Nat) : State :=
  let s := { s with mem := { s.mem with ptes := s.mem.ptes.filter (fun p => decide (p.1 < table) || decide (table + 4096 ≤ p.1)) } }
  (List.range 64).foldl (fun s i => writeOwnLine s (table + 64 * i) zeroLine) s

/-! ## Translation (R197 to R202) -/

/-- Kinds of access (R200 step 2). -/
inductive Acc where
  | read | write | fetch
  deriving DecidableEq, Repr, Inhabited

/-- The table entry at an address as its line reads under key index 0: none where the line fails R192 (R200 step 1). -/
def pteAt (s : State) (ea : Nat) : Option Nat :=
  let a := lineBase ea
  if isPrimed s a then some 0
  else if (lineInfo s a).poison || !tagPasses s a 0 then none
  else some (tget 0 s.mem.ptes ea).toNat

/-- The agent number of the hub's units; clusters are agents 0 to 63. -/
def hubAgent : Nat := 68
/-- Translation caches on an agent's path, nearest first: its cluster, its compute die (64 to 67), the hub (R202). -/
def cachesOf (agent : Nat) : List Nat := if agent < 64 then [agent, 64 + agent / 16, hubAgent] else [hubAgent]
/-- Entries that a translation cache holds. -/
def cacheRoom (n : Nat) : Nat := if n < 64 then 64 else if n < 68 then 4096 else 8192
/-- A cache holds the entry at an address for a context. -/
def cachedAt (s : State) (n ctx ea : Nat) : Bool := (tget [] s.mem.tlb n).contains (ctx, ea)
/-- A cache on an agent's path holds it. -/
def cachedFor (s : State) (agent ctx ea : Nat) : Bool := (cachesOf agent).any (fun n => cachedAt s n ctx ea)
/-- The table entry that a translation of an agent uses: cached, or as its line reads. -/
def pteFor (s : State) (agent ctx ea : Nat) : Option Nat :=
  if cachedFor s agent ctx ea then some (tget 0 s.mem.ptes ea).toNat else pteAt s ea

/-- Index of a virtual address in the table of a level (Table 8.5): 3 root to 0. -/
def vaIndex (lvl va : Nat) : Nat :=
  match lvl with
  | 3 => bits va 47 39
  | 2 => bits va 38 30
  | 1 => bits va 29 21
  | _ => bits va 20 16
/-- Bytes that a leaf of a level maps. -/
def leafBytes (lvl : Nat) : Nat := match lvl with | 2 => 2 ^ 30 | 1 => 2 ^ 21 | _ => 2 ^ 16

/-- Well-formedness of a valid entry at a level (R198, R200 step 1). -/
def pteOk (lvl e : Nat) : Bool :=
  bit e 0 && bits e 11 5 == 0 && bits e 63 56 == 0 && (if lvl = 3 then !bit e 1 else if lvl = 0 then bit e 1 else true)

/-- Walks from a table down; answers the leaf entry, its level, and the entry addresses read, deepest first. -/
def walk (s : State) (agent ctx va : Nat) : Nat → Nat → List Nat → Option (Nat × Nat × List Nat)
  | 0, table, seen =>
    let ea := table + 8 * vaIndex 0 va
    match pteFor s agent ctx ea with
    | some e => if pteOk 0 e then some (e, 0, ea :: seen) else none
    | none => none
  | lvl + 1, table, seen =>
    let ea := table + 8 * vaIndex (lvl + 1) va
    match pteFor s agent ctx ea with
    | some e =>
      if !pteOk (lvl + 1) e then none
      else if bit e 1 then some (e, lvl + 1, ea :: seen)
      else walk s agent ctx va lvl (bits e 47 12 * 4096) (ea :: seen)
    | none => none

/-- The leaf of a virtual address in a context, as an agent's walk finds it. -/
def leafOf (s : State) (agent ctx va : Nat) : Option (Nat × Nat × List Nat) :=
  if va < 2 ^ 48 ∧ (ctxOf s ctx).live then walk s agent ctx va 3 (ctxOf s ctx).ptRoot [] else none

/-- Translation (R200): the canonical address, or the status of the first check that fails. -/
def translate (s : State) (agent ctx va key : Nat) (acc : Acc) : Status × Nat :=
  match leafOf s agent ctx va with
  | none => (.pageFault, 0)
  | some (e, lvl, _) =>
    let right := match acc with | .read => bit e 2 | .write => bit e 3 | .fetch => bit e 4
    if !right then (.pageFault, 0)
    else if bits e 55 48 ≠ key % 256 then (.policyDenied, 0)
    else
      let pa := bits e 47 12 * 4096 / leafBytes lvl * leafBytes lvl + va % leafBytes lvl
      match canon pa with
      | some a => (.ok, a)
      | none => (.pageFault, 0)

/-- Physical address of a leaf's page. -/
def leafPhys (lvl e : Nat) : Nat := bits e 47 12 * 4096 / leafBytes lvl * leafBytes lvl
/-- Granules behind `n` bytes at a physical address (R205). -/
def physGrans (pa n : Nat) : List Nat :=
  match dieLocal pa with
  | some (d, l) => (List.range (ceilDiv n (2 ^ 16))).map (fun i => d * 2 ^ 21 + l / 2 ^ 16 + i)
  | none => rangeGrans pa n
/-- Physical address of a virtual address with a right to write. -/
def physOf (s : State) (ctx va : Nat) : Option (Nat × Bool) :=
  (leafOf s hubAgent ctx va).map (fun l => (leafPhys l.2.1 l.1 + va % leafBytes l.2.1, bit l.1 3))

/-- Enters a table entry in a cache; where the cache is full, the entry that a free value picks leaves it (R202). -/
def enterCache (s : State) (n ctx ea : Nat) : State :=
  let l := tget [] s.mem.tlb n
  if l.contains (ctx, ea) then s
  else if l.length < cacheRoom n then { s with mem := { s.mem with tlb := tins s.mem.tlb n ((ctx, ea) :: l) } }
  else
    let i := (Config.free s.fresh).toNat % cacheRoom n
    { s with fresh := s.fresh + 1, mem := { s.mem with tlb := tins s.mem.tlb n ((ctx, ea) :: l.eraseIdx i) } }
/-- Removes the entries that a predicate names from every cache. -/
def dropCached (s : State) (p : Nat × Nat → Bool) : State :=
  { s with mem := { s.mem with tlb := s.mem.tlb.map (fun c => (c.1, c.2.filter (fun t => !p t))) } }
/-- Counts a miss of each die or hub cache on the path that is asked before one that holds the entry (XLAT_MISS, R464). -/
def countMisses (s : State) (agent ctx ea : Nat) : State :=
  let missed := ((cachesOf agent).takeWhile (fun n => !cachedAt s n ctx ea)).filter (fun n => decide (64 ≤ n))
  { s with mem := { s.mem with xlatMiss := missed.foldl (fun t n => tput 0 t n (satAdd 32 (tget 0 t n) 1)) s.mem.xlatMiss } }
/-- One step of a walk (R200, R202): where no cache on the path holds the entry its line is read under key index 0, with the
effects of Table 8.3; a valid entry enters the caches on the path. -/
def readEntry (s : State) (agent ctx ea lvl : Nat) : State :=
  let s := countMisses s agent ctx ea
  let s := if cachedFor s agent ctx ea then s else (readLine s ctx 0 (lineBase ea) none [] []).2.2
  match pteFor s agent ctx ea with
  | some e => if pteOk lvl e then (cachesOf agent).foldl (fun s n => enterCache s n ctx ea) s else s
  | none => s
/-- The effects of a walk from a table down. -/
def walkLines (agent ctx va : Nat) : Nat → Nat → State → State
  | 0, table, s => readEntry s agent ctx (table + 8 * vaIndex 0 va) 0
  | lvl + 1, table, s =>
    let ea := table + 8 * vaIndex (lvl + 1) va
    let s := readEntry s agent ctx ea (lvl + 1)
    match pteFor s agent ctx ea with
    | some e => if pteOk (lvl + 1) e && !bit e 1 then walkLines agent ctx va lvl (bits e 47 12 * 4096) s else s
    | none => s
/-- A walk of an agent for a virtual address of a context: what it reads, counts and enters in the caches. -/
def cacheWalk (s : State) (agent ctx va : Nat) : State :=
  if va < 2 ^ 48 ∧ (ctxOf s ctx).live then walkLines agent ctx va 3 (ctxOf s ctx).ptRoot s else s
/-- Addresses of the 64 KiB pieces of a range. -/
def pieces (va n : Nat) : List Nat := (List.range (ceilDiv n 65536)).map (fun i => va + 65536 * i)
/-- The hub's walks for the pages of a range, in ascending order. -/
def walkRange (s : State) (ctx va n : Nat) : State :=
  (pieces (va / 65536 * 65536) (va % 65536 + n)).foldl (fun s v => cacheWalk s hubAgent ctx v) s

/-! ## Sealed domains: a memory access to a controller whose domain is not ON (R417 to R419) -/

/-- Power domain of a memory controller: HBM stack s is domain 64 + s, capacity controller k domain 72 + k (R416). -/
def ctlDomain (ctl : Nat) : Nat := if ctl < 16 then 64 + ctl else 72 + (ctl - 16)
/-- The controller of a line is in a sealed power domain: SEALED, RETAIN, OFF or WAKING. -/
def sealedAt (s : State) (a : Nat) : Bool :=
  match (domOf s (ctlDomain (ctlNo a))).state with
  | .on => false | .draining => false | _ => true

/-! ## The path to a line (R9, R229) -/

/-- The hub die among dies 0 to 4. -/
def hubDie : Nat := 4
/-- Die at which a line's controller sits: a compute die for HBM, the hub for the capacity tier. -/
def homeDie (a : Nat) : Nat := if isCap a then hubDie else (hbmLocate a).1 / 2
/-- Die-to-die links on the way between two dies: the die's own link to the hub; the ring link between ring neighbours; both
hub links between opposite dies. -/
def linksBetween (d e : Nat) : List Nat :=
  if d = e then []
  else if d = hubDie then [e]
  else if e = hubDie then [d]
  else if (d + 1) % 4 = e then [4 + d]
  else if (e + 1) % 4 = d then [4 + e]
  else [d, e]
/-- A link on the way from a die to a line is down. -/
def pathDown (s : State) (die a : Nat) : Bool := (linksBetween die (homeDie a)).any (fun l => (d2dOf s l).state == .down)

/-- Requests that need a link stay pending: it trains, or it holds its frames for want of a key (R229). -/
def linkWaits (s : State) (l : Nat) : Bool :=
  let v := d2dOf s l
  v.state == .training || (v.state == .up && v.dirs.any (fun d => d.2.heldAt.isSome))
/-- A memory domain drains: what reaches its boundary router is held there until it seals or wakes (R418, Table 17.4). -/
def memDrains (s : State) : Bool := (List.range 16).any (fun d => (domOf s (64 + d)).state == .draining)
/-- Some link on the ways from a die waits, or a memory domain drains: its accesses are not answered yet. DESIGN CHOICE (log entry 54):
while that lasts every access of the die's units waits, that to another place too. -/
def dieWaits (s : State) (die : Nat) : Bool := memDrains s || (List.range 5).any (fun e => (linksBetween die e).any (linkWaits s))

/-! ## Accesses of the module's agents, by canonical and by virtual address -/

/-- The die of an agent. -/
def agentDie (agent : Nat) : Nat := if agent < 64 then agent / 16 else hubDie
/-- One line read at a virtual address by an agent: the failure status or the line's bytes. A zero-fill of its granule ends
first (R208). -/
def dieReadLine (s : State) (agent ctx key va : Nat) (acc : Acc) : Status × Bytes × State :=
  let s := cacheWalk s agent ctx va
  match translate s agent ctx va key acc with
  | (.ok, a) =>
    if pathDown s (agentDie agent) a then (.linkDown, zeroLine, s)
    else if sealedAt s a then (.domainSealed, zeroLine, s)
    else readLine (finishFill s (granOf a)) ctx key (lineBase a) none [] []
  | (st, _) => (st, zeroLine, s)
/-- One line write at a virtual address by an agent. -/
def dieWriteLine (s : State) (agent ctx key va mask data : Nat) (measured : Bool) : Status × State :=
  let s := cacheWalk s agent ctx va
  match translate s agent ctx va key .write with
  | (.ok, a) =>
    if pathDown s (agentDie agent) a then (.linkDown, s)
    else if sealedAt s a then (.domainSealed, s)
    else writeLine s ctx key (lineBase a) mask data measured [] []
  | (st, _) => (st, s)
/-- One line read by an agent on the hub. -/
def vreadLine (s : State) (ctx key va : Nat) (acc : Acc) : Status × Bytes × State := dieReadLine s hubAgent ctx key va acc
/-- One line write by an agent on the hub. -/
def vwriteLine (s : State) (ctx key va mask data : Nat) (measured : Bool) : Status × State :=
  dieWriteLine s hubAgent ctx key va mask data measured

/-- Reads the lines of a range, in rising order: bytes (zeros for a failing line, R192), the first failure, the state. -/
def vreadLines (s : State) (ctx key : Nat) (acc : Acc) : List Nat → Status × Bytes × State
  | [] => (.ok, [], s)
  | va :: rest =>
    let (st, b, s) := vreadLine s ctx key va acc
    let (st2, bs, s) := vreadLines s ctx key acc rest
    (if st = .ok then st2 else st, b ++ bs, s)

/-- Addresses of the lines that `n` bytes from `va` on touch. -/
def linesOf (va n : Nat) : List Nat :=
  if n = 0 then [] else (List.range ((va + n - 1) / 64 + 1 - va / 64)).map (fun i => (va / 64 + i) * 64)

/-- Reads `n` bytes at a virtual address. -/
def vread (s : State) (ctx key va n : Nat) : Status × Bytes × State :=
  let (st, b, s) := vreadLines s ctx key .read (linesOf va n)
  (st, slice b (va % 64) n, s)
/-- Fetches `n` bytes of a program image (R142, right X). -/
def vfetch (s : State) (ctx key va n : Nat) : Status × Bytes × State :=
  let (st, b, s) := vreadLines s ctx key .fetch (linesOf va n)
  (st, slice b (va % 64) n, s)

/-- Writes lines one after another; every line is tried, and the first failure decides the status. -/
def vwriteLines (s : State) (ctx key va : Nat) (data : Bytes) (measured : Bool) : List Nat → Status × State
  | [] => (.ok, s)
  | la :: rest =>
    let (m, v) := lineMask va data la
    let (st, s) := vwriteLine s ctx key la m v measured
    let (st2, s) := vwriteLines s ctx key va data measured rest
    (if st = .ok then st2 else st, s)

/-- Writes a byte string at a virtual address. -/
def vwrite (s : State) (ctx key va : Nat) (data : Bytes) (measured : Bool) : Status × State :=
  vwriteLines s ctx key va data measured (linesOf va data.length)

/-- The first failing check of a range without any access (used where a command checks before it moves anything). -/
def vcheck (s : State) (ctx key va n : Nat) (acc : Acc) : Status :=
  ((linesOf va n).map (fun v => (translate s hubAgent ctx v key acc).1)).foldl (fun a b => if a = .ok then b else a) .ok

/-- The first faulting virtual address of a range (R201): an access of that kind to its line does not complete with OK;
`measured` marks the writes of a measured load. -/
def faultIn (s : State) (ctx key va n : Nat) (acc : Acc) (measured : Bool := false) : Option Nat :=
  ((linesOf va n).find? (fun a => match acc with
    | .write => (vwriteLine s ctx key a (lineMask va (List.replicate n 0) a).1 0 measured).1 != .ok
    | acc => (vreadLine s ctx key a acc).1 != .ok)).map (max va)

/-! ## Fault records (R165) -/

/-- A walk for a virtual address of a context meets a table line that fails R192. -/
def tableLost (s : State) (ctx va : Nat) : Nat → Nat → Bool
  | 0, table => (pteFor s hubAgent ctx (table + 8 * vaIndex 0 va)).isNone
  | lvl + 1, table =>
    match pteFor s hubAgent ctx (table + 8 * vaIndex (lvl + 1) va) with
    | none => true
    | some e => pteOk (lvl + 1) e && !bit e 1 && tableLost s ctx va lvl (bits e 47 12 * 4096)
/-- The report of a status at an address speaks of a poisoned line (R433): class 0x04, or a PAGE_FAULT for which a line of the page
tables fails R192 (R200 step 1), since that failure poisons it. -/
def criticalReport (s : State) (ctx : Nat) (st : Status) (addr : Option Nat) : Bool :=
  statusCode st / 256 == 4 || (st == .pageFault && addr.any (fun a => tableLost s ctx a 3 (ctxOf s ctx).ptRoot))

/-- A reported fault of a context, with the virtual address of its failed access (R201); where no access failed the rules state no
address, and it is a free value: the first one fills the record, the count saturates, and a status report goes to the
context's ring, logged too where it is critical (R433). -/
def reportFault (s : State) (ctx : Nat) (st : Status) (queue cmd task : Nat) (addr : Option Nat) : State :=
  let crit := criticalReport s ctx st addr
  let (addr, s) := match addr with
    | some a => (a % 2 ^ 48, s)
    | none => let (v, s) := drawFree s; ((v.truncate 48).toNat, s)
  let c := ctxOf s ctx
  let c := if c.faultSt.isNone then { c with faultSt := some st, faultQ := queue, faultCmd := cmd, faultAt := addr } else c
  let s := setCtx s ctx { c with faults := satAdd 16 c.faults 1 }
  let code := statusCode st
  let info1 := queue % 2 ^ 14 + cmd % 65536 * 2 ^ 16 + task % 65536 * 2 ^ 32
  let s := postRecord s ctx code 1 crit addr info1
  if crit then logIt s 1 code c.partition ctx addr info1 else s

/-- DOMAIN_SEALED is a reported fault of the sending context even when no task fails (R165, R419): the record takes the queue's
running command, and `task` is the task that sent the request (0xFFFF: none). Where no local access failed the rules state no
address, and it is a free value. -/
def recordSealed (s : State) (ctx queue task : Nat) (addr : Option Nat) : State :=
  if (ctxOf s ctx).live then reportFault s ctx .domainSealed queue (cmdIdOf s queue) task addr else s

end Sys2Proof.Machine
end

