-- ==== Sys2Proof/Machine/Operands.lean ====
section
/-! DEFINITION. Operand forms: descriptors and tensor layouts (chapter 05), the reading and writing of elements and block
scales with the out-of-bounds policy, the tile record and the DMA command record. -/

namespace Sys2Proof.Machine
open Sys2Proof

/-! ## Layouts (R102 to R111) -/

/-- Where a tensor's elements lie: format, block dimension, base, extents E0-E3 and byte strides of P1-P3. -/
structure Lay where
  fmt    : Nat
  scaled : Bool
  blk    : Nat
  base   : Nat
  ext    : List Nat
  stride : List Nat
  deriving DecidableEq, Repr, Inhabited

/-- The logical dimension of physical dimension `i` (R105). -/
def physDim (blk i : Nat) : Nat :=
  if i = 0 then blk else nth ((List.range 4).filter (· != blk)) (i - 1)

/-- Blocks per 1 KiB run, bytes per block and scale offset of an element width (Table 5.2). -/
def runShape (bits : Nat) : Nat × Nat × Nat :=
  match bits with
  | 4 => (60, 16, 960)
  | 6 => (40, 24, 960)
  | _ => (31, 32, 992)

/-- Extent of a physical dimension. -/
def Lay.extP (l : Lay) (i : Nat) : Nat := nth l.ext (physDim l.blk i)
/-- Stride of physical dimension 1 to 3. -/
def Lay.strideP (l : Lay) (i : Nat) : Nat := nth l.stride (i - 1)
/-- Channel vectors of a row (R105). -/
def Lay.nv (l : Lay) : Nat := ceilDiv (l.extP 0) 32
/-- Bytes of a row (R106, R107). -/
def Lay.rowBytes (l : Lay) : Nat :=
  if l.scaled then ceilDiv l.nv (runShape (fmtBits l.fmt)).1 * 1024 else l.nv * 4 * fmtBits l.fmt
/-- Bytes of the footprint (R110, R111): strides of dimensions of extent 1 do not enter. -/
def Lay.footprint (l : Lay) : Nat :=
  l.rowBytes + (if l.extP 1 > 1 then (l.extP 1 - 1) * l.strideP 1 else 0)
    + (if l.extP 2 > 1 then (l.extP 2 - 1) * l.strideP 2 else 0)
    + (if l.extP 3 > 1 then (l.extP 3 - 1) * l.strideP 3 else 0)
/-- Non-overlapping (R111). -/
def Lay.nonOverlap (l : Lay) : Bool :=
  let s1 := l.rowBytes
  let s2 := if l.extP 1 > 1 then l.extP 1 * l.strideP 1 else s1
  let s3 := if l.extP 2 > 1 then l.extP 2 * l.strideP 2 else s2
  (l.extP 1 ≤ 1 || s1 ≤ l.strideP 1) && (l.extP 2 ≤ 1 || s2 ≤ l.strideP 2) && (l.extP 3 ≤ 1 || s3 ≤ l.strideP 3)
/-- BASE and every used stride are multiples of 64 (R110). -/
def Lay.aligned (l : Lay) : Bool :=
  l.base % 64 == 0 && (List.range 3).all (fun i => l.extP (i + 1) ≤ 1 || l.strideP (i + 1) % 64 == 0)

/-- First byte of the row at logical coordinates (R110). -/
def Lay.rowAt (l : Lay) (c : List Nat) : Nat :=
  (List.range 3).foldl (fun a i =>
    let d := physDim l.blk (i + 1)
    if nth l.ext d > 1 then a + nth c d * l.strideP (i + 1) else a) l.base
/-- Bit address of an element (R106 to R108). -/
def Lay.elemBit (l : Lay) (c : List Nat) : Nat :=
  let p := nth c l.blk
  let w := fmtBits l.fmt
  let row := l.rowAt c
  if l.scaled then
    let (b, v, _) := runShape w
    (row + p / 32 / b * 1024 + p / 32 % b * v) * 8 + p % 32 * w
  else row * 8 + p * w
/-- Byte address of the scale of the block that holds coordinates (R107). -/
def Lay.scaleByte (l : Lay) (c : List Nat) : Nat :=
  let p := nth c l.blk
  let (b, _, o) := runShape (fmtBits l.fmt)
  l.rowAt c + p / 32 / b * 1024 + o + p / 32 % b

/-- Linear index of coordinates over extents (R102). -/
def linIdx (ext c : List Nat) : Nat :=
  nth c 0 + nth ext 0 * (nth c 1 + nth ext 1 * (nth c 2 + nth ext 2 * nth c 3))
/-- Coordinates of the i-th position over extents, in R102 order. -/
def unIdx (ext : List Nat) (i : Nat) : List Nat :=
  [i % nth ext 0, i / nth ext 0 % nth ext 1, i / nth ext 0 / nth ext 1 % nth ext 2, i / nth ext 0 / nth ext 1 / nth ext 2]
/-- Number of positions. -/
def volume (ext : List Nat) : Nat := nth ext 0 * nth ext 1 * nth ext 2 * nth ext 3

/-- The layout of a live tensor-table entry. -/
def Tensor.lay (t : Tensor) : Lay := ⟨t.fmt, t.scaled, t.blkDim, t.base, t.ext, t.stride⟩

/-! ## Descriptors (R116 to R118) -/

/-- Word `i` of a byte string. -/
def word (b : Bytes) (i : Nat) : Nat := le b (4 * i) 4

/-- Decodes the 64 bytes of a descriptor (Tables 5.4 to 5.6); `rsvd` gathers every reserved bit. -/
def decodeDesc (b : Bytes) : Desc :=
  let w := word b
  let space := bits (w 0) 8 7
  let view := space == 2
  { fmt := bits (w 0) 3 0, scaled := bit (w 0) 4, oob := bit (w 0) 5, round := bit (w 0) 6, space := space,
    blkDim := bits (w 0) 10 9, expBase := sext 7 (bits (w 0) 17 11),
    handle := if view then bits (w 1) 15 0 else 0,
    addr := if space = 0 then bits (w 1) 19 0 else if space = 1 then bits (w 1) 22 0 else 0,
    target := if space = 0 then bits (w 1) 29 20 else 0,
    other := space == 0 && bit (w 1) 30,
    rank := if space = 1 then bits (w 1) 28 23 else 0,
    seed := if view then 0 else le b 8 8,
    ext := if view then [w 4, w 5, w 6, w 7] else [bits (w 4) 15 0, bits (w 4) 31 16, bits (w 5) 15 0, bits (w 5) 31 16],
    valid := if view then [] else [bits (w 6) 15 0, bits (w 6) 31 16, bits (w 7) 15 0, bits (w 7) 31 16],
    origin := if view then [w 8, w 9, w 10, w 11] else [0, 0, 0, 0],
    stride := if view then [] else [w 8, w 9, w 10],
    pitch := if view then [] else [w 11, w 12, w 13],
    idxBase := if view then 0 else le b 56 8,
    rsvd := bits (w 0) 31 18 +
      (if view then bits (w 1) 31 16 + w 2 + w 3 + w 12 + w 13 + w 14 + w 15
       else if space = 0 then bits (w 1) 31 31 else if space = 1 then bits (w 1) 31 29 else 0) }

/-- The layout of a local descriptor. -/
def Desc.lay (d : Desc) : Lay := ⟨d.fmt, d.scaled, d.blkDim, d.addr, d.ext, d.stride⟩

/-- A view: layout, coordinates of view position 0, view extents, in-bounds counts and policy (R117, R118, R120). -/
structure View where
  lay    : Lay
  origin : List Nat
  vext   : List Nat
  cnt    : List Int
  zero   : Bool
  deriving DecidableEq, Repr, Inhabited

/-- The view that a descriptor names, with the tensor entry it read at issue if it is a memory view. -/
def viewOf (d : Desc) (t : Option Tensor) : View :=
  match t with
  | some t => ⟨t.lay, d.origin, d.ext,
      (List.range 4).map (fun i => min (nth d.ext i : Int) ((nth t.ext i : Int) - nth d.origin i)), d.oob⟩
  | none => ⟨d.lay, [0, 0, 0, 0], d.ext, d.valid.map (fun (v : Nat) => (v : Int)), d.oob⟩

/-- Linear index of a local position (R118), modulo 2^64. -/
def localIdx (d : Desc) (c : List Nat) : Nat :=
  (d.idxBase + nth c 0 + nth c 1 * nth d.pitch 0 + nth c 2 * nth d.pitch 1 + nth c 3 * nth d.pitch 2) % 2 ^ 64

/-- Tensor coordinates of view coordinates. -/
def View.at (v : View) (c : List Nat) : List Nat := (List.range 4).map (fun i => nth v.origin i + nth c i)
/-- In-bounds count of a dimension. -/
def View.count (v : View) (i : Nat) : Int := v.cnt.getD i 0
/-- The position is out of bounds along a dimension. -/
def View.out (v : View) (c : List Nat) (i : Nat) : Bool := decide (v.count i ≤ (nth c i : Int))
/-- The position is in bounds in every dimension: a write there lands (R121). -/
def View.inside (v : View) (c : List Nat) : Bool := (List.range 4).all (fun i => !v.out c i)

/-- Where a read of a position goes (R120): `none`, the element reads as code 0; otherwise the (clamped) position. -/
def View.source (v : View) (c : List Nat) : Option (List Nat) :=
  if v.out c v.lay.blk then none
  else if v.inside c then some c
  else if v.zero then none
  else if (List.range 4).any (fun i => v.out c i && decide (v.count i ≤ 0)) then none
  else some ((List.range 4).map (fun i => if v.out c i then ((v.count i) - 1).toNat else nth c i))

/-- Position whose block's stored scale a scaled read of the block at `c` takes (R120); `none`: scale 0x7F. The block
starts at the multiple of 32 at or below `c` along the block dimension. -/
def View.scaleSource (v : View) (c : List Nat) : Option (List Nat) :=
  let b := (List.range 4).map (fun i => if i = v.lay.blk then nth c i / 32 * 32 else nth c i)
  v.source b

/-- A store of bytes as a reader sees it. -/
abbrev ByteView := Nat → Byte

/-- The `n` bits at a bit address. -/
def bitsAt (f : ByteView) (a n : Nat) : Nat :=
  let b := a / 8
  let v := (f b).toNat + 256 * (if a % 8 + n > 8 then (f (b + 1)).toNat else 0)
      + 65536 * (if a % 8 + n > 16 then (f (b + 2)).toNat else 0) + 16777216 * (if a % 8 + n > 24 then (f (b + 3)).toNat else 0)
  v / 2 ^ (a % 8) % 2 ^ n

/-- The code read at a view position (R120). -/
def View.read (v : View) (f : ByteView) (c : List Nat) : Nat :=
  match v.source c with
  | none => 0
  | some p => bitsAt f (v.lay.elemBit (v.at p)) (fmtBits v.lay.fmt)
/-- The scale of the block that holds a view position (R120, R23). -/
def View.scale (v : View) (f : ByteView) (c : List Nat) : Nat :=
  if !v.lay.scaled then 0x7F
  else match v.scaleSource c with
    | none => 0x7F
    | some p => (f (v.lay.scaleByte (v.at p))).toNat

/-- Bytes that the read of a position touches: its element's and its block scale's. -/
def View.readAddrs (v : View) (c : List Nat) : List Nat :=
  (match v.source c with
   | none => []
   | some p => let a := v.lay.elemBit (v.at p); [a / 8, (a + fmtBits v.lay.fmt - 1) / 8])
  ++ (if v.lay.scaled then (match v.scaleSource c with | none => [] | some p => [v.lay.scaleByte (v.at p)]) else [])

/-- A write of some bits: bit address, width and value. -/
structure BitWrite where
  at'   : Nat
  width : Nat
  val   : Nat
  deriving DecidableEq, Repr, Inhabited

/-- The writes of an element and of its block's scale at a view position; none out of bounds (R121). -/
def View.write (v : View) (c : List Nat) (code scale : Nat) : List BitWrite :=
  if v.inside c then
    ⟨v.lay.elemBit (v.at c), fmtBits v.lay.fmt, code⟩ ::
      (if v.lay.scaled then [⟨8 * v.lay.scaleByte (v.at c), 8, scale⟩] else [])
  else []

/-- Applies one bit write to a store. -/
def applyBits (m : Mem) (w : BitWrite) : Mem :=
  (List.range ((w.at' % 8 + w.width + 7) / 8)).foldl (fun m i =>
    let a := w.at' / 8 + i
    let lo := if i = 0 then w.at' % 8 else 0
    let hi := min 8 (w.at' % 8 + w.width - 8 * i)
    let old := (mread m a).toNat
    let mask := 2 ^ hi - 2 ^ lo
    let bitsNew := (w.val * 2 ^ (w.at' % 8) / 2 ^ (8 * i)) % 256
    mwrite m a (BitVec.ofNat 8 ((old &&& (255 - mask)) ||| (bitsNew &&& mask)))) m

/-- Groups bit writes by 64-byte line: mask and data of each line, rising. -/
def groupBits (ws : List BitWrite) : Tab (Nat × Nat) :=
  ws.foldl (fun t w =>
    (List.range w.width).foldl (fun t i =>
      let a := w.at' + i
      let l := a / 512
      let (m, d) := tget (0, 0) t l
      let b := 2 ^ (a % 512)
      tins t l (m ||| b, if bit w.val i then d ||| b else (d ||| b) ^^^ b)) t) []

/-! ## The tile record (Table 3.3) and the DMA command record (Table 4.6) -/

/-- Decodes the 32 bytes of a tile record. -/
def decodeTile (b : Bytes) : TileRec :=
  let w := word b
  { m := bits (w 0) 9 0 + 1, n := bits (w 0) 19 10 + 1, k := 32 * (bits (w 0) 28 20 + 1), stat := bit (w 0) 29,
    acc := bits (w 0) 31 30, base := bits (w 1) 15 0, preload := bit (w 1) 16,
    aDesc := bits (w 2) 13 0, bDesc := bits (w 2) 29 16, cDesc := bits (w 3) 13 0, outDesc := bits (w 3) 29 16 }
/-- The reserved fields of a tile record are 0 (R63). -/
def tileRsvdOk (b : Bytes) : Bool :=
  let w := word b
  bits (w 1) 31 17 == 0 && bits (w 2) 15 14 == 0 && bits (w 2) 31 30 == 0 && bits (w 3) 15 14 == 0 && bits (w 3) 31 30 == 0
    && w 4 == 0 && w 5 == 0 && w 6 == 0 && w 7 == 0

/-- Fields of a DMA command record: source and destination descriptor, FORM, OPERAND, OPERAND2. -/
structure DmaRec where
  src  : Nat
  dst  : Nat
  form : Nat
  opnd : Nat
  opnd2 : Nat
  deriving DecidableEq, Repr, Inhabited

/-- Decodes the 32 bytes of a command record. -/
def decodeDmaRec (b : Bytes) : DmaRec :=
  { src := bits (word b 0) 13 0, dst := bits (word b 0) 29 16, form := bits (word b 1) 3 0, opnd := le b 8 8, opnd2 := le b 16 8 }
/-- The reserved fields of a command record are 0 (R86). -/
def dmaRsvdOk (b : Bytes) : Bool :=
  let w := word b
  bits (w 0) 15 14 == 0 && bits (w 0) 31 30 == 0 && bits (w 1) 31 4 == 0 && w 6 == 0 && w 7 == 0

/-! ## Descriptor checks at issue (Table 5.7), row by row -/

/-- Row 1: formats, SPACE, reserved fields, SCALED, extents, VALID. -/
def descRow1 (d : Desc) : Bool :=
  fmtNamed d.fmt && d.space ≤ 2 && d.rsvd == 0 && (!d.scaled || fmtScalable d.fmt) && d.ext.all (· != 0)
    && (d.space == 2 || (List.range 4).all (fun i => nth d.valid i ≤ nth d.ext i))
/-- Row 2: the handle is below TENSOR_COUNT and LIVE, its entry agrees, ORIGIN and VEXT follow R117. -/
def descRow2 (d : Desc) (count : Nat) (t : Option Tensor) : Bool :=
  d.space != 2 || (match t with
    | none => false
    | some t => d.handle < count && t.fmt == d.fmt && t.scaled == d.scaled && t.blkDim == d.blkDim
        && nth d.origin d.blkDim % 32 == 0
        && (!d.scaled || nth d.ext d.blkDim % 32 == 0
            || nth t.ext d.blkDim ≤ nth d.origin d.blkDim + nth d.ext d.blkDim))
/-- Row 3: alignment; a local destination is non-overlapping; TARGET within the crew; RANK below CLUSTER_COUNT. -/
def descRow3 (d : Desc) (isDst : Bool) (crew clusters : Nat) : Bool :=
  d.space == 2 || (d.lay.aligned && (!isDst || d.lay.nonOverlap) && (!d.other || d.target < crew) && (d.space != 1 || d.rank < clusters))
/-- Row 5: the local footprint lies in its store. -/
def descRow5 (d : Desc) : Bool :=
  d.space == 2 || d.addr + d.lay.footprint ≤ (if d.space = 0 then 0xC0000 else 0x800000)

end Sys2Proof.Machine
end

