-- ==== Sys2Proof/Machine/Tiles.lean ====
section
/-! DEFINITION. The geometry and timing of tile-slot operations (R54, R65 to R72), the core store as the engines' reads find
it, the stationary loader and the render stage cycle by cycle (R56, R57), the sums of a pass (R58, R66), and the banks that
the engines use over port F (R93, R94). Times are the core's own cycles. -/

namespace Sys2Proof.Machine
open Sys2Proof

/-! ## Geometry -/

/-- Kp, Np and L_arr of a gang configuration (Table 3.2). -/
def gangShape (g : Nat) : Nat × Nat × Nat :=
  match g with
  | 1 => (128, 128, 256)
  | 2 => (256, 64, 320)
  | _ => (64, 256, 128)

/-- Ns: stationary columns (R65). -/
def TileRec.ns (r : TileRec) : Nat := if r.stat then r.m else r.n
/-- Ms: streamed rows (R65). -/
def TileRec.ms (r : TileRec) : Nat := if r.stat then r.n else r.m
/-- Chunks of K (R66). -/
def nkOf (gang : Nat) (r : TileRec) : Nat := ceilDiv r.k (gangShape gang).1
/-- Passes P = nn × nk (R66). -/
def passes (gang : Nat) (r : TileRec) : Nat := ceilDiv r.ns (gangShape gang).2.1 * nkOf gang r
/-- The accumulator regions of two records overlap. -/
def overlaps (a b : TileRec) : Bool := a.base < b.base + b.m * b.n && b.base < a.base + a.m * a.n

/-- The stationary and the streamed descriptor of a tile operation. -/
def ArrayOp.statDesc (o : ArrayOp) : Desc := o.descs.getD (if o.tile.stat then 0 else 1) default
def ArrayOp.streamDesc (o : ArrayOp) : Desc := o.descs.getD (if o.tile.stat then 1 else 0) default
/-- D: cycles per rendered vector (Table 3.1). -/
def ArrayOp.digits (o : ArrayOp) : Nat := fmtDigits o.statDesc.fmt
/-- Cycles that a pass streams: Ms × D. -/
def ArrayOp.stream (o : ArrayOp) : Nat := o.tile.ms * fmtDigits o.statDesc.fmt
/-- The operation is a TILE whose last pass has been swapped in. -/
def lastSwapped (gang : Nat) (o : ArrayOp) : Bool := o.kind == 1 && o.pass == passes gang o.tile
/-- The operation is a TILE whose last-pass streaming has ended: its array-path entry is free (R72). -/
def streamDone (c : Core) (now : Nat) (o : ArrayOp) : Bool := lastSwapped c.gang o && o.start + o.stream ≤ now
/-- Array-path entries in use (R72). -/
def arrayUsed (c : Core) (now : Nat) : Nat := (c.arrayPath.filter (fun o => !streamDone c now o)).length
/-- Duration of a DRAIN or a C fill (R64, R71). -/
def drainTime (r : TileRec) : Nat := 4 + ceilDiv (r.m * r.n) 256

/-- The first operation of the array path that is not a TILE with its last pass swapped in, with its position. -/
def loadHead (c : Core) : Option (Nat × ArrayOp) :=
  ((List.range c.arrayPath.length).zip c.arrayPath).find? (fun p => !lastSwapped c.gang p.2)

/-! ## The core store at a past cycle -/

/-- The core store as a port-F read of core cycle `t` finds it (R82, R95): bytes that later cycles first see are taken back. -/
def storeAt (c : Core) (t : Nat) : Mem := c.hist.foldl (fun m h => if t < h.1 then mwriteN m h.2.1 h.2.2 else m) c.store
/-- While a tile path works, the bytes that a write seen from core cycle `t` on replaces are kept. -/
def keepOld (c : Core) (t a n : Nat) : Core :=
  if c.arrayPath.isEmpty && c.drainPath.isEmpty then c else { c with hist := (t, a, mreadN c.store a n) :: c.hist }
/-- A byte write to the core store that core cycle `t` is the first to see. -/
def storeWrite (c : Core) (t a : Nat) (b : Bytes) : Core :=
  let c := keepOld c t a b.length
  { c with store := mwriteN c.store a b }
/-- A bit write to the core store that core cycle `t` is the first to see. -/
def storeBits (c : Core) (t : Nat) (w : BitWrite) : Core :=
  let c := keepOld c t (w.at' / 8) ((w.at' % 8 + w.width + 7) / 8)
  { c with store := applyBits c.store w }

/-! ## Elements of a tile's operands -/

/-- Coordinates of stationary element k of column `col`: B[k, col] or A[col, k] (R65, R103). -/
def statCoord (r : TileRec) (col k : Nat) : List Nat := if r.stat then [k, col, 0, 0] else [col, k, 0, 0]
/-- Coordinates of streamed element k of row `row`: A[row, k] or B[k, row]. -/
def streamCoord (r : TileRec) (row k : Nat) : List Nat := if r.stat then [row, k, 0, 0] else [k, row, 0, 0]
/-- Accumulator entry of a streamed row and a stationary column (R59). -/
def accEntry (r : TileRec) (row col : Nat) : Nat := if r.stat then r.base + col * r.n + row else r.base + row * r.n + col
/-- The active segments of a K chunk (R66). -/
def segsOf (gang : Nat) (r : TileRec) (jk : Nat) : List Nat :=
  let kp := (gangShape gang).1
  (List.range (kp / 32)).filter (fun g => jk * kp + 32 * g < r.k)

/-! ## The stationary loader (R57, R70) -/

/-- The load that the stationary loader runs: operation, pass and first cycle. A TILE with PRELOAD = 0 begins its first set at
the latest of its issue and the end of what the loader did before; the set of a later pass begins at the swap before it; a
STAGE at its start. -/
def loadJob (c : Core) : Option (ArrayOp × Nat × Nat) :=
  match loadHead c with
  | some (_, o) =>
    if o.kind = 1 then
      if o.pass = 0 then (if o.tile.preload then none else some (o, 0, max o.issue c.loadDone)) else some (o, o.pass, o.start)
    else if o.kind = 2 ∧ o.phase = .running then some (o, 0, o.start)
    else none
  | none => none
/-- The cycle of a load in which column-block (column, segment) is read: each engine takes one per cycle, the two segments of
its column 0 first, then those of column 1, and so on (DESIGN CHOICE: R57 gives the rate and no order). -/
def loadCycle (col seg : Nat) : Nat := 2 * (col % 64) + seg % 2

/-- Coordinates of the 32 elements of a column-block. -/
def blockCoords (gang : Nat) (r : TileRec) (jn jk col seg : Nat) : List (List Nat) :=
  let (kp, np, _) := gangShape gang
  (List.range 32).map (fun k => statCoord r (jn * np + col) (jk * kp + 32 * seg + k))
/-- A column-block as the loader reads it in a load that began in cycle `t` (R57). -/
def loadColumn (c : Core) (o : ArrayOp) (jn jk t col seg : Nat) : ColBlock :=
  let d := o.statDesc
  let v := viewOf d none
  let m := storeAt c (t + loadCycle col seg)
  let ks := blockCoords c.gang o.tile jn jk col seg
  loadBlock d.fmt col seg (ks.map (v.read (mread m))) (v.scale (mread m) (ks.headD [])) d.expBase
/-- The stationary set of a pass, by a load that began in cycle `t` (R57, R66): one column-block for each active column and
32-row segment. -/
def loadSet (c : Core) (o : ArrayOp) (pass t : Nat) : StatSet :=
  let np := (gangShape c.gang).2.1
  let nk := nkOf c.gang o.tile
  let jn := pass / nk
  let jk := pass % nk
  let cols := (List.range np).filter (fun i => jn * np + i < o.tile.ns)
  { recd := o.recAddr, jn := jn, jk := jk,
    blocks := cols.flatMap (fun i => (segsOf c.gang o.tile jk).map (loadColumn c o jn jk t i)) }

/-- A load that 128 cycles ago began has filled the shadow registers (R57). -/
def landLoad (now : Nat) (c : Core) : Core :=
  match loadJob c with
  | some (o, pass, t) => if !c.loaded && t + 128 ≤ now then { c with shadow := some (loadSet c o pass t), loaded := true } else c
  | none => c

/-! ## The render stage and the sums of a pass (R56, R58, R66) -/

/-- Coordinates of the 32 elements of a streamed block. -/
def rowCoords (gang : Nat) (r : TileRec) (jk row seg : Nat) : List (List Nat) :=
  (List.range 32).map (fun k => streamCoord r row (jk * (gangShape gang).1 + 32 * seg + k))
/-- The cycle in which the render stage reads a row of a pass that starts in cycle `t`: one row every D cycles, 6 before it
reaches the array (R56). -/
def rowCycle (o : ArrayOp) (t row : Nat) : Nat := t + row * o.digits - 6
/-- The rendered blocks of a streamed row of the pass that started at `o.start`, one for each active segment. -/
def renderRow (c : Core) (o : ArrayOp) (jk row : Nat) : List (List Int × Int × Bool) :=
  let d := o.streamDesc
  let v := viewOf d none
  let m := storeAt c (rowCycle o o.start row)
  (segsOf c.gang o.tile jk).map (fun g =>
    let ks := rowCoords c.gang o.tile jk row g
    renderBlock d.fmt (ks.map (v.read (mread m))) (v.scale (mread m) (ks.headD [])) d.expBase)

/-- Adds one block value to an accumulator entry; the first block of a fresh tile starts it (R33, R64). -/
def accumulate (acc : Tab Word) (e : Nat) (fresh : Bool) (v : Nat) : Tab Word :=
  let old := (tget 0 acc e).toNat
  tput 0 acc e (BitVec.ofNat 32 (if fresh then v else fp32Add old v))

/-- The accumulator file after a pass: every row, every column, the active segments in ascending order (R58, R66). -/
def runPass (c : Core) (o : ArrayOp) (st : StatSet) : Tab Word :=
  let np := (gangShape c.gang).2.1
  (List.range o.tile.ms).foldl (fun acc row =>
    let x := renderRow c o st.jk row
    st.blocks.foldl (fun acc b =>
      let v := blockValue (x.getD b.seg ([], 0, false)) b
      accumulate acc (accEntry o.tile row (st.jn * np + b.col)) (o.tile.acc == 0 && st.jk == 0 && b.seg == 0) v) acc) c.acc

/-- The pass that streams, or has streamed and is not yet summed: its operation, with its position. -/
def streaming (c : Core) : Option (Nat × ArrayOp) :=
  ((List.range c.arrayPath.length).zip c.arrayPath).find? (fun p => p.2.kind == 1 && decide (p.2.summed < p.2.pass))
/-- A pass whose streaming has ended stands in the accumulator file (R66, R68). Its last updates come L_arr cycles after the
last row; nothing can read the entries of a TILE before it completes (R69). -/
def sumPass (now : Nat) (c : Core) : Core :=
  match streaming c, c.active with
  | some (i, o), some st =>
    if o.start + o.stream ≤ now then { c with acc := runPass c o st, arrayPath := c.arrayPath.set i { o with summed := o.pass } } else c
  | _, _ => c

/-! ## Start of a TILE's first pass (R68 to R70) -/

/-- No earlier TILE whose region overlaps is still incomplete (R69). -/
def drainFreeOf (c : Core) (d : DrainOp) : Bool :=
  c.arrayPath.all (fun o => o.kind != 1 || d.issue ≤ o.issue || !overlaps o.tile d.tile)

/-- The initial C, or a DRAIN's accumulator entries, that cycle `k` of its operation handles: 256 of them a cycle, in
accumulator order (DESIGN CHOICE: R64 and R71 give the duration and no schedule). -/
def drainGroup (r : TileRec) (k : Nat) : List Nat := (List.range 256).filterMap (fun i => if 256 * k + i < r.m * r.n then some (256 * k + i) else none)
/-- Coordinates of an accumulator entry of a record, counted from its base. -/
def entryCoords (r : TileRec) (i : Nat) : List Nat := [i % r.n, i / r.n, 0, 0]

/-- The first pass or the next one of the head TILE, and the cycle in which it starts or can start, once that is certain:
`none` while something it waits for has not begun. -/
def nextPass (c : Core) : Option (ArrayOp × Nat × Nat) :=
  match loadHead c with
  | some (i, o) =>
    if o.kind ≠ 1 then none
    else if o.pass ≠ 0 then some (o, o.pass, o.start + max o.stream 128)
    else
      let before := (c.arrayPath.take i).foldl (fun m (p : ArrayOp) => max m (p.start + p.stream)) 0
      let set' := if o.tile.preload then (if c.shadow.any (fun t => t.recd == o.recAddr) then some 0 else none)
        else some (max o.issue c.loadDone + 128)
      let drains := c.drainPath.foldl (fun (m : Option Nat) (d : DrainOp) => m.bind (fun m =>
        if d.issue < o.issue && overlaps d.tile o.tile || d.isFill && d.issue == o.issue then
          (if d.running then some (max m (d.start + drainTime d.tile)) else none) else some m)) (some o.fillAt)
      match set', drains with
      | some a, some b => some (o, 0, max (max (o.issue + 6) before) (max a b))
      | _, _ => none
  | none => none

/-! ## Banks that the engines use over port F (R93, R94) -/

/-- The banks of some core-store addresses. -/
def banksOf (l : List Nat) : List Nat := (l.map (· / 0x8000)).dedup
/-- The row that the render stage reads in core cycle `t` of a pass that starts in cycle `t0`, or none. -/
def rowAtCycle (o : ArrayOp) (t0 t : Nat) : Option Nat :=
  if t0 ≤ t + 6 ∧ (t + 6 - t0) % o.digits = 0 ∧ (t + 6 - t0) / o.digits < o.tile.ms then some ((t + 6 - t0) / o.digits) else none
/-- Banks the render stage reads for a row of a pass. -/
def rowBanks (c : Core) (o : ArrayOp) (pass row : Nat) : List Nat :=
  let v := viewOf o.streamDesc none
  banksOf ((segsOf c.gang o.tile (pass % nkOf c.gang o.tile)).flatMap (fun g =>
    (rowCoords c.gang o.tile (pass % nkOf c.gang o.tile) row g).flatMap v.readAddrs))
/-- Banks that the render stage reads in core cycle `t`. -/
def renderBanks (c : Core) (t : Nat) : List Nat :=
  let now := match streaming c with
    | some (_, o) => (match rowAtCycle o o.start t with | some row => rowBanks c o (o.pass - 1) row | none => [])
    | none => []
  let next := match nextPass c with
    | some (o, p, t0) => if t < t0 then (match rowAtCycle o t0 t with | some row => rowBanks c o p row | none => []) else []
    | none => []
  now ++ next.filter (fun b => !now.contains b)
/-- Banks that the stationary loader reads in core cycle `t`. -/
def loaderBanks (c : Core) (t : Nat) : List Nat :=
  match loadJob c with
  | some (o, pass, t0) =>
    if c.loaded || t < t0 || t0 + 128 ≤ t then []
    else
      let np := (gangShape c.gang).2.1
      let nk := nkOf c.gang o.tile
      let v := viewOf o.statDesc none
      banksOf (((List.range np).filter (fun i => pass / nk * np + i < o.tile.ns)).flatMap (fun i =>
        ((segsOf c.gang o.tile (pass % nk)).filter (fun g => loadCycle i g == t - t0)).flatMap (fun g =>
          (blockCoords c.gang o.tile (pass / nk) (pass % nk) i g).flatMap v.readAddrs)))
  | none => []
/-- Banks that the DRAIN or C fill at the head of the drain path uses in core cycle `t`: a fill reads from its first cycle on,
a DRAIN writes after 4 cycles. -/
def drainBanks (c : Core) (t : Nat) : List Nat :=
  match c.drainPath with
  | d :: _ =>
    let t0 := if d.isFill then d.start else d.start + 4
    if d.running && t0 ≤ t then
      let v := viewOf d.desc none
      banksOf ((drainGroup d.tile (t - t0)).flatMap (fun i => v.readAddrs (entryCoords d.tile i)))
    else []
  | [] => []
/-- Accesses that lose a bank among several users, each with its distinct banks (R94). -/
def lostAccesses (users : List (List Nat)) : Nat := users.flatten.length - users.flatten.dedup.length
/-- What the engines make port F lose in core cycle `t`, beyond what the slots of a bundle lost among themselves: `vs` are
the banks of the bundle's VM and SCA accesses. -/
def engineLost (c : Core) (t : Nat) (vs : List Nat) : Nat :=
  let vs := vs.dedup
  lostAccesses [renderBanks c t, loaderBanks c t, drainBanks c t, vs]

end Sys2Proof.Machine
end

