-- ==== Sys2Proof/Machine/Cores.lean ====
section
/-! DEFINITION. What every core command shares: registers with their latencies, the crew of a core, ending a task from a
core, the stop sequence's first step, waits, and the reading and writing of stores. -/

namespace Sys2Proof.Machine
open Sys2Proof

/-! ## Plans, tasks and crews -/

/-- A task of a loaded plan. -/
def taskOf (s : State) (r : TaskRef) : Option Task := (planOf s r.queue).bind (fun p => p.tasks[r.task]?)
/-- Replaces a task of a loaded plan. -/
def setTask (s : State) (r : TaskRef) (t : Task) : State :=
  match planOf s r.queue with
  | some p => setPlan s r.queue { p with tasks := p.tasks.set r.task t }
  | none => s
/-- Changes a task of a loaded plan. -/
def modTask (s : State) (r : TaskRef) (f : Task → Task) : State :=
  match taskOf s r with
  | some t => setTask s r (f t)
  | none => s

/-- The cores of a crew in crew-index order. -/
def Task.cores (t : Task) : List Nat := t.place.flatMap (fun p => p.2.map (fun l => p.1 * 16 + l))
/-- CREW_SIZE. -/
def Task.size (t : Task) : Nat := t.cores.length
/-- CLUSTER_COUNT. -/
def Task.clusterCount (t : Task) : Nat := t.place.length
/-- Cluster rank of a crew index: cluster crews have 16 cores each, core crews one cluster. -/
def Task.rankOf (t : Task) (cluster : Nat) : Nat := (t.place.map (·.1)).idxOf cluster
/-- The cluster of a rank. -/
def Task.clusterAt (t : Task) (rank : Nat) : Nat := nth (t.place.map (·.1)) rank

/-- The crew cores that run the task: those of clusters that it has entered. A cluster of its placement that it has not
entered may still run another task, none of whose core-level state this one can see or change (R76). -/
def crewCores (s : State) (r : TaskRef) (t : Task) : List Nat := t.cores.filter (fun c => (coreOf s c).task == some r)

/-- Bundle issue stops on a core, in a cycle that is kept. -/
def stopCore (now : Nat) (v : Core) : Core := { v with issuing := false, wait := none, stopped := some (v.stopped.getD now) }
/-- Bundle issue stops on a core with the end of a cycle: what the core does in that very cycle still counts. -/
def stopAfter (now : Nat) (v : Core) : Core := { v with stopped := some (v.stopped.getD now) }
/-- Step 1 of the stop sequence (Table 4.15) on every crew core, as `f` stops one from its cycle on; the first stop stands. The
tile paths stop with it (R73 allows 400 cycles). -/
def stopCrew (s : State) (r : TaskRef) (st : Status) (f : Nat → Nat → Core → Core) : State :=
  match taskOf s r with
  | none => s
  | some t =>
    let s := (crewCores s r t).foldl (fun s c => modCore s c (f c (clusterCycle s c))) s
    if t.stop.isNone then setTask s r { t with stop := some (st, s.ns) } else s
/-- Bundle issue stops on every crew core by a decision of the scheduler (R101). -/
def beginStop (s : State) (r : TaskRef) (st : Status) : State := stopCrew s r st (fun _ => stopCore)

/-- A core ends its task (R100): its status is kept with the core, and the whole crew stops with ABORTED, the other cores at the
end of the cycle, so that each core that ends the task in it keeps its status. -/
def endByCore (s : State) (core : Nat) (st : Status) : State :=
  let c := coreOf s core
  match c.task with
  | none => s
  | some r => stopCrew (setCore s core { c with result := some (c.result.getD st) }) r .aborted
      (fun d => if d = core then stopCore else stopAfter)

/-! ## Registers and stores -/

/-- A scalar register: S0 reads 0 (Table 4.1). -/
def sreg (c : Core) (n : Nat) : Nat := if n = 0 then 0 else (tget 0 c.sregs n).toNat
/-- A vector register. -/
def xreg (c : Core) (n : Nat) : BitVec 2048 := tget 0 c.xregs n

/-- Writes a result: S0 drops it. -/
def writeReg (c : Core) (r : RegName) (v : BitVec 2048) : Core :=
  match r with
  | .x n => { c with xregs := tput 0 c.xregs n v }
  | .s n => if n = 0 then c else { c with sregs := tput 0 c.sregs n (v.truncate 32) }

/-- First cluster cycle that sees a pending result. -/
def PendWrite.due (held : Nat) : PendWrite → Nat
  | .reg d _ _ => d + held
  | .bytes d _ _ => d + held
  | .put d _ _ => d
/-- A write over port D: where port F writes the same byte in the same cycle, port F's value remains (R94). -/
def PendWrite.portD : PendWrite → Bool
  | .put _ _ _ => true
  | _ => false
/-- The result reaches its register or the core store. -/
def landPend (c : Core) : PendWrite → Core
  | .reg _ r v => writeReg c r v
  | .bytes d a b => storeWrite c d a b
  | .put d a b => storeWrite c (d - c.held) a b
/-- Inserts by cycle, after those of the same cycle that issued earlier; of one cycle the writes over port D come first. A VST or SST
thus meets a port-D write of the same byte in the cycle before its bytes become visible, issue + 3 or + 2 (DESIGN CHOICE: R94 says
whose value remains in one cycle, and no rule says in which cycle of its latency a VST or SST writes its bank). -/
def insPend (held : Nat) (w : PendWrite) : List PendWrite → List PendWrite
  | [] => [w]
  | v :: l =>
    if w.due held < v.due held || (w.due held == v.due held && w.portD && !v.portD) then w :: v :: l else v :: insPend held w l

/-- Every result whose cycle has come reaches its place, in order of its cycle and then of issue (R82). -/
def landDue (now : Nat) (c : Core) : Core :=
  let due := (c.pend.filter (fun w => w.due c.held ≤ now)).foldl (fun l w => insPend c.held w l) []
  due.foldl landPend { c with pend := c.pend.filter (fun w => now < w.due c.held) }
/-- With both tile paths empty no engine reads past bytes. -/
def dropHist (c : Core) : Core := if c.arrayPath.isEmpty && c.drainPath.isEmpty then { c with hist := [] } else c

/-- The cycle up to which the tile paths of a core work: where bundle issue has stopped for good they stop with it (R73). -/
def pathCycle (now : Nat) (c : Core) : Nat := match c.stopped with | some a => min a now | none => now
/-- What has come about on a core by a cluster cycle: results land, the loader fills the shadow registers, a streamed pass is
summed. -/
def settle (now : Nat) (c : Core) : Core :=
  dropHist (sumPass (pathCycle now c - c.held) (landLoad (pathCycle now c - c.held) (landDue now c)))

/-- The core with everything due come about. -/
def coreNow (s : State) (core : Nat) : Core := settle (clusterCycle s core) (coreOf s core)

/-- The whole core is held for `n` cycles (R94): bundle issue, engine, vector and tile paths come so much later; what comes over
port D does not. What is due in cluster cycle `now` has come about before. -/
def holdCore (now n : Nat) (c : Core) : Core :=
  let c := settle now c
  { c with held := c.held + n }

/-- A token's state (R98). -/
def tokenOf (c : Core) (t : Nat) : Token := tget .idle c.tokens t
/-- Moves a token. -/
def setToken (c : Core) (t : Nat) (v : Token) : Core := { c with tokens := tput .idle c.tokens t v }
/-- A token that an incomplete operation holds. -/
def tokenPending (c : Core) (t : Nat) : Bool := tokenOf c t == .pending
/-- The TOKST result (R91): state in [1:0], status in [31:16]. -/
def tokenWord : Token → Nat
  | .idle => 0 | .pending => 1 | .done st => 2 + statusCode st * 2 ^ 16

/-- A token completes: DONE with the status (R98). -/
def completeToken (s : State) (core tok : Nat) (st : Status) : State := modCore s core (fun c => setToken c tok (.done st))

/-- `n` bytes of a core's store, due results included. -/
def storeBytes (c : Core) (a n : Nat) : Bytes := mreadN c.store a n

/-! ## Waits (R97 to R100) -/

/-- Tokens that a WAIT_TOK masks. -/
def maskedTokens (group mask : Nat) : List Nat := ((List.range 8).filter (fun i => bit mask i)).map (fun i => 8 * group + i)

/-- (counter - threshold) mod 2^32 < 2^31 (Table 4.13). -/
def reached (counter threshold : Word) : Bool := (counter - threshold).toNat < 2 ^ 31

/-- An arrival counter that a partition owns (R242). -/
def arrivalOf (s : State) (n part : Nat) : Option Word :=
  match tlook s.fab.arrivals n with
  | some a => if a.partition = part then some a.value else none
  | none => none

/-- The partition of a core. -/
def partOfCore (s : State) (core : Nat) : Nat := ((clusterOf s (clusterNo core)).partition).getD 32

/-- Puts of a core that have not landed. -/
def putsFrom (s : State) (core : Nat) : Bool := s.puts.any (fun p => p.sender == core)

/-- The condition of a core's wait point holds (Table 4.13, R100). -/
def waitHolds (s : State) (core : Nat) (w : Wait) : Bool :=
  let c := coreOf s core
  match w with
  | .tok _ g m => (maskedTokens g m).all (fun t => !tokenPending c t)
  | .sig n t => reached (tget 0 c.signals n) t
  | .arr n t => match arrivalOf s n (partOfCore s core) with
    | some v => reached v t
    | none => false
  | .sync b => match c.task.bind (taskOf s) with
    | some t => t.cores.all (fun d => (coreOf s d).task == c.task && tget 0 c.synced b ≤ tget 0 (coreOf s d).synced b)
    | none => false
  | .fin => (List.range 64).all (fun t => !tokenPending c t) && c.arrayPath.isEmpty && c.drainPath.isEmpty && !putsFrom s core

/-- The WATCHDOG of a task has run out (R140); its timer pauses in the dust-sheet state (R426). -/
def watchdogDue (s : State) (r : TaskRef) : Bool :=
  match planOf s r.queue, taskOf s r with
  | some p, some t => t.state == .running && t.stop.isNone && p.watchdog != 0 && decide (t.runSince + p.watchdog * 1000 ≤ s.ns) && !s.pow.dustSheet
  | _, _ => false
/-- The removal of a cluster that the task is placed on has waited 2 ms (Table 7.4 step 2). -/
def removalDue (s : State) (t : Task) : Bool :=
  t.place.any (fun p => match (clusterOf s p.1).removing with | some t0 => decide (t0 + 2000000 ≤ s.ns) | none => false)
/-- The acceptance (ns) of the QUEUE_DESTROY of a queue that queue 0 or the security processor runs (R176). -/
def destroySince (s : State) (queue : Nat) : Option Nat :=
  [0, mgmtQueue].findSome? (fun q => ((queueOf s q).running.bind (fun r =>
    if opcodeOf r.entry = 0x51 ∧ r.waitFor = [queue] ∧ r.status.isNone then some r.since else none)))
/-- The destroy of the task's queue has waited 2 ms (R176). -/
def destroyDue (s : State) (r : TaskRef) : Bool :=
  match destroySince s r.queue with | some t0 => decide (t0 + 2000000 ≤ s.ns) | none => false
/-- A forced abort of the task falls in the present cycle (R101, R140, R162, R176). -/
def abortDue (s : State) (r : TaskRef) : Bool :=
  watchdogDue s r || destroyDue s r || (taskOf s r).any (removalDue s)

/-- Bundle issue has stopped for good on the core before the present cycle. -/
def stoppedBefore (s : State) (core : Nat) : Bool :=
  match (coreOf s core).stopped with | some a => decide (a < clusterCycle s core) | none => false

/-- A wait point of the core may release as far as its task goes: every edge of the task has resolved, if it is the first one
(R99), and no stop has come before and no forced abort falls in the same cycle (R101: the abort takes effect). -/
def mayCommit (s : State) (core : Nat) : Bool :=
  let c := coreOf s core
  (c.committed || (match c.task.bind (taskOf s) with
    | some t => t.edges.all (fun e => e.resolved.isSome)
    | none => false)) && !stoppedBefore s core && !c.task.any (abortDue s)

/-- The first non-OK status among masked tokens, lowest token number first (R98). -/
def firstBad (c : Core) (l : List Nat) : Option (Nat × Status) :=
  l.findSome? (fun t => match tokenOf c t with | .done st => if st = .ok then none else some (t, st) | _ => none)

/-- The core is the first of its task on its cluster to commit. -/
def firstCommit (s : State) (core : Nat) : Bool :=
  match (coreOf s core).task.bind (taskOf s) with
  | some t => (t.cores.filter (fun c => c / 16 == core / 16)).all (fun c => (coreOf s c).task != (coreOf s core).task || !(coreOf s c).committed)
  | none => false
/-- Tokens that hold a DOMAIN_SEALED found before the commit point which the core now passes (R99): its own, and those of the
cluster's prologue loads if it is the first to pass. -/
def heldSealed (s : State) (core : Nat) : List Nat :=
  let c := coreOf s core
  if c.committed then []
  else (List.range 64).filter (fun t => tokenOf c t == .done .domainSealed && (decide (t < 56) || firstCommit s core))
/-- The faults that the tokens held are reported at the commit point (R99, R165). -/
def reportHeld (s : State) (core : Nat) : State :=
  match (coreOf s core).task with
  | none => s
  | some r => match planOf s r.queue with
    | none => s
    | some p => (heldSealed s core).foldl (fun s t => recordSealed s p.ctx r.queue r.task (tlook (coreOf s core).faultVa t)) s

/-- A wait point of a core releases: the commit point is passed, and a strict WAIT_TOK with a failed token ends the task
(R98, R99). `next` is the first cycle in which the next bundle may issue. -/
def releaseWait (s : State) (core next : Nat) : State :=
  let c := coreOf s core
  match c.wait with
  | none => s
  | some w =>
    let s := setCore (reportHeld s core) core { c with wait := none, committed := true, nextIssue := next, ended := c.ended || w == .fin }
    match w with
    | .tok false g m => match firstBad c (maskedTokens g m) with
      | some (t, st) => endByCore (modCore s core (fun c => { c with resultVa := tlook c.faultVa t })) core st
      | none => s
    | _ => s

/-! ## DMA endpoints -/

/-- The store that a local descriptor names: a core number or a cluster number. -/
inductive Place where
  | core (n : Nat)
  | cluster (n : Nat)
  | device (key : Nat)
  deriving DecidableEq, Repr, Inhabited

/-- Where a descriptor of an operation of `core` lies. -/
def placeOf (t : Task) (core : Nat) (d : Desc) (tens : Option Tensor) : Place :=
  match tens with
  | some e => .device e.key
  | none => if d.space = 1 then .cluster (t.clusterAt d.rank)
            else .core (if d.other then nth t.cores d.target else core)

/-- The bytes of a local store as its reader sees them. -/
def localView (s : State) : Place → ByteView
  | .core n => let m := (coreNow s n).store; fun a => mread m a
  | .cluster n => let m := (clusterOf s n).store; fun a => mread m a
  | .device _ => fun _ => 0

/-- A local store that an operation of task `r` can reach now: a core of another cluster of the crew only once the crew has
entered there, since until then it can run another task (R76, R78). -/
def placeReady (s : State) (r : TaskRef) : Place → Bool
  | .core n => (coreOf s n).task == some r
  | _ => true

/-- Writes bits to a local store, behind every write to it that is due. -/
def writeLocal (s : State) (p : Place) (ws : List BitWrite) : State :=
  match p with
  | .core n => setCore s n (ws.foldl (fun c w => storeBits c (cycleOf s n) w) (coreNow s n))
  | .cluster n => modCluster s n (fun c => { c with store := ws.foldl applyBits c.store })
  | .device _ => s

/-- Reads the distinct lines that byte addresses touch, rising; a table of statuses and bytes by line number. -/
def readLineTab (s : State) (agent ctx key : Nat) (addrs : List Nat) : Tab (Status × Bytes) × State :=
  addrs.foldl (fun (r : Tab (Status × Bytes) × State) a =>
    match tlook r.1 (a / 64) with
    | some _ => r
    | none => let (st, b, s) := dieReadLine r.2 agent ctx key (a / 64 * 64) .read; (tins r.1 (a / 64) (st, b), s)) ([], s)
/-- The bytes of a table of lines. -/
def tabView (t : Tab (Status × Bytes)) : ByteView := fun a =>
  match tlook t (a / 64) with
  | some (_, b) => byteAt b (a % 64)
  | none => 0
/-- The first failure among the lines that some bytes touch. -/
def tabFail (t : Tab (Status × Bytes)) (addrs : List Nat) : Option Status :=
  addrs.findSome? (fun a => match tlook t (a / 64) with
    | some (st, _) => if st = .ok then none else some st
    | none => none)

/-- Writes grouped bits to device memory; a table of the statuses of the lines that failed. -/
def writeLineTab (s : State) (agent ctx key : Nat) (g : Tab (Nat × Nat)) : Tab Status × State :=
  g.foldl (fun (r : Tab Status × State) p =>
    let (st, s) := dieWriteLine r.2 agent ctx key (p.1 * 64) p.2.1 p.2.2 false
    (if st = .ok then r.1 else tins r.1 p.1 st, s)) ([], s)

/-! ## The task-start and scrubbed state of a core (Table 4.14) -/

/-- The task of a core is in its stop sequence, in which its tile paths do nothing more (R73). -/
def coreStopped (s : State) (core : Nat) : Bool := ((coreOf s core).task.bind (taskOf s)).any (fun t => t.stop.isSome)

/-- A core after its scrub: every row of Table 4.14; the bundle counter is not part of it. -/
def scrubbed (c : Core) : Core := { bundles := c.bundles }

end Sys2Proof.Machine
end

