-- ==== Sys2Proof/Machine/Lath.lean ====
section
/-! DEFINITION. Sending on the Lath fabric (chapter 10): the active index of a session, counters and key rolls, the choice
of a port, flows, loans, transaction identifiers, requests, responses and VC4 packets. -/

namespace Sys2Proof.Machine
open Sys2Proof

/-- The destination node of a global address (R240). -/
def gaNode (ga : Nat) : Nat := bits ga 63 48
/-- The Lath key index that a session's operations send under: the active index of its pair, the one with the greater
roll count (R232, R246). -/
def lathActive (s : State) (ses : Nat) : Option Nat :=
  (s.sp.keyCtxs.filter (fun p => p.2.cls == 2 && p.2.session == ses && p.2.state == .active)).foldl
    (fun (b : Option Nat) p => match b with
      | none => some p.1
      | some k => if (keyOf s k).roll < p.2.roll then some p.1 else some k) none
/-- A port that carries traffic: UP, not gated, its port group ON (R239, R415, R419). -/
def portUp (s : State) (p : Nat) : Bool :=
  (portOf s p).state == .up && bit s.pow.cgLath.toNat p && (domOf s (80 + p / 4)).state == .on
/-- Some such port lies in a port mask (R239). -/
def portLive (s : State) (mask : Nat) : Bool := (List.range 32).any (fun p => bit mask p && portUp s p)


/-! ## Modes and ports -/

/-- DT_ACTIVE (R405): every loaded plan was loaded in deterministic-timing mode. -/
def dtActive (s : State) : Bool := !s.plans.isEmpty && s.plans.all (fun p => p.2.dt)
/-- Pinned spraying is in force (R257, R406). -/
def sprayPinned (s : State) : Bool := s.regs.sprayPin || dtActive s
/-- Ports of a mask that carry traffic, ascending. -/
def upPorts (s : State) (mask : Nat) : List Nat := (List.range 32).filter (fun p => bit mask p && portUp s p)
/-- Bytes of a link frame that carries a packet (R238). -/
def frameBytes (p : Packet) : Nat := 60 + p.payload.length
/-- Bytes queued at a port. DESIGN CHOICE (log entry 53): frames sent and not yet acknowledged, which stand in the retry buffer, count
as well as those that wait; R257 says only "bytes queued". -/
def queuedBytes (s : State) (p : Nat) : Nat :=
  (((portOf s p).retry ++ (portOf s p).waiting).map (fun f => frameBytes f.pkt)).foldl (· + ·) 0

/-- The port for packet `i` of a flow from this node to `dst` among eligible ports (R257). -/
def choosePort (s : State) (l : List Nat) (dst i : Nat) : Option Nat :=
  if l.isEmpty then none
  else if sprayPinned s then some (nth l ((s.fab.member.node + dst + i) % l.length))
  else l.foldl (fun (b : Option Nat) p => match b with
    | none => some p
    | some q => if queuedBytes s p < queuedBytes s q then some p else some q) none

/-- A flow of a table, new at its first packet (R258). -/
def flowOf (l : List Flow) (src dst vc key : Nat) : Flow :=
  (l.find? (fun f => f.src == src && f.dst == dst && f.vc == vc && f.key == key)).getD ⟨src, dst, vc, key, 0, 0⟩
/-- Replaces a flow of a table. -/
def putFlow (l : List Flow) (f : Flow) : List Flow :=
  f :: l.filter (fun g => !(g.src == f.src && g.dst == f.dst && g.vc == f.vc && g.key == f.key))

/-! ## Counters (R230, R232, R233, R245) -/

/-- An index may send: no takeover bound, or a roll count above it (R233 step 3). -/
def maySend (s : State) (key : Nat) : Bool := match (keyOf s key).rMax with | none => true | some r => r < (keyOf s key).roll

/-- Takes the next counter of a key index and direction; at 2^40 the index refuses, and at 2^39 KEY_ROLL_DUE is posted. -/
def takeCtr (s : State) (key dir : Nat) : Option (Nat × State) :=
  let k := keyOf s key
  let c := if dir = 0 then k.txctr0 else k.txctr1
  if 2 ^ 40 ≤ c then none
  else
    let due := !k.rollDue && decide (2 ^ 39 ≤ c + 1)
    let k := { k with txctr0 := if dir = 0 then c + 1 else k.txctr0, txctr1 := if dir = 0 then k.txctr1 else c + 1, rollDue := k.rollDue || due }
    let s := setKey s key k
    some (c, if due then postEvent s (contextsOfSession s k.session) 0x0003 false k.partition key (c + 1) else s)

/-! ## Frames and transmit arbitration (R230, R238, R245, R256, R269) -/

/-- The key of a packet: the domain control key for VC4, else that of the LATH_PAIR context of its key index (R230, R245). -/
def packetKey (s : State) (p : Packet) : BitVec 256 :=
  if p.vc = 4 then s.fab.member.key.getD 0 else slotKey (slotOf s (keyOf s p.keyIdx).slotCur)
/-- The frame in which a packet crosses (R13, R230): its header in clear and authenticated, its payload encrypted, its tag. -/
def sealPacket (s : State) (p : Packet) : Frame :=
  let (c, t) := gcm (packetKey s p) (lathIv p.srcNode p.keyIdx p.dir p.ctr) (packetHeader p) p.payload
  ⟨0, 0, { p with payload := c }, t, [], 0⟩

/-- Receive buffer of a virtual channel at a port, in credits of 64 bytes (Table 10.8). DESIGN CHOICE: a neighbour offers the
same buffers. -/
def vcBuffer (vc : Nat) : Nat := nth [1024, 256, 1024, 1024, 64] vc
/-- Credits that a packet takes: one for each 64 bytes of payload, and at least one. DESIGN CHOICE (log entry 53): header and tag take
none, since the 64 credits of VC4 must hold an EPOCH_UPDATE of 4,096 bytes (Tables 10.5 and 10.8). -/
def pktCredits (p : Packet) : Nat := max 1 (ceilDiv p.payload.length 64)
/-- Credits that a frame takes. -/
def frameCredits (f : Frame) : Nat := pktCredits f.pkt
/-- The bytes of a packet as it crosses: header, encrypted payload, tag. -/
def wireBytes (f : Frame) : Bytes := packetHeader f.pkt ++ f.pkt.payload ++ f.tag
/-- A frame as a port sends it (R238): its sequence, the credits that the port owes its neighbour, and the CRC-32 over header and
packet. -/
def dressFrame (v : Port) (f : Frame) : Frame :=
  let r := (List.range 5).map (tget 0 v.owed)
  { f with seq := v.txSeq, returns := r, crc := crc32 (Config.linkHeader v.txSeq f.pkt.vc r ++ wireBytes f) }
/-- The first waiting frame of a virtual channel, where its credits suffice. -/
def headOf (v : Port) (vc : Nat) : Option Frame :=
  (v.waiting.find? (fun f => f.pkt.vc == vc)).filter (fun f => decide (tget 0 v.credits vc + frameCredits f ≤ vcBuffer vc))
/-- The round robin moves to the next of VC0 to VC2, which may then send its quantum of 1 KiB times its weight more. -/
def nextTurn (v : Port) : Port :=
  let t := (v.turn + 1) % 3
  { v with turn := t, deficit := tput 0 v.deficit t (tget 0 v.deficit t + 1024 * nth [4, 2, 8] t) }
/-- Deficit round robin over VC0 to VC2: at most `n` turns. A channel that can send nothing keeps no deficit. -/
def roundRobin : Nat → Port → Option Frame × Port
  | 0, v => (none, v)
  | n + 1, v =>
    match headOf v v.turn with
    | none => roundRobin n (nextTurn { v with deficit := tput 0 v.deficit v.turn 0 })
    | some f =>
      let d := tget 0 v.deficit v.turn
      if frameBytes f.pkt ≤ d then (some f, { v with deficit := tput 0 v.deficit v.turn (d - frameBytes f.pkt) })
      else roundRobin n (nextTurn v)
/-- The frame that a port sends next: VC4, then VC3, strictly; VC2 next where the module has withdrawn from its lanes (R269);
then the round robin. -/
def arbitrate (withdrawn : Bool) (v : Port) : Option Frame × Port :=
  match ([4, 3] ++ (if withdrawn then [2] else [])).findSome? (headOf v) with
  | some f => (some f, v)
  | none => if [0, 1, 2].any (fun vc => (headOf v vc).isSome) then roundRobin 12 v else (none, v)
/-- A port sends waiting frames, at most `n`: each takes a frame sequence and its credits, and stands in the retry buffer until
it is acknowledged (R238). -/
def transmit (withdrawn : Bool) : Nat → Port → Port
  | 0, v => v
  | n + 1, v =>
    match arbitrate withdrawn v with
    | (none, v) => v
    | (some f, v) => transmit withdrawn n
        { v with waiting := v.waiting.erase f, retry := v.retry ++ [dressFrame v f], txSeq := (v.txSeq + 1) % 4096, owed := [],
                 credits := tput 0 v.credits f.pkt.vc (tget 0 v.credits f.pkt.vc + frameCredits f) }
/-- A port sends what its neighbour's credits allow. -/
def pumpPort (s : State) (port : Nat) : State :=
  if portUp s port then modPort s port (fun v => transmit s.fab.plumb.withdrawn v.waiting.length v) else s
/-- Level of watermark source 6 + `vc`: credits in use in the fullest port's receive buffer of a virtual channel (R440). -/
def bufferLevel (s : State) (vc : Nat) : State :=
  setLevel s (6 + vc) ((s.fab.ports.map (fun p => tget 0 p.2.buffer vc)).foldl max 0)
/-- A packet arrives in the receive buffer of its virtual channel at a port (Table 10.8). -/
def bufferIn (s : State) (port : Nat) (p : Packet) : State :=
  if p.vc < 5 then
    bufferLevel (modPort s port (fun v => { v with buffer := tput 0 v.buffer p.vc (tget 0 v.buffer p.vc + pktCredits p) })) p.vc
  else s
/-- It leaves the buffer: its credits are free, and the port returns them with its next frame (R238, R256). -/
def bufferOut (s : State) (port : Nat) (p : Packet) : State :=
  if p.vc < 5 then
    bufferLevel (modPort s port (fun v => { v with buffer := tput 0 v.buffer p.vc (tget 0 v.buffer p.vc - pktCredits p),
                                                   owed := tput 0 v.owed p.vc (tget 0 v.owed p.vc + pktCredits p) })) p.vc
  else s
/-- Queues a packet at a port, sealed; it is sent as soon as arbitration and credits allow. -/
def sendOn (s : State) (port : Nat) (p : Packet) : State :=
  pumpPort (modPort s port (fun v => { v with waiting := v.waiting ++ [sealPacket s p] })) port

/-- Sends a packet under its key index: counter, port, flow count. A request to a node that is no member is not sent (R271). An
index whose key has gone gives KEY_REVOKED (R213). -/
def emit (s : State) (p : Packet) : Status × State :=
  if p.dir = 0 ∧ (nodeOf s p.dstNode).member = false then (.staleEpoch, s)
  else if (keyOf s p.keyIdx).cls ≠ 2 ∨ (keyOf s p.keyIdx).state ≠ .active then (.keyRevoked, s)
  else
    let l := upPorts s (nodeOf s p.dstNode).portMask
    let f := flowOf s.fab.txFlows p.srcNode p.dstNode p.vc p.keyIdx
    match choosePort s l p.dstNode f.sent with
    | none => (.linkDown, s)
    | some port => match takeCtr s p.keyIdx p.dir with
      | none => (.keyExhausted, s)
      | some (c, s) =>
        let s := { s with fab := { s.fab with txFlows := putFlow s.fab.txFlows { f with sent := f.sent + 1 } } }
        (.ok, sendOn s port { p with ctr := c })

/-! ## Requests (R247, R255, R258, R443) -/

/-- A request header with this module's node and epoch; the rest is 0. -/
def blankPacket (s : State) (op vc key node : Nat) : Packet :=
  { version := 1, op := op, vc := vc, ordered := false, arrive := false, dir := 0, srcNode := s.fab.member.node, dstNode := node,
    keyIdx := key, sched := false, asub := 0, epoch := s.fab.member.epoch, offset := 0, window := 0, len := 0, ctr := 0,
    flowSeq := 0, xid := 0, rsvd := 0, payload := [] }

/-- The next transaction identifier that no pending request has and that none of `used` is: `n` identifiers are tried. -/
def freshXid (pend : Tab Pending) (used : List Nat) : Nat → Nat → Option Nat
  | 0, _ => none
  | n + 1, x => if (tlook pend (x % 65536)).isSome || used.contains (x % 65536) then freshXid pend used n (x + 1) else some (x % 65536)
/-- Requests sent within the last 2 ms (R255). -/
def recentXids (s : State) : List (Nat × Nat × Nat) := s.fab.usedXids.filter (fun u => decide (s.ns < u.2.2 + 2000000))
/-- Notes that an XID has been used toward a node now. -/
def noteXid (s : State) (node xid : Nat) : State :=
  { s with fab := { s.fab with usedXids := (node, xid, s.ns) :: (recentXids s).filter (fun u => !(u.1 == node && u.2.1 == xid)) } }

/-- The identifier that the next request toward a node takes: none while all 65,536 are pending or used toward it within 2 ms. -/
def nextXid (s : State) (node : Nat) : Option Nat :=
  let used := ((recentXids s).filter (fun u => u.1 == node)).map (·.2.1)
  freshXid s.fab.pending used (min 65536 (s.fab.pending.length + used.length + 1)) s.fab.nextXid

/-- VC0 and VC1 request payload outstanding toward a node (R443). -/
def outstandingTo (s : State) (node : Nat) : Nat :=
  ((s.fab.pending.filter (fun p => p.2.pkt.dstNode == node && p.2.pkt.vc ≤ 1)).map (fun p => p.2.pkt.payload.length)).foldl (· + ·) 0
/-- Bytes of the loan that a destination has made and that is still held: a module whose Plumb is not LOCKED treats it as lapsed
(R252). -/
def loanBytes (s : State) (node : Nat) : Nat :=
  match tlook s.fab.loansIn node with
  | some l => if s.fab.plumb.locked ∧ s.fab.plumb.time < l.expiry then l.units * 4096 else 0
  | none => 0
/-- Ordered packets of a flow that have no response. -/
def unackedOrdered (s : State) (node vc key : Nat) : Nat :=
  (s.fab.pending.filter (fun p => p.2.pkt.ordered && p.2.pkt.dstNode == node && p.2.pkt.vc == vc && p.2.pkt.keyIdx == key)).length

/-- A request may be sent now: the allowance of R443, the 256 ordered packets of R258, and an identifier that R255 lets it take. -/
def mayRequest (s : State) (p : Packet) : Bool :=
  (decide (1 < p.vc) || decide (outstandingTo s p.dstNode + p.payload.length ≤ 65536 + loanBytes s p.dstNode))
    && (!p.ordered || decide (unackedOrdered s p.dstNode p.vc p.keyIdx < 256)) && (nextXid s p.dstNode).isSome

/-- Sends a request under its key index: XID, FLOW_SEQ, counter, the module's present epoch (R246); it then waits for its response. A
caller asks `mayRequest` first; without an identifier nothing is sent. -/
def sendRequest (s : State) (p : Packet) (who : Sender) (dest : List Nat) : Status × Nat × State :=
  match nextXid s p.dstNode with
  | none => (.busy, 0, s)
  | some xid =>
  let f := flowOf s.fab.txFlows p.srcNode p.dstNode p.vc p.keyIdx
  let p := { p with xid := xid, epoch := s.fab.member.epoch, flowSeq := if p.ordered then f.next else 0 }
  match emit s p with
  | (.ok, s) =>
    let g := flowOf s.fab.txFlows p.srcNode p.dstNode p.vc p.keyIdx
    let flows := if p.ordered then putFlow s.fab.txFlows { g with next := (g.next + 1) % 65536 } else s.fab.txFlows
    (.ok, xid, noteXid { s with fab := { s.fab with
      txFlows := flows, nextXid := (xid + 1) % 65536, pending := tins s.fab.pending xid ⟨p, 0, s.ns, who, dest⟩ } } p.dstNode xid)
  | (st, s) => (st, xid, s)

/-- The request waits for no response any longer. -/
def dropPending (s : State) (xid : Nat) : State := { s with fab := { s.fab with pending := tdel s.fab.pending xid } }

/-- The index that a packet under the pair of `key` takes now (R232): the active index with the greater roll count. -/
def pairActive (s : State) (key : Nat) : Option Nat :=
  [key / 2 * 2, key / 2 * 2 + 1].foldl (fun (b : Option Nat) k =>
    let c := keyOf s k
    if c.state = .active ∧ c.cls = 2 then (match b with
      | none => some k
      | some j => if (keyOf s j).roll < c.roll then some k else some j)
    else b) none

/-- Retransmits a request under a fresh counter and the newly active index (R255, R276). -/
def resend (s : State) (xid : Nat) (tries : Nat) : State :=
  match tlook s.fab.pending xid with
  | none => s
  | some q =>
    let p := { q.pkt with keyIdx := (pairActive s q.pkt.keyIdx).getD q.pkt.keyIdx, sched := false }
    let s := noteXid (if maySend s p.keyIdx then (emit s p).2 else s) p.dstNode xid
    { s with fab := { s.fab with pending := tins s.fab.pending xid { q with pkt := p, tries := tries, sentAt := s.ns } } }

/-! ## Responses (R248, R443) -/

/-- The loan that a destination makes to a source now (R443): an equal share of the pool among the sources with traffic outstanding,
within what the pool still has. DEDUCED (log entry 53): a source has traffic outstanding from its packet until its lease is
reclaimed, so each keeps an entry, be it of no units yet, and the others' shares shrink with their next RESP. -/
def lendTo (s : State) (node : Nat) : Nat × State :=
  let others := tdel s.fab.loansOut node
  let lent := (others.map (fun p => p.2.units)).foldl (· + ·) 0
  let units := min (16384 / (others.length + 1)) (16384 - lent)
  let (f, s) := drawFree s
  let hold := f.toNat % 65536
  let seq := match tlook s.fab.loansOut node with | some l => (l.seq + 1) % 65536 | none => 1
  let s := { s with fab := { s.fab with loansOut := tins others node ⟨units, seq, s.fab.plumb.time + hold * 10000, hold⟩ } }
  (units, setLevel s 11 (lent + units))
/-- The 8 bytes of a loan in a RESP. -/
def loanPayload (s : State) (node : Nat) : Bytes :=
  match tlook s.fab.loansOut node with
  | some l => leBytes 4 l.units ++ leBytes 2 l.seq ++ leBytes 2 l.hold
  | none => []

/-- The response packet to a request. -/
def respPacket (s : State) (p : Packet) (key : Nat) (st : Status) (data : Bytes) : Packet :=
  { blankPacket s 0x10 3 key p.srcNode with dir := 1, len := data.length, flowSeq := statusCode st, xid := p.xid, payload := data }

/-- Answers a request (R253): a RESP on VC3 under the pair's active index; a RESP that cannot be sent is lost, and the
requester retransmits. The response is returned for the completion record. -/
def respond (s : State) (p : Packet) (st : Status) (data : Bytes) : Packet × State :=
  match pairActive s p.keyIdx with
  | none => (respPacket s p p.keyIdx st data, s)
  | some k =>
    let r := respPacket s p k st data
    if maySend s k then (r, (emit s r).2) else (r, s)

/-! ## VC4 (R245) -/

/-- Sends a VC4 packet under the domain control key; a module without the key sends nothing, and no request goes to a node that is no
member (R271). The reply slot that Table 18.6 reserves for the answer to a request always stands: a port's waiting list has room
for it (DESIGN CHOICE, log entry 53). -/
def sendVc4 (s : State) (op dir node : Nat) (data : Bytes) : State :=
  let m := s.fab.member
  if m.key.isNone || (dir == 0 && !(nodeOf s node).member) then s
  else
    let p := { blankPacket s op 4 0 node with dir := dir, len := data.length, payload := data, ctr := if dir = 0 then m.ctr0 else m.ctr1 }
    let f := flowOf s.fab.txFlows m.node node 4 0
    match choosePort s (upPorts s (nodeOf s node).portMask) node f.sent with
    | none => s
    | some port => sendOn { s with fab := { s.fab with
        txFlows := putFlow s.fab.txFlows { f with sent := f.sent + 1 }
        member := { m with ctr0 := if dir = 0 then m.ctr0 + 1 else m.ctr0, ctr1 := if dir = 0 then m.ctr1 else m.ctr1 + 1 } } } port p

/-! ## Lath operations of a core (R246 to R249) -/

/-- Byte addresses of a descriptor's rows in ascending P1, P2, P3 order (R246). -/
def rowAddrs (d : Desc) (t : Option Tensor) : List Nat :=
  let l := match t with | some e => { e.lay with ext := (List.range 4).map (fun i => max (nth e.ext i) (nth d.origin i + nth d.ext i)) } | none => d.lay
  let w := { d.lay with fmt := l.fmt, scaled := l.scaled, blk := l.blk }
  let o0 := nth d.origin l.blk
  let skip := if l.scaled then o0 / 32 / (runShape (fmtBits l.fmt)).1 * 1024 else o0 * fmtBits l.fmt / 8
  let e := fun i => nth d.ext (physDim l.blk i)
  (List.range (e 3)).flatMap (fun p3 => (List.range (e 2)).flatMap (fun p2 => (List.range (e 1)).flatMap (fun p1 =>
    let c := (List.range 4).map (fun dim => nth d.origin dim +
      (if dim = l.blk then 0 else if dim = physDim l.blk 1 then p1 else if dim = physDim l.blk 2 then p2 else p3))
    let a := l.rowAt c + skip
    (List.range w.rowBytes).map (fun i => a + i))))

/-- Cuts `n` bytes at offset `o` into packets (R247): pairs of start within the string and length. -/
def cutPackets (o n : Nat) : List (Nat × Nat) :=
  if n = 0 then [(0, 0)]
  else (List.range ((o + n + 4095) / 4096 - o / 4096)).map (fun i =>
    let lo := if i = 0 then 0 else (o / 4096 + i) * 4096 - o
    let hi := min n ((o / 4096 + i + 1) * 4096 - o)
    (lo, hi - lo))

/-- The packets of an operation, with the landing addresses of what a read returns. -/
def lathPackets (s : State) (o : DmaOp) (src : Bytes) (dst : List Nat) : List (Packet × List Nat) :=
  let ga := o.operand
  let off := bits ga 35 0
  let base := fun (op vc : Nat) (x : Nat) (pl : Bytes) =>
    { blankPacket s op vc o.key (gaNode ga) with
        ordered := bit o.form 0, arrive := bit o.form 1, window := bits ga 47 36,
        offset := x % 2 ^ 36, len := pl.length, payload := pl }
  let small := fun (n : Nat) => n != 0 && decide (off % 64 + n ≤ 64)
  match o.op with
  | 4 =>
    if small src.length then [(base 0x01 1 off src, [])]
    else (cutPackets off src.length).map (fun p => (base 0x02 0 (off + p.1) (slice src p.1 p.2), []))
  | 3 =>
    if small dst.length then
      [({ base 0x03 1 (off / 64 * 64 + (off % 64 + dst.length - 1)) [] with len := 0 }, dst)]
    else (cutPackets off dst.length).map (fun p => (base 0x04 1 (off + p.1) (leBytes 8 p.2), (dst.drop p.1).take p.2))
  | _ =>
    let sub := bits o.form 3 2
    let pl := slice src 0 8 ++ (if sub = 1 then leBytes 8 o.operand2 else [])
    [({ base 0x05 1 off pl with arrive := false, asub := sub }, dst.take (if sub < 2 then 8 else 16))]

end Sys2Proof.Machine
end

