-- ==== Sys2Proof/Machine/Bundle.lean ====
section
/-! DEFINITION. BUNDLE_ISSUE: the seven slots of a bundle (R80 to R92), every issue-time check (R81, R99, R85, R86, R63,
Table 5.7) in the order of R487, and the effect of each operation. -/

namespace Sys2Proof.Machine
open Sys2Proof

/-! ## Slots (Table 4.3) -/

/-- The slots of a bundle: CTL, DQ0, DQ1, TIL, VA, VM, SCA. -/
structure Slots where
  ctl : Nat
  dq0 : Nat
  dq1 : Nat
  til : Nat
  va  : Nat
  vm  : Nat
  sca : Nat
  deriving DecidableEq, Repr, Inhabited

/-- Cuts a bundle into its slots. -/
def slotsOf (b : BitVec 128) : Slots :=
  let v := b.toNat
  ⟨bits v 127 108, bits v 107 90, bits v 89 72, bits v 71 62, bits v 61 41, bits v 40 20, bits v 19 0⟩

/-- What the checks of a bundle read: the core with due results landed, its number, task, crew and place. -/
structure Issue where
  core : Core
  no   : Nat
  task : Task
  ctx  : Nat
  part : Nat
  len  : Nat     -- bundles of the image
  deriving DecidableEq, Repr, Inhabited

/-- A failed check, or none. -/
def need (ok : Bool) (st : Status) : Option Status := if ok then none else some st
/-- The first failure of a list of checks. -/
def firstFail : List (Option Status) → Option Status
  | [] => none
  | some st :: _ => some st
  | none :: l => firstFail l

/-! ## Control slot checks -/

/-- The bundle that a branch at `pc` with signed offset field names. -/
def branchTarget (pc off : Nat) : Int := (pc : Int) + sext 10 off

/-- A branch target lies within the image and, inside an active body, within the innermost body (R83, R84). -/
def targetOk (i : Issue) (t : Int) : Bool :=
  decide (0 ≤ t) && decide (t < i.len) && (match i.core.loops with
    | [] => true
    | f :: _ => decide ((f.first : Int) ≤ t) && decide (t ≤ f.last))

/-- The bundle at `pc` is the last of an active body. -/
def lastOfBody (i : Issue) : Bool := match i.core.loops with | [] => false | f :: _ => i.core.pc == f.last

/-- The checks of the CTL slot (Table 4.4, R81, R84, R99, R260). -/
def ctlCheck (s : State) (i : Issue) (v : Nat) : Option Status :=
  let r := sreg i.core
  let before := !i.core.committed
  match bits v 19 15 with
  | 0x00 => need (v == 0) .descInvalid
  | 0x01 | 0x02 | 0x03 => need (!lastOfBody i && targetOk i (branchTarget i.core.pc (bits v 9 0))) .descInvalid
  | 0x04 => need (bits v 14 12 == 0 && !lastOfBody i && targetOk i (bits v 11 0 : Nat)) .descInvalid
  | 0x05 => need (bits v 9 8 == 0 && !lastOfBody i && i.core.loops.length < 4 && (match i.core.loops with
      | [] => true
      | f :: _ => i.core.pc + bits v 7 0 + 1 ≤ f.last)) .descInvalid
  | 0x08 => need (bits v 10 8 == 0) .descInvalid
  | 0x09 => need (bits v 5 0 == 0) .descInvalid
  | 0x0A => firstFail [need (bits v 4 0 == 0) .descInvalid,
      need ((arrivalOf s (r (bits v 14 10)) i.part).isSome) .policyDenied]
  | 0x0B => need (bits v 11 0 == 0) .descInvalid
  | 0x0C =>
    let bcast := bit v 5
    let t := r (bits v 10 6)
    firstFail [
      need (bits v 4 0 == 0 && (if bcast then bits v 10 6 == 0 else t < i.task.size)) .descInvalid,
      need (!before || (if bcast then i.task.clusterCount == 1 else nth i.task.cores t / 16 == i.no / 16)) .policyDenied]
  | 0x0D => need (bits v 9 0 == 0) .descInvalid
  | 0x1F => need (bits v 14 0 == 0) .descInvalid
  | _ => some .descInvalid

/-! ## DMA slot checks -/

/-- The command record's bytes at the address in REC. -/
def recBytes (i : Issue) (v : Nat) : Bytes := storeBytes i.core (sreg i.core (bits v 13 9)) 32
/-- The descriptor at an address field. -/
def descAt (c : Core) (d : Nat) : Desc := decodeDesc (storeBytes c (64 * d) 64)
/-- The tensor entry that a memory view names. -/
def tensorAt (s : State) (ctx : Nat) (d : Desc) : Option Tensor := if d.space = 2 then tlook (ctxOf s ctx).table d.handle else none

/-- Descriptors that a DMA operation uses, with the mark of a destination. -/
def dmaDescs (i : Issue) (op : Nat) (r : DmaRec) : List (Desc × Bool) :=
  let src := (descAt i.core r.src, false)
  let dst := (descAt i.core r.dst, true)
  match op with
  | 1 => [src, dst]
  | 2 => [src, dst, (descAt i.core (bits r.opnd 13 0), false)]
  | 3 => [dst]
  | 4 => [src]
  | 5 => [src, dst]
  | _ => []
/-- Descriptor addresses that a DMA operation uses. -/
def dmaDescAddrs (op : Nat) (r : DmaRec) : List Nat :=
  match op with
  | 1 => [r.src, r.dst]
  | 2 => [r.src, r.dst, bits r.opnd 13 0]
  | 3 => [r.dst]
  | 4 => [r.src]
  | 5 => [r.src, r.dst]
  | _ => []

/-- The rules of R122 to R124 and R246 (row 4 of Table 5.7). -/
def dmaRow4 (i : Issue) (op : Nat) (r : DmaRec) : Bool :=
  let src := descAt i.core r.src
  let dst := descAt i.core r.dst
  let same := src.fmt == dst.fmt && src.scaled == dst.scaled && src.blkDim == dst.blkDim && src.fmt != 0xA
  match op with
  | 1 => same && r.form == 0 && src.ext == dst.ext
  | 2 =>
    let x := descAt i.core (bits r.opnd 13 0)
    let g := r.form % 4
    same && r.form < 4 && r.opnd < 2 ^ 14 && x.space == 0 && !x.other && x.fmt == 0xA
      && nth x.ext 1 == 1 && nth x.ext 2 == 1 && nth x.ext 3 == 1
      && g != src.blkDim && nth src.origin g == 0
      && (List.range 4).all (fun d => nth dst.ext d == (if d = g then nth x.ext 0 else nth src.ext d))
  | 3 => r.form < 4 && dst.fmt != 0xA
  | 4 => r.form < 4 && src.fmt != 0xA
  | 5 => !bit r.form 1 && src.fmt != 0xA && dst.fmt != 0xA
  | _ => true

/-- The task's own skim ranges on a cluster (R147): destination footprints of the prologue entries that reach it. -/
def ownSkim (t : Task) (cluster : Nat) : List (Nat × Nat) :=
  (t.pros.filter (fun p => p.mode != 0 || t.clusterAt p.dest.rank == cluster)).map
    (fun p => (p.dest.addr, p.dest.addr + p.dest.lay.footprint))
/-- Every byte from `a` up to `e` lies in one of the ranges; `n` ranges are tried. -/
def covered (rs : List (Nat × Nat)) (e : Nat) : Nat → Nat → Bool
  | 0, a => decide (e ≤ a)
  | n + 1, a => decide (e ≤ a) || (match rs.find? (fun r => r.1 ≤ a && a < r.2) with
    | some r => covered rs e n r.2
    | none => false)
/-- A local cluster-store footprint keeps out of the skim region but for the task's own skim ranges (R148). -/
def skimOk (s : State) (i : Issue) (d : Desc) : Bool :=
  d.space != 1 ||
    (let rs := ownSkim i.task (i.task.clusterAt d.rank)
     let base := 0x800000 - (partOf s i.part).skimUnits * 0x40000
     covered rs (d.addr + d.lay.footprint) rs.length (max d.addr base))

/-- Table 5.7, row by row, over the descriptors of one operation. -/
def descTable (s : State) (i : Issue) (ds : List (Desc × Bool)) (row4 : Bool) : Option Status :=
  let crew := i.task.size
  let cl := i.task.clusterCount
  firstFail [
    need (ds.all (fun d => descRow1 d.1)) .descInvalid,
    need (ds.all (fun d => descRow2 d.1 (ctxOf s i.ctx).tensors (tensorAt s i.ctx d.1))) .descInvalid,
    need (ds.all (fun d => descRow3 d.1 d.2 crew cl)) .descInvalid,
    need row4 .descInvalid,
    need (ds.all (fun d => descRow5 d.1 && skimOk s i d.1)) .descRange,
    need (ds.all (fun d => !d.2 || (match tensorAt s i.ctx d.1 with
      | some t => (keyOf s t.key).cls != 1
      | none => true))) .policyDenied]

/-- The checks of DQ0 (`q` = 0) or DQ1 (`q` = 1): R81, R99, R85, R86, Table 5.7. -/
def dqCheck (s : State) (i : Issue) (q v : Nat) : Option Status :=
  let op := bits v 17 14
  if op = 0 then need (v == 0) .descInvalid
  else
    let ra := sreg i.core (bits v 13 9)
    let tok := bits v 8 3
    let b := recBytes i v
    let r := decodeDmaRec b
    let dst := descAt i.core r.dst
    firstFail [
      need (op ≤ 5 && bits v 1 0 == 0 && ra % 32 == 0 && ra < 0xC0000) .descInvalid,
      need (i.core.committed || (op ≤ 2 && dst.space == 0 && (!dst.other || decide (dst.target < i.task.size)))) .policyDenied,
      need (!tokenPending i.core tok && (if q = 0 then tok < 28 else 28 ≤ tok && tok < 56)) .descInvalid,
      need (dmaRsvdOk b && (r.opnd2 == 0 || (op == 5 && bits r.form 3 2 == 1))
        && (dmaDescAddrs op r).all (· < 12288)) .descInvalid,
      descTable s i (dmaDescs i op r) (dmaRow4 i op r)]

/-! ## Tile slot checks (R63, R119) -/

/-- A, B, initial C and output descriptors have the extents and places of R119. -/
def tileOperand (d : Desc) (e0 e1 : Nat) : Bool :=
  d.space == 0 && !d.other && d.ext == [e0, e1, 1, 1]

/-- The descriptors that a tile operation uses, with the mark of a destination. -/
def tileDescs (c : Core) (op : Nat) (r : TileRec) : List (Desc × Bool) :=
  if op = 3 then [(descAt c r.outDesc, true)]
  else [(descAt c r.aDesc, false), (descAt c r.bDesc, false)] ++ (if op = 1 ∧ r.acc = 2 then [(descAt c r.cDesc, false)] else [])
/-- Descriptor addresses used. -/
def tileDescAddrs (op : Nat) (r : TileRec) : List Nat :=
  if op = 3 then [r.outDesc] else [r.aDesc, r.bDesc] ++ (if op = 1 ∧ r.acc = 2 then [r.cDesc] else [])

/-- An output format of R119: FP32, or a Table 2.4 target with its block dimension and rounding. -/
def outFormatOk (d : Desc) : Bool :=
  (if d.fmt = 0 then !d.scaled else convRow d.fmt d.scaled)
    && (!d.scaled || d.blkDim ≤ 1) && (!d.round || (d.fmt != 0 && d.fmt != 8))

/-- The record-level checks of R63, and those on the descriptors the operation uses. -/
def tileRecCheck (c : Core) (op ra : Nat) : Bool :=
  let b := storeBytes c ra 32
  let r := decodeTile b
  ra % 32 == 0 && ra < 0xC0000 && tileRsvdOk b && r.acc != 3 && r.base + r.m * r.n ≤ 65536
    && (tileDescAddrs op r).all (· < 12288)
    && (if op = 3 then true else
        fmtEngine (descAt c r.aDesc).fmt && fmtEngine (descAt c r.bDesc).fmt
          && (descAt c r.aDesc).ext == [r.k, r.m, 1, 1] && (descAt c r.bDesc).ext == [r.n, r.k, 1, 1])
    && (op != 3 || (descAt c r.outDesc).ext == [r.n, r.m, 1, 1])
    && (!(op == 1 && r.acc == 2) || ((descAt c r.cDesc).fmt ≤ 1 && (descAt c r.cDesc).ext == [r.n, r.m, 1, 1]))
    && (!(op == 1 && r.preload) || c.lastStage == some ra)

/-- R119 on the descriptors the operation uses (row 4 of Table 5.7). -/
def tileRow4 (c : Core) (op : Nat) (r : TileRec) : Bool :=
  if op = 3 then
    let o := descAt c r.outDesc
    tileOperand o r.n r.m && outFormatOk o
  else
    tileOperand (descAt c r.aDesc) r.k r.m && (descAt c r.aDesc).blkDim == 0
      && tileOperand (descAt c r.bDesc) r.n r.k && (descAt c r.bDesc).blkDim == 1
      && (!(op == 1 && r.acc == 2) || tileOperand (descAt c r.cDesc) r.n r.m)

/-- The checks of the TIL slot. -/
def tilCheck (s : State) (i : Issue) (v : Nat) : Option Status :=
  let op := bits v 9 7
  let ra := sreg i.core (bits v 6 2)
  match op with
  | 0 => need (v == 0) .descInvalid
  | 1 | 2 | 3 =>
    let r := decodeTile (storeBytes i.core ra 32)
    firstFail [need (bits v 1 0 == 0) .descInvalid, need (tileRecCheck i.core op ra) .descInvalid,
      descTable s i (tileDescs i.core op r) (tileRow4 i.core op r)]
  | 4 => need (bits v 6 2 == 0 && bits v 1 0 != 3) .descInvalid
  | _ => some .descInvalid

/-! ## Vector and scalar slot checks -/

/-- Latency and interval of a VA operation (Table 4.8). -/
def vaTiming (op : Nat) : Nat × Nat :=
  if op = 0x39 then (14, 1) else if op = 0x3A then (9, 1)
  else match op % 0x20 with
    | 0x01 | 0x02 | 0x03 => (4, 1)
    | 0x04 => (5, 1)
    | 0x05 | 0x06 | 0x07 | 0x08 | 0x09 | 0x0A => (2, 1)
    | 0x0B | 0x0C => (12, 4)
    | 0x0D | 0x0E => (8, 2)
    | 0x0F | 0x11 => (10, 2)
    | 0x10 | 0x12 => (8, 2)
    | 0x13 | 0x14 | 0x17 => (14, 4)
    | 0x15 | 0x16 => (12, 2)
    | 0x18 => (14, 2)
    | 0x19 => (12, 1)
    | 0x1A => (8, 1)
    | 0x1B | 0x1C => (6, 1)
    | 0x1D => (4, 1)
    | _ => (24, 4)

/-- A VA operation that ignores B (Table 4.8). -/
def vaSingle (op : Nat) : Bool :=
  (0x0C ≤ op && op ≤ 0x1A) || (0x2C ≤ op && op ≤ 0x38) || op == 0x39 || op == 0x3A

/-- The checks of the VA slot (R81, R88 to R90). -/
def vaCheck (i : Issue) (v : Nat) : Option Status :=
  let op := bits v 20 15
  let b := bits v 4 0
  let fmt := sreg i.core b
  if op = 0 ∨ op = 0x20 then need (bits v 14 0 == 0) .descInvalid
  else if op > 0x3A then some .descInvalid
  else if vaSingle op then need (b == 0) .descInvalid
  else if op = 0x1B ∨ op = 0x1D then need (fmt < 32 && convRow (fmt % 16) (bit fmt 4)) .descInvalid
  else if op = 0x1C then need (fmt < 32 && convRow (fmt % 16) (bit fmt 4) && fmt % 16 != 8) .descInvalid
  else if op = 0x1E then need (b % 2 == 0 && b ≤ 30) .descInvalid
  else if op = 0x1F then need (b ≤ 29) .descInvalid
  else none

/-- A vector access address: 256-byte aligned and inside the core store. -/
def vecAddrOk (a : Nat) : Bool := a % 256 == 0 && a < 0xC0000

/-- The checks of the VM slot (Table 4.9, R95). A VLD or VST address S[A] + B × 256 beyond 2^32 is outside the core store and
does not wrap (DESIGN CHOICE: R91 makes the SCA slot's arithmetic modulo 2^32, R88 says nothing of the VM slot's). -/
def vmCheck (i : Issue) (v : Nat) : Option Status :=
  let d := bits v 14 10
  let a := bits v 9 5
  let b := bits v 4 0
  let r := sreg i.core
  match bits v 20 15 with
  | 0x00 => need (v == 0) .descInvalid
  | 0x01 | 0x02 => need (vecAddrOk (r a + b * 256)) .descInvalid
  | 0x03 | 0x04 | 0x06 => need (b == 0) .descInvalid
  | 0x05 => none
  | 0x07 => need (vecAddrOk (r b) && r d < i.task.size && nth i.task.cores (r d) / 16 == i.no / 16) .descInvalid
  | _ => some .descInvalid

/-- The address of an SLD or SST: S[A] + B × 4 modulo 2^32 (R91). -/
def scaAddr (c : Core) (v : Nat) : Nat := (sreg c (bits v 9 5) + bits v 4 0 * 4) % 2 ^ 32

/-- The checks of the SCA slot (Table 4.10). -/
def scaCheck (i : Issue) (v : Nat) : Option Status :=
  let a := bits v 9 5
  let b := bits v 4 0
  let addr := scaAddr i.core v
  match bits v 19 15 with
  | 0x00 => need (v == 0) .descInvalid
  | 0x10 | 0x11 => need (addr % 4 == 0 && addr < 0xC0000) .descInvalid
  | 0x12 | 0x13 => need (b == 0) .descInvalid
  | 0x14 => need (b == 0 && a < 16) .descInvalid
  | op => need (op ≤ 0x0F) .descInvalid

/-- Every issue-time check of a bundle in the order of R487: the first failure decides. -/
def bundleCheck (s : State) (i : Issue) (w : Slots) : Option Status :=
  firstFail [ctlCheck s i w.ctl, dqCheck s i 0 w.dq0, dqCheck s i 1 w.dq1, tilCheck s i w.til, vaCheck i w.va, vmCheck i w.vm, scaCheck i w.sca]

/-! ## Departures from one bundle per cycle (Table 4.11) -/

/-- Entries of the array path that stall bundle issue in core cycle `now` (R72): those in use, and, for a bundle that stalled
before, those that free in this very cycle, since it issues in the cycle after. A bundle whose first issue cycle is the one in
which an entry frees has not stalled and finds it free (DESIGN CHOICE: R72 speaks of a bundle that stalls). -/
def arrayBlocked (c : Core) (now : Nat) : Nat :=
  if c.nextIssue < now then arrayUsed c (now - 1) + (if c.arrayFree = now then 1 else 0) else arrayUsed c now
/-- The same of the drain path, with the same choice. -/
def drainBlocked (c : Core) (now : Nat) : Nat :=
  c.drainPath.length + (if c.nextIssue < now ∧ c.drainFree = now then 1 else 0)

/-- The bundle cannot issue in core cycle `now`: a VA interval, the 16 cycles of MESH_PUT, or a full tile path. -/
def stalled (i : Issue) (w : Slots) (now : Nat) : Bool :=
  let c := i.core
  let va := bits w.va 20 15
  let til := bits w.til 9 7
  let tile := decodeTile (storeBytes c (sreg c (bits w.til 6 2)) 32)
  let target := nth i.task.cores (sreg c (bits w.vm 14 10))
  let lastV := tget 0 c.lastVa va
  let lastP := tget 0 c.lastPut target
  (va != 0 && va != 0x20 && lastV != 0 && now + 1 < lastV + (vaTiming va).2)
  || (bits w.vm 20 15 == 7 && lastP != 0 && now + c.held + 1 < lastP + 16)
  || ((til == 1 || til == 2 || til == 4) && arrayBlocked c now ≥ 3)
  || (til == 3 && drainBlocked c now ≥ 3)
  || (til == 1 && tile.acc == 2 && drainBlocked c now ≥ 3)

/-! ## Effects -/

/-- Adds a result that lands after `lat` cycles. -/
def later (c : Core) (now lat : Nat) (r : RegName) (v : BitVec 2048) : Core := { c with pend := c.pend ++ [.reg (now + lat) r v] }

/-- Leaves the bundle that ends at index `e`: closes or repeats every body that ends there (R84). -/
def leaveBundle : List LoopFrame → Nat → Nat × List LoopFrame
  | [], e => (e + 1, [])
  | f :: l, e =>
    if f.last = e then
      if f.left = 0 then leaveBundle l e else (f.first, { f with left := f.left - 1 } :: l)
    else (e + 1, f :: l)

/-- Where the CTL slot sends bundle issue: next index, loop frames, and cycles until it issues. -/
def ctlNext (c : Core) (v : Nat) : Nat × List LoopFrame × Nat :=
  let r := sreg c (bits v 14 10)
  let straight := let (n, l) := leaveBundle c.loops c.pc; (n, l, 1)
  let taken := ((branchTarget c.pc (bits v 9 0)).toNat, c.loops, 3)
  match bits v 19 15 with
  | 0x01 => if r = 0 then taken else straight
  | 0x02 => if r ≠ 0 then taken else straight
  | 0x03 => if 2 ^ 31 ≤ r then taken else straight
  | 0x04 => (bits v 11 0, c.loops, 3)
  | 0x05 =>
    let n := bits v 7 0 + 1
    if r = 0 then let (nx, l) := leaveBundle c.loops (c.pc + n); (nx, l, 3)
    else (c.pc + 1, ⟨c.pc + 1, c.pc + n, r - 1⟩ :: c.loops, 1)
  | _ => straight

/-- The wait that a CTL slot issues. -/
def ctlWait (c : Core) (v : Nat) : Option Wait :=
  match bits v 19 15 with
  | 0x08 => some (.tok (bit v 14) (bits v 13 11) (bits v 7 0))
  | 0x09 => some (.sig (bits v 14 11) (BitVec.ofNat 32 (sreg c (bits v 10 6))))
  | 0x0A => some (.arr (sreg c (bits v 14 10)) (BitVec.ofNat 32 (sreg c (bits v 9 5))))
  | 0x0B => some (.sync (bits v 14 12))
  | 0x1F => some .fin
  | _ => none

/-- Sequence numbers of a core's incomplete COPYs and GATHERs to another core's store (R96, R126). -/
def copiesTo (i : Issue) (target : Nat) : List Nat :=
  (i.core.dma.filter (fun o => o.op ≤ 2 && placeOf i.task i.no o.dst o.dstT == .core target)).map (·.seq)

/-- A SIGNAL to one core, issued in cluster cycle `now` (R96): 24 cycles within the cluster, no fixed latency across clusters. -/
def sendSignal (s : State) (i : Issue) (now counter target : Nat) : State :=
  let near := target / 16 == i.no / 16
  let after := (s.puts.filter (fun p => p.sender == i.no && p.target == target)).foldl (fun m p => max m (p.land + 1)) 0
  { s with signals := s.signals ++ [
    { sender := i.no, target := target, counter := counter, task := i.core.task.getD default,
      due := if near then max (now + 24) after else 0, before := i.core.putSeq,
      afterCopies := if near then [] else copiesTo i target }] }

/-- The CTL slot's effects but for the sequence of bundles: SIGNAL, SET_FLAG and the count of a CREW_SYNC. -/
def ctlEffect (s : State) (i : Issue) (now v : Nat) : State :=
  match bits v 19 15 with
  | 0x0B => modCore s i.no (fun c => { c with synced := tput 0 c.synced (bits v 14 12) (tget 0 c.synced (bits v 14 12) + 1) })
  | 0x0C =>
    let now := now + i.core.held
    if bit v 5 then (i.task.cores.filter (· != i.no)).foldl (fun s t => sendSignal s i now (bits v 14 11) t) s
    else sendSignal s i now (bits v 14 11) (nth i.task.cores (sreg i.core (bits v 10 6)))
  | 0x0D =>
    let f := bits v 14 11
    modCore s i.no (fun c =>
      { c with flags := if bit v 10 then c.flags ||| BitVec.ofNat 16 (2 ^ f) else c.flags &&& (~~~ BitVec.ofNat 16 (2 ^ f)) })
  | _ => s

/-- What completes a Lath operation at issue (R246, R252): the first condition that holds. -/
def lathAtIssue (s : State) (ctx : Nat) (r : DmaRec) (op : Nat) : Option Status :=
  let n := nodeOf s (gaNode r.opnd)
  if !n.member then some .staleEpoch
  else if !portLive s n.portMask then some .linkDown
  else if op = 5 ∧ bits r.form 3 2 = 2 ∧ !s.fab.plumb.locked then some .notReady
  else if (lathActive s (ctxOf s ctx).session).isNone then some .policyDenied
  else none

/-- A source under a decrypt-only key index cannot go to device memory or, by a Lath put, to another module: the operation
completes with POLICY_DENIED when it issues (R376). A LATH_ATOMIC whose SRC_DESC names its operand under such a key runs: R376
names the Lath put alone (DESIGN CHOICE; R249 takes 8 bytes from SRC_DESC and sends them in the request). -/
def readOnlySource (s : State) (op : Nat) (srcT : Option Tensor) (dst : Desc) : Bool :=
  match srcT with
  | some e => (keyOf s e.key).cls == 1 && (((op == 1 || op == 2) && dst.space == 2) || op == 4)
  | none => false

/-- A DMA slot's effect (R85, R86, R114, R246): the operation joins its queue with the record, descriptors and tensor
entries as they stand, and its token becomes PENDING. -/
def dqEffect (s : State) (i : Issue) (v : Nat) : State :=
  let op := bits v 17 14
  if op = 0 then s
  else
    let r := decodeDmaRec (recBytes i v)
    let src := if op = 3 then default else descAt i.core r.src
    let dst := if op = 4 then default else descAt i.core r.dst
    let tok := bits v 8 3
    match (if readOnlySource s op (if op = 3 then none else tensorAt s i.ctx src) dst then some .policyDenied
      else if op ≥ 3 then lathAtIssue s i.ctx r op else none) with
    | some st => modCore s i.no (fun c => setToken c tok (.done st))
    | none =>
      modCore s i.no (fun c =>
        let o : DmaOp :=
        { op := op, token := tok, fence := bit v 2, seq := c.dmaSeq, started := false, form := r.form,
          src := src, dst := dst, idx := if op = 2 then descAt i.core (bits r.opnd 13 0) else default,
          srcT := if op = 3 then none else tensorAt s i.ctx src, dstT := if op = 4 then none else tensorAt s i.ctx dst,
          operand := r.opnd, operand2 := r.opnd2, xids := [], unsent := [],
          key := if op ≥ 3 then (lathActive s (ctxOf s i.ctx).session).getD 0 else 0, issuedNs := s.ns, issuedAt := clusterCycle s i.no, failed := none,
          precommit := !i.core.committed }
        { setToken c tok .pending with dma := c.dma ++ [o], dmaSeq := c.dmaSeq + 1 })

/-- The TIL slot's effect (R61, R64, R72): the operation takes its path entries. -/
def tilEffect (c : Core) (v now : Nat) : Core :=
  let op := bits v 9 7
  let ra := sreg c (bits v 6 2)
  let r := decodeTile (storeBytes c ra 32)
  let arr : ArrayOp :=
   { kind := op, recAddr := ra, tile := r, descs := (tileDescs c op r).map (·.1), gang := bits v 1 0,
     issue := now, phase := .queued, start := 0, pass := 0, summed := 0, fill := if op = 1 ∧ r.acc = 2 then 0 else 2, fillAt := 0 }
  let drn : DrainOp :=
   { isFill := op != 3, recAddr := ra, tile := r, desc := descAt c (if op = 3 then r.outDesc else r.cDesc),
     issue := now, running := false, start := 0 }
  match op with
  | 1 => { c with arrayPath := c.arrayPath ++ [arr], drainPath := if r.acc = 2 then c.drainPath ++ [drn] else c.drainPath,
                  lastStage := none }
  | 2 => { c with arrayPath := c.arrayPath ++ [arr], lastStage := some ra }
  | 3 => { c with drainPath := c.drainPath ++ [drn] }
  | 4 => { c with arrayPath := c.arrayPath ++ [{ arr with tile := default, recAddr := 0, descs := [] }], lastStage := none }
  | _ => c

/-- The value of a VA operation. -/
def vaValue (c : Core) (v : Nat) : BitVec 2048 :=
  let op := bits v 20 15
  let d := xreg c (bits v 14 10)
  let a := xreg c (bits v 9 5)
  let bn := bits v 4 0
  let f := sreg c bn
  match op with
  | 0x1B => cvtReg (f % 16) (bit f 4) none a
  | 0x1C => cvtReg (f % 16) (bit f 4) (some (lanes 32 64 d)) a
  | 0x1D => widenReg (f % 16) (bit f 4) a
  | 0x1E => philoxReg a (sreg c bn) (sreg c (bn + 1))
  | 0x1F => srwordReg a (sreg c bn) (sreg c (bn + 1)) (sreg c (bn + 2))
  | _ => vaArith op a (xreg c bn) d

/-- The VA slot's effect: `c0` is the core at the start of the cycle. -/
def vaEffect (c0 c : Core) (v now : Nat) : Core :=
  let op := bits v 20 15
  if op = 0 ∨ op = 0x20 then c
  else { later c now (vaTiming op).1 (.x (bits v 14 10)) (vaValue c0 v) with lastVa := tput 0 c.lastVa op (now + 1) }

/-- The VM slot's effect on the core. A VLD reads the store as the issue cycle finds it, also where it lost its bank and port F holds
the core (DESIGN CHOICE, with SLD in scaValue: R94 delays the core and does not say which cycle the read then takes). -/
def vmEffect (c0 c : Core) (v now : Nat) : Core :=
  let d := bits v 14 10
  let a := bits v 9 5
  let b := bits v 4 0
  let r := sreg c0
  match bits v 20 15 with
  | 0x01 => later c now 6 (.x d) (bytesReg (storeBytes c0 (r a + b * 256) 256))
  | 0x02 => { c with pend := c.pend ++ [.bytes (now + 4) (r a + b * 256) (regBytes (xreg c0 d))] }
  | 0x03 => later c now 1 (.x d) (xreg c0 a)
  | 0x04 => later c now 2 (.x d) (packLanes 32 (List.replicate 64 (r a)))
  | 0x05 => later c now 3 (.s d) (BitVec.ofNat 2048 (nth (lanes 32 64 (xreg c0 a)) (r b % 64)))
  | 0x06 => later c now 2 (.x d) (packLanes 32 ((List.range 64).map (fun i => (r a + i) % 2 ^ 32)))
  | _ => c

/-- MESH_PUT (R95): the bytes go on their way, in cluster cycles, which port F does not hold. -/
def putEffect (s : State) (i : Issue) (v now : Nat) : State :=
  if bits v 20 15 = 7 then
    let now := now + i.core.held
    let target := nth i.task.cores (sreg i.core (bits v 14 10))
    let s := modCore s i.no (fun c => { c with lastPut := tput 0 c.lastPut target (now + 1), putSeq := c.putSeq + 1 })
    { s with puts := s.puts ++ [
      { sender := i.no, target := target, crewIndex := i.core.crewIndex,
        addr := sreg i.core (bits v 4 0), data := xreg i.core (bits v 9 5), land := now + 24, seq := i.core.putSeq }] }
  else s

/-- A task state item (R91). -/
def stateItem (i : Issue) (n : Nat) : Nat :=
  let cl := i.no / 16
  let locals := (i.task.place.filter (fun p => p.1 == cl)).flatMap (·.2)
  match n with
  | 0 => i.core.crewIndex
  | 1 => i.task.size
  | 2 => i.task.rankOf cl
  | 3 => i.task.clusterCount
  | 4 => locals.idxOf (i.no % 16)
  | 5 => locals.length
  | _ => if 8 ≤ n ∧ n < 16 then ((i.task.args.getD (n - 8) 0)).toNat else 0

/-- Value and latency of a scalar operation that writes S[D] (Table 4.10). -/
def scaValue (i : Issue) (v : Nat) : Option (Nat × Nat) :=
  let c := i.core
  let d := sreg c (bits v 14 10)
  let a := sreg c (bits v 9 5)
  let an := bits v 9 5
  let b := sreg c (bits v 4 0)
  let bn := bits v 4 0
  let m := 2 ^ 32
  match bits v 19 15 with
  | 0x01 => some ((a + b) % m, 1)
  | 0x02 => some ((a + m - b) % m, 1)
  | 0x03 => some (a &&& b, 1)
  | 0x04 => some (a ||| b, 1)
  | 0x05 => some (a ^^^ b, 1)
  | 0x06 => some (a * 2 ^ (b % 32) % m, 1)
  | 0x07 => some (a / 2 ^ (b % 32), 1)
  | 0x08 => some (((BitVec.ofNat 32 a).sshiftRight (b % 32)).toNat, 1)
  | 0x09 => some (b2n (decide (sext 32 a < sext 32 b)), 1)
  | 0x0A => some (b2n (decide (a < b)), 1)
  | 0x0B => some (a * b % m, 3)
  | 0x0C => some (a * b / m, 3)
  | 0x0D => some ((((a : Int) + sext 5 bn) % (m : Int)).toNat, 1)
  | 0x0E => some ((sext 10 (bits v 9 0) % (m : Int)).toNat, 1)
  | 0x0F => some ((d * 1024 % m) ||| bits v 9 0, 1)
  | 0x10 => some (le (storeBytes c (scaAddr c v) 4) 0 4, 4)
  | 0x12 => some (stateItem i an, 2)
  | 0x13 => some (tokenWord (tokenOf c (a % 64)), 2)
  | 0x14 => some ((tget 0 c.signals an).toNat, 2)
  | _ => none

/-- The SCA slot's effect. -/
def scaEffect (i : Issue) (c : Core) (v now : Nat) : Core :=
  match scaValue i v with
  | some (x, lat) => later c now lat (.s (bits v 14 10)) (BitVec.ofNat 2048 x)
  | none =>
    if bits v 19 15 = 0x11 then
      { c with pend := c.pend ++ [.bytes (now + 3) (scaAddr i.core v) (leBytes 4 (sreg i.core (bits v 14 10)))] }
    else c

/-- Banks that the VM and SCA slots of a bundle use over port F (R93): a VLD or VST and an SLD or SST. -/
def slotBanks (c : Core) (w : Slots) : List Nat :=
  let vm := bits w.vm 20 15
  let sc := bits w.sca 19 15
  (if vm == 1 || vm == 2 then [(sreg c (bits w.vm 9 5) + bits w.vm 4 0 * 256) / 0x8000] else [])
    ++ (if sc == 0x10 || sc == 0x11 then [scaAddr c w.sca / 0x8000] else [])
/-- A VLD or VST and an SLD or SST of one bundle need port F of the same bank (R94): the second loses. -/
def portFLost (c : Core) (w : Slots) : Bool :=
  match slotBanks c w with
  | [a, b] => a == b
  | _ => false

/-- Every slot of a valid bundle takes effect in cycle `now` (R80): DMA, tile, vector and scalar slots, then where
bundle issue goes next. -/
def bundleEffect (s : State) (i : Issue) (w : Slots) (now : Nat) : State :=
  let c := i.core
  let s := setCore s i.no { c with bundles := satAdd 32 c.bundles 1 }
  let s := ctlEffect s i now w.ctl
  let s := dqEffect s i w.dq0
  let s := dqEffect s i w.dq1
  let s := putEffect s i w.vm now
  let s := modCore s i.no (fun d =>
    let d := tilEffect d w.til now
    let d := vaEffect c d w.va now
    let d := vmEffect c d w.vm now
    let d := scaEffect i d w.sca now
    let (pc, loops, gap) := ctlNext c w.ctl
    { d with pc := pc, loops := loops, nextIssue := now + gap, wait := ctlWait c w.ctl, arrived := now + c.held,
             portUse := some (now, slotBanks c w) })
  let s := if portFLost c w then
      let s := modCore s i.no (holdCore (now + c.held) 1)
      modCluster s (i.no / 16) (fun k => { k with portF := satAdd 32 k.portF 1 })
    else s
  -- a WAIT_TOK sees the DQ slots of its own bundle as issued: a token that one of them bound is PENDING (DESIGN CHOICE: R97 does
  -- not say which comes first in the cycle); a condition that already holds releases at once (R97), but CREW_SYNC and END have their own release steps
  match ctlWait c w.ctl with
  | none => s
  | some (.sync _) => s
  | some .fin => s
  | some wt => if waitHolds s i.no wt && mayCommit s i.no then releaseWait s i.no (coreOf s i.no).nextIssue else s

/-- What the checks and effects of the core's next bundle read; none where the core has no task of a loaded plan. -/
def issueOf (s : State) (core : Nat) : Option Issue :=
  let c := coreNow s core
  match c.task with
  | none => none
  | some r =>
    match planOf s r.queue, taskOf s r with
    | some p, some t => some { core := c, no := core, task := t, ctx := p.ctx, part := (ctxOf s p.ctx).partition, len := c.image.length }
    | _, _ => none

/-- The core can issue in this cycle: bundle issue runs, no wait holds it, its cycle has come. -/
def canIssue (s : State) (core : Nat) : Bool :=
  let c := coreOf s core
  let k := clusterOf s (core / 16)
  c.issuing && c.wait.isNone && !c.ended && c.result.isNone && k.clock && !stoppedBefore s core && c.nextIssue ≤ cycleOf s core

/-- BUNDLE_ISSUE: the core issues its next bundle in the present cycle; a core that is not ready to issue, or stalls, does
not. -/
def execBundleIssue (core : Nat) (s : State) : Host.Outcome State Fault Refusal :=
  match issueOf s core with
  | none => .next s
  | some i =>
    if !canIssue s core then .next s
    else
      let now := cycleOf s core
      match i.core.image[i.core.pc]? with
      | none => .next (endByCore s core .descInvalid)   -- past the last bundle without END (R81)
      | some b =>
        let w := slotsOf b
        match bundleCheck s i w with
        | some st => if stalled i w now then .next s else .next (endByCore s core st)
        | none => if stalled i w now then .next s else .next (bundleEffect s i w now)

end Sys2Proof.Machine
end

