-- ==== Sys2Proof/Machine/Sched.lean ====
section
/-! DEFINITION. The graph scheduler's data (chapter 06): decoding and checking a plan, resolving edges, bypasses, halts and
squashes, completion of a plan, placement, and the entry of a crew into a cluster. -/

namespace Sys2Proof.Machine
open Sys2Proof

/-! ## Decoding (Tables 6.1 to 6.4) -/

/-- A plan header. -/
structure PlanHead where
  ok       : Bool      -- every field keeps Table 6.1
  tasks    : Nat
  edges    : Nat
  pros     : Nat
  watchdog : Nat
  limit    : Nat
  taskOff  : Nat
  edgeOff  : Nat
  proOff   : Nat
  statOff  : Nat
  flags    : Nat
  deriving DecidableEq, Repr, Inhabited

/-- Two byte ranges meet. -/
def rangesMeet (a n b m : Nat) : Bool := n != 0 && m != 0 && a < b + m && b < a + n

/-- Decodes the 64-byte header (R127, R128, Table 6.7). -/
def decodeHead (b : Bytes) : PlanHead :=
  let w := word b
  let t := bits (w 2) 14 0
  let e := bits (w 3) 16 0
  let p := bits (w 4) 16 0
  let rs := [(0, 64), (w 7, 64 * t), (w 8, 16 * e), (w 9, 192 * p), (w 10, 4 * t)]
  let apart := (List.range 5).all (fun i => (List.range i).all (fun j =>
    let x := rs.getD i (0, 0); let y := rs.getD j (0, 0); !rangesMeet x.1 x.2 y.1 y.2))
  { ok := w 0 == 0x5A504C31 && w 1 == 1 && bits (w 2) 31 15 == 0 && bits (w 3) 31 17 == 0 && bits (w 4) 31 17 == 0
      && bits (w 5) 31 24 == 0 && bits (w 6) 31 16 == 0 && w 11 == 0 && le b 56 8 == 0
      && 1 ≤ t && t ≤ 16384 && e ≤ 65536 && p ≤ 65536
      && w 7 % 64 == 0 && w 8 % 64 == 0 && w 9 % 64 == 0 && w 10 % 64 == 0 && apart
    tasks := t, edges := e, pros := p, watchdog := bits (w 5) 23 0, limit := bits (w 6) 15 0,
    taskOff := w 7, edgeOff := w 8, proOff := w 9, statOff := w 10, flags := le b 48 8 }

/-- Decodes an edge record. -/
def decodeEdge (b : Bytes) : Edge :=
  let w := word b
  { type := bits (w 0) 1 0, pol := bit (w 0) 2, predict := bit (w 0) 3, flag := bits (w 0) 9 4, src := bits (w 0) 29 16,
    counter := bits (w 1) 15 0, threshold := BitVec.ofNat 32 (w 2), resolved := none }
/-- An edge record keeps Table 6.3: reserved fields and fields its type does not use are 0. -/
def edgeOk (b : Bytes) : Bool :=
  let w := word b
  let ty := bits (w 0) 1 0
  bits (w 0) 15 10 == 0 && bits (w 0) 31 30 == 0 && bits (w 1) 31 16 == 0 && w 3 == 0 && ty != 3
    && (ty == 1 || bits (w 0) 9 2 == 0)
    && (ty == 2 || (w 1 == 0 && w 2 == 0)) && (ty != 2 || bits (w 0) 29 16 == 0)

/-- Decodes a prologue entry. -/
def decodePro (b : Bytes) : Prologue :=
  { mode := bits (word b 0) 1 0, rdim := bits (word b 0) 3 2, source := decodeDesc (slice b 64 64), dest := decodeDesc (slice b 128 64) }
/-- A prologue entry keeps Table 6.4, and its descriptors the parts of R116, R117, R122 and R123 that do not depend on the
tensor table; its destination lies wholly inside the skim region (R131, R133). DESIGN CHOICE (log entry 24): a destination that
breaks only the 64-byte alignment of R110 is rejected here too; R133 does not name R110, and the load would fail at its issue. -/
def proOk (b : Bytes) (skimBytes : Nat) : Bool :=
  let p := decodePro b
  let d := p.dest
  let sr := p.source
  bits (word b 0) 31 4 == 0 && (List.range 15).all (fun i => word b (i + 1) == 0) && p.mode != 3
    && (p.mode == 0 || d.rank == 0)
    && descRow1 sr && descRow1 d && sr.space == 2 && d.space == 1
    && nth sr.origin sr.blkDim % 32 == 0
    && (p.mode != 2 || p.rdim != sr.blkDim || nth sr.ext p.rdim % 32 == 0)
    && d.lay.aligned && d.lay.nonOverlap
    && sr.fmt == d.fmt && sr.scaled == d.scaled && sr.blkDim == d.blkDim && sr.fmt != 0xA && sr.ext == d.ext
    && 0x800000 - skimBytes ≤ d.addr && d.addr + d.lay.footprint ≤ 0x800000

/-- IN_FIRST, IN_COUNT, PRO_FIRST and NPRO of a task record. -/
def taskRanges (b : Bytes) : Nat × Nat × Nat × Nat :=
  let w := word b
  (bits (w 2) 15 0, bits (w 1) 24 16, bits (w 2) 31 16, bits (w 0) 7 4)
/-- A task record keeps Table 6.2 and R133. -/
def taskOk (b : Bytes) : Bool :=
  let w := word b
  let kind := bits (w 0) 1 0
  let crew := bits (w 0) 14 8
  let unit := bits (w 0) 2 2
  let mask := bits (w 1) 15 0
  bits (w 0) 15 15 == 0 && bits (w 0) 31 22 == 0 && bits (w 1) 31 25 == 0 && bits (w 1) 24 16 ≤ 256 && w 3 == 0
    && bits (w 5) 31 16 == 0 && w 6 == 0 && w 7 == 0
    && (List.range 16).all (fun i => !bit mask i || bits (w 0) 21 16 + i ≤ 63)
    && (if kind = 0 then 1 ≤ crew && crew ≤ (if unit = 1 then 64 else 16) && bits (w 0) 7 4 ≤ 8 && le b 16 8 % 64 == 0
        else bits (w 0) 14 2 == 0 && le b 16 8 == 0)
/-- Decodes a task record with its edges and prologue entries. -/
def decodeTask (b : Bytes) (edges : List Edge) (pros : List Prologue) : Task :=
  let w := word b
  { kind := bits (w 0) 1 0, unit := bits (w 0) 2 2, skim := bit (w 0) 3, crew := bits (w 0) 14 8, flagBase := bits (w 0) 21 16,
    flagMask := bits (w 1) 15 0, image := le b 16 8, args := (List.range 8).map (fun i => BitVec.ofNat 32 (w (8 + i))),
    edges := edges, pros := pros, state := .blocked, status := .notReady, won := false, place := [], entered := [], admitted := false, loads := [], held := none, faultVa := none,
    runSince := 0, resolved := none, stop := none, flags := 0, digest := 0, opSeq := 0 }

/-! ## Edges (R135 to R138) -/

/-- The task counts as completed for its successors (R136, R138). -/
def Task.passed (t : Task) : Bool := t.state == .bypassed || (t.state == .done && t.status.success)
/-- A final state (Table 6.5). -/
def Task.final (t : Task) : Bool := t.state == .done || t.state == .bypassed || t.state == .notRun

/-- One edge, against the tasks before it, the plan flags and the arrival counters. -/
def stepEdge (s : State) (part : Nat) (flags : BitVec 64) (before : List Task) (e : Edge) : Edge :=
  if e.resolved.isSome then e
  else if e.type = 2 then
    match arrivalOf s e.counter part with
    | some v => if reached v e.threshold then { e with resolved := some true } else e
    | none => e
  else match before[e.src]? with
    | some t =>
      if t.passed then { e with resolved := some (e.type == 0 || (bit flags.toNat e.flag == e.pol)) } else e
    | none => e

/-- Every data and conditional edge has resolved. -/
def Task.localDone (t : Task) : Bool := t.edges.all (fun e => e.type == 2 || e.resolved.isSome)
/-- A conditional edge resolved not taken. -/
def Task.notTaken (t : Task) : Bool := t.edges.any (fun e => e.resolved == some false)
/-- Every edge is satisfied or taken. -/
def Task.allTaken (t : Task) : Bool := t.edges.all (fun e => e.resolved == some true)

/-- One task of the sweep: its edges, and then its state if it waits (R137, R138). -/
def stepTask (s : State) (part : Nat) (flags : BitVec 64) (before : List Task) (t : Task) : Task :=
  let t := if t.final then t else { t with edges := t.edges.map (stepEdge s part flags before) }
  let t := if t.resolved.isNone && t.localDone then { t with resolved := some s.ns } else t
  match t.state with
  | .blocked =>
    if t.localDone && t.notTaken then { t with state := .bypassed, status := .ok }
    else if t.allTaken then { t with state := .ready } else t
  | .ahead => if t.allTaken then { t with state := if t.entered.isEmpty then .ready else .running, runSince := s.ns } else t
  | _ => t

/-- The ascending sweep over a plan's tasks: edges of lower tasks are resolved before those of higher ones (R135). -/
def sweep (s : State) (part : Nat) (flags : BitVec 64) : List Task → List Task → List Task
  | before, [] => before
  | before, t :: rest => sweep s part flags (before ++ [stepTask s part flags before t]) rest

/-! ## Status words, squash, halt and plan completion -/

/-- Changes the plan of a queue, where there is one. -/
def modPlan (s : State) (q : Nat) (f : Plan → Plan) : State :=
  match planOf s q with | some p => setPlan s q (f p) | none => s
/-- Writes status word `t` (R132): a failed write halts the plan with its status, and its address is kept (R201). -/
def writeStatus (s : State) (q t : Nat) (st : Status) (bypassed : Bool) : Status × State :=
  match planOf s q with
  | some p =>
    let va := p.statusAt + 4 * t
    let (wst, s) := vwrite s p.ctx p.key va (leBytes 4 (statusCode st + b2n bypassed * 2 ^ 16)) false
    (wst, if wst = .ok then s else modPlan s q (fun p => { p with wordVa := some (p.wordVa.getD va) }))
  | none => (.ok, s)

/-- Releases what a task has reserved and not entered (R144, R150). -/
def releaseReserved (s : State) (r : TaskRef) : State :=
  { s with clusters := s.clusters.map (fun p => if p.2.reserved = some r then (p.1, { p.2 with reserved := none }) else p) }

/-- Squashes an AHEAD task (R150): started cores stop, unstarted clusters never receive it. -/
def squash (s : State) (r : TaskRef) (dest : TState) : State :=
  let s := beginStop s r .squashed
  let s := modTask s r (fun t => { t with state := dest, held := none })
  let s := releaseReserved s r
  { s with regs := { s.regs with squash := satAdd 32 s.regs.squash 1 } }

/-- Task indices in a state. -/
def tasksIn (p : Plan) (st : TState) : List Nat := (List.range p.tasks.length).filter (fun i => (p.tasks[i]?).any (fun (t : Task) => t.state == st))

/-- Halts a plan (R139): AHEAD tasks are squashed, BLOCKED and READY tasks become NOT_RUN; the first failure's status and
index stand. -/
def haltPlan (s : State) (q : Nat) (st : Status) (culprit : Option Nat) : State :=
  match planOf s q with
  | none => s
  | some p =>
    if p.halted.isSome then s
    else
      let s := setPlan s q { p with halted := some st, culprit := culprit }
      let s := (tasksIn p .ahead).foldl (fun s i => squash s ⟨q, i⟩ .notRun) s
      (tasksIn p .blocked ++ tasksIn p .ready).foldl (fun s i =>
        releaseReserved (modTask s ⟨q, i⟩ (fun t => { t with state := .notRun, place := if t.entered.isEmpty then [] else t.place })) ⟨q, i⟩) s

/-- Resolves what can resolve in a plan and squashes AHEAD tasks whose edge was not taken, again and again, since a squashed task
may now be bypassed and its successors' edges resolve with it: at most `n` times. -/
def resolvePlan (s : State) (q : Nat) : Nat → State
  | 0 => s
  | n + 1 =>
    match planOf s q with
    | none => s
    | some p =>
      let p := { p with tasks := sweep s (ctxOf s p.ctx).partition p.flags [] p.tasks }
      let s := setPlan s q p
      match (tasksIn p .ahead).filter (fun i => (p.tasks[i]?).any Task.notTaken) with
      | [] => s
      | l => resolvePlan (l.foldl (fun s i => squash s ⟨q, i⟩ .blocked) s) q n

/-- Resolves what can resolve in a plan, squashes AHEAD tasks whose edge was not taken, writes the status words of bypassed
tasks and counts them. -/
def settlePlan (s : State) (q : Nat) : State :=
  match planOf s q with
  | none => s
  | some p =>
    if p.halted.isSome then s
    else
      let s := resolvePlan s q (p.tasks.length + 1)
      let fresh : List Nat := match planOf s q with
        | some p2 => (List.range p2.tasks.length).filter (fun i =>
            (p2.tasks[i]?).any (fun (t : Task) => t.state == .bypassed) && !(p.tasks[i]?).any (fun (t : Task) => t.state == .bypassed))
        | none => []
      let s := { s with regs := { s.regs with bypass := satAdd 32 s.regs.bypass fresh.length } }
      fresh.foldl (fun s i =>
        let (st, s) := writeStatus s q i .ok true
        if st = .ok then s else haltPlan s q st none) s

/-- Sets the outcome of the command that a queue runs; COMMAND_COMPLETION then writes its entry (R169). -/
def finishCommand (s : State) (q : Nat) (st : Status) (info0 info1 result : Nat) : State :=
  modQueue s q (fun v => match v.running with
    | some r => if r.status.isNone then { v with running := some { r with status := some st, info0 := info0, info1 := info1, result := result } } else v
    | none => v)

/-- The faulting address of a plan that ends with a status (R201): that of the task that set it, or of a status word that could
not be written. DEDUCED: the fault of the command is the fault that ended its plan. -/
def planVa (p : Plan) (st : Status) : Option Nat :=
  match p.culprit with
  | some i => (p.tasks[i]?).bind (fun t => t.faultVa.bind (fun x => if x.1 = st then some x.2 else none))
  | none => if st = .ok then none else p.wordVa

/-- A plan whose tasks are all final, with no stop sequence still running, completes (R134). -/
def tryPlanComplete (s : State) (q : Nat) : State :=
  match planOf s q with
  | none => s
  | some p =>
    if p.tasks.all (fun t => t.final && t.stop.isNone) then
      let st := p.halted.getD .ok
      let info := if st = .ok then 0xFFFFFFFF else p.culprit.getD 0xFFFFFFFF
      let va := planVa p st
      let s := modQueue (dropPlan s q) q (fun v => { v with running := v.running.map (fun r => { r with addr := va }) })
      finishCommand s q st info 0 p.flags.toNat
    else s

/-! ## Placement (R141) -/

/-- A cluster whose clock runs and whose power domain is ON. -/
def awake (s : State) (n : Nat) : Bool := (clusterOf s n).clock && (domOf s n).state == .on
/-- A core that can be placed on: no task and no scrub. -/
def coreFree (s : State) (c : Nat) : Bool := (coreOf s c).task.isNone && (coreOf s c).scrub.isNone
/-- Local cores of a cluster that a task has been placed on at once and has not entered yet: the cluster wakes (R144 step 5). -/
def wonCores (s : State) (n : Nat) : List Nat :=
  s.plans.flatMap (fun p => p.2.tasks.flatMap (fun t =>
    if t.won && t.state == .ready && !t.entered.contains n then (t.place.filter (fun x => x.1 == n)).flatMap (·.2) else []))
/-- Free local cores of a cluster, ascending. -/
def freeCores (s : State) (n : Nat) : List Nat :=
  (List.range 16).filter (fun l => coreFree s (16 * n + l) && !(wonCores s n).contains l)
/-- The clock of a cluster is gated: it takes no new work (R415). -/
def gatedCluster (s : State) (n : Nat) : Bool := !bit s.pow.cgCluster.toNat n
/-- Clusters of a partition that a task may take: enabled, not gated, not leaving, not reserved by another task. -/
def openClusters (s : State) (part : Nat) (r : TaskRef) : List Nat :=
  sortBy (fun a b => decide (a ≤ b)) ((partOf s part).clusters.filter (fun n => enabled s n && !gatedCluster s n && (clusterOf s n).removing.isNone
    && (clusterOf s n).scrub.isNone && ((clusterOf s n).reserved.isNone || (clusterOf s n).reserved == some r)))

/-- The clusters of a cluster crew of `n` clusters, ascending; none if too few are open. -/
def placeClusters (s : State) (part : Nat) (r : TaskRef) (n : Nat) : Option (List Nat) :=
  let l := openClusters s part r
  let free := l.filter (fun c => (freeCores s c).length == 16)
  let order := free.filter (awake s ·) ++ free.filter (fun c => !awake s c) ++ l.filter (fun c => (freeCores s c).length != 16)
  if order.length < n then none else some (sortBy (fun a b => decide (a ≤ b)) (order.take n))

/-- The cluster of a core crew of `n` cores, and whether `n` cores are free there now. -/
def placeCores (s : State) (part : Nat) (r : TaskRef) (n : Nat) : Option (Nat × Bool) :=
  let l := openClusters s part r
  let fits := fun c => n ≤ (freeCores s c).length
  match l.find? (fun c => awake s c && fits c) with
  | some c => some (c, true)
  | none => match l.find? fits with
    | some c => some (c, true)
    | none =>
      let order := l.filter (awake s ·) ++ l.filter (fun c => !awake s c)
      let best := order.foldl (fun (b : Option Nat) c => match b with
        | none => some c
        | some d => if (freeCores s d).length < (freeCores s c).length then some c else some d) none
      best.map (fun c => (c, false))

/-! ## Program images (R79, R142) -/

/-- An image header (Table 4.2): well formed, BUNDLES, ENTRY, CREW_MIN, CREW_MAX, CREW_UNIT. -/
def imageHead (b : Bytes) : Bool × Nat × Nat × Nat × Nat × Nat :=
  let w := word b
  let n := bits (w 2) 12 0
  let e := bits (w 3) 11 0
  let lo := bits (w 4) 6 0
  let hi := bits (w 4) 14 8
  let u := bits (w 4) 15 15
  (w 0 == 0x5A545031 && w 1 == 1 && bits (w 2) 31 13 == 0 && 1 ≤ n && n ≤ 4096 && bits (w 3) 31 12 == 0 && e < n
    && bits (w 4) 7 7 == 0 && bits (w 4) 31 16 == 0 && (List.range 11).all (fun i => w (5 + i) == 0)
    && 1 ≤ lo && lo ≤ hi && hi ≤ (if u = 1 then 64 else 16), n, e, lo, hi, u)

/-- Fetches a task's image and makes the checks of R142, steps 2 to 4: the status, the bundles, ENTRY and the digest. A failing
read of a bundle comes before a header that breaks Table 4.2; a BUNDLES out of range names no bundles to read. -/
def fetchImage (s : State) (p : Plan) (t : Task) : Status × List (BitVec 128) × Nat × Digest × State :=
  let (st, h, s) := vfetch s p.ctx p.key t.image 64
  if st ≠ .ok then (st, [], 0, 0, s)
  else
    let (ok, n, e, lo, hi, u) := imageHead h
    if n = 0 ∨ 4096 < n then (.descInvalid, [], 0, 0, s)
    else
      let (st, b, s) := vfetch s p.ctx p.key (t.image + 64) (16 * n)
      if st ≠ .ok then (st, [], 0, 0, s)
      else if !ok then (.descInvalid, [], 0, 0, s)
      else if u ≠ t.unit ∨ t.crew < lo ∨ hi < t.crew then (.descInvalid, [], 0, 0, s)
      else
        let dig := Config.sha384 (h ++ b)
        let ses := (s.sp.sessions.find? (fun x => x.2.state != .ended && x.1 == (ctxOf s p.ctx).session)).map (·.2)
        let listed := match ses with | some x => x.manifest.programs.contains dig | none => false
        let bundles := (List.range n).map (fun i => BitVec.ofNat 128 (le b (16 * i) 16))
        if listed then (.ok, bundles, e, dig, s) else (.policyDenied, [], 0, dig, s)

/-! ## Prologue loads (R131, R147) -/

/-- Clusters that prologue entry `k` of a placed task reaches. -/
def loadTargets (t : Task) (k : Nat) : List Nat :=
  match t.pros[k]? with
  | none => []
  | some p => if p.mode = 0 then [t.clusterAt p.dest.rank] else t.place.map (·.1)
/-- How token 56 + k of a core in a cluster stands at the crew's entry (R98, R147). -/
def skimToken (t : Task) (k cluster : Nat) : Token :=
  match t.pros[k]? with
  | none => .idle
  | some p =>
    let c := if p.mode = 0 then t.clusterAt p.dest.rank else cluster
    match t.loads.find? (fun l => l.1 == k && l.2.1 == c) with
    | some l => l.2.2.1
    | none => .pending

/-! ## Entering a cluster (R77, R78, R143 steps 4 and 5, R149) -/

/-- The crew's cores of one cluster start: image, crew index, tokens, and the entry bundle in one cycle. -/
def enterCluster (s : State) (r : TaskRef) (t : Task) (cluster : Nat) (image : List (BitVec 128)) (entry : Nat) : State :=
  let start := (clusterOf s cluster).cycle + 1
  let rank := t.rankOf cluster
  let locals := (t.place.filter (fun p => p.1 == cluster)).flatMap (·.2)
  let s := (List.range locals.length).foldl (fun s i =>
    let no := 16 * cluster + nth locals i
    let c := coreOf s no
    setCore s no { scrubbed c with task := some r, crewIndex := 16 * rank + i, image := image, pc := entry, nextIssue := start,
                                   issuing := true,
                                   tokens := (List.range t.pros.length).foldl (fun m k => tput .idle m (56 + k) (skimToken t k cluster)) [] }) s
  let s := modCluster s cluster (fun k => { k with reserved := none, tasks := satAdd 32 k.tasks 1, idleAt := none })
  modTask s r (fun t => { t with entered := t.entered ++ [cluster] })

end Sys2Proof.Machine
end

