-- ==== Sys2Proof/Machine/Level.lean ====
section
/-! DEFINITION. Level mode (R407 to R411): task digests, records sent to the peer and received from it, matching, the
Level log, and the silence of a peer. -/

namespace Sys2Proof.Machine
open Sys2Proof

/-- The contribution of one line write to a task digest (R408): byte mask and plaintext with unmasked bytes zeroed. -/
def digestOf (line mask data : Nat) : BitVec 64 :=
  let on := fun (i : Nat) => bits mask (8 * i + 7) (8 * i) != 0
  let m := ((List.range 64).filter on).foldl (fun a i => a + 2 ^ i) 0
  let plain := (List.range 64).map (fun i => if on i then BitVec.ofNat 8 (bits (data &&& mask) (8 * i + 7) (8 * i)) else 0#8)
  (Config.sha384 (leBytes 8 line ++ leBytes 8 m ++ plain)).truncate 64

/-- Adds one line write to the digest of a task. -/
def noteWrite (s : State) (r : TaskRef) (line mask data : Nat) : State :=
  modTask s r (fun t => { t with digest := t.digest + digestOf line mask data, opSeq := t.opSeq + 1 })
/-- Adds the lines that a byte string touches from an address on. -/
def noteBytes (s : State) (r : TaskRef) (va : Nat) (b : Bytes) : State :=
  (linesOf va b.length).foldl (fun s l => let (m, d) := lineMask va b l; noteWrite s r l m d) s
/-- The partition of a task's plan is paired with DETAIL = 1 (R407). -/
def detailOn (s : State) (r : TaskRef) : Bool :=
  match planOf s r.queue with
  | some p => (partOf s (ctxOf s p.ctx).partition).level.any (fun l => l.detail)
  | none => false
/-- Adds a line write to the DETAIL digest of a core's write operation (R410): the operation's digest is the sum of its lines'
contributions, as D is (R408), and at most 4,096 a task are kept. -/
def noteDetail (s : State) (r : TaskRef) (core seq : Nat) (d : BitVec 64) : State :=
  if !detailOn s r then s
  else
    let x := (coreOf s core).crewIndex
    let add := fun (l : List (Nat × Nat × BitVec 64)) =>
      if l.any (fun e => e.1 == x && e.2.1 == seq) then
        l.map (fun e => if e.1 = x ∧ e.2.1 = seq then (x, seq, e.2.2 + d) else e)
      else if l.length < 4096 then l ++ [(x, seq, d)] else l
    modTask s r (fun t => { t with detail := add t.detail })
/-- Adds the lines of a byte string that a core's operation writes from an address on. -/
def noteDetails (s : State) (r : TaskRef) (core seq va : Nat) (b : Bytes) : State :=
  (linesOf va b.length).foldl (fun s l => let (m, d) := lineMask va b l; noteDetail s r core seq (digestOf l m d)) s
/-- The first write operation, in ascending order of crew index and issue number, whose digests differ on the two modules (R410): one
that only one module has differs. -/
def firstDiffer (a b : List (Nat × Nat × BitVec 64)) : Option (Nat × Nat) :=
  let key := fun (e : Nat × Nat × BitVec 64) => e.1 * 2 ^ 32 + e.2.1
  let odd := a.filter (fun e => !b.contains e) ++ b.filter (fun e => !a.contains e)
  ((sortBy (fun x y => decide (key x ≤ key y)) odd).head?).map (fun e => (e.1, e.2.1))

/-- Changes the pairing of a partition. -/
def modLevel (s : State) (part : Nat) (f : Level → Level) : State :=
  modPart s part (fun p => { p with level := p.level.map f })

/-- Unmatched records that the module holds (R409). -/
def levelHeld (s : State) : Nat :=
  (s.parts.map (fun p => match p.2.level with | some l => l.own.length + l.theirs.length | none => 0)).foldl (· + ·) 0
/-- The partition is paired and the module holds 4,096 unmatched records: no further task of it is dispatched. -/
def levelFull (s : State) (part : Nat) : Bool := (partOf s part).level.isSome && decide (4096 ≤ levelHeld s)

/-- The 64 bytes of a Level log entry (Table 16.5). -/
def levelEntryBytes (e : LevelEntry) : Bytes :=
  leBytes 4 e.planSeq ++ leBytes 4 (e.task % 16384 + b2n e.first * 2 ^ 14 + e.cause * 2 ^ 15)
    ++ leBytes 8 e.dOwn.toNat ++ leBytes 8 e.dPeer.toNat ++ leBytes 4 (e.crewIdx % 1024) ++ leBytes 4 e.opSeq
    ++ List.replicate 32 0

/-- Enters a divergence in the Level log and posts LEVEL_MISMATCH (R409). -/
def levelReport (s : State) (part : Nat) (e : LevelEntry) : State :=
  match (partOf s part).level with
  | none => s
  | some l =>
    let at' := 64 * l.log.length
    let s := modLevel s part (fun l => { l with log := l.log ++ [e] })
    -- the log's pages are those of a context of the key's session (R358)
    let s := match (contextsOf s part).filter (fun c => (ctxOf s c).session == (keyOf s l.logKey).session) with
      | c :: _ => if at' + 64 ≤ l.logLen then (vwrite s c l.logKey (l.logVa + at') (levelEntryBytes e) false).2 else s
      | [] => s
    postEvent s (contextsOf s part) 0x0009 true part (e.planSeq + e.task * 2 ^ 32) e.cause

/-- The queue whose loaded plan has a sequence number in a partition. -/
def planQueueOf (s : State) (part seq : Nat) : Option Nat :=
  (s.plans.find? (fun p => (ctxOf s p.2.ctx).partition == part && p.2.seq == seq)).map (·.1)

/-- Compares an own record with the peer's of the same key (R409 to R411). -/
def levelCompare (s : State) (part : Nat) (a b : LevelRecord) : State :=
  match (partOf s part).level with
  | none => s
  | some l =>
    let key := (a.planSeq, a.task)
    if a.d = b.d ∧ a.status = b.status ∧ a.flags = b.flags then modLevel s part (fun l => { l with matched := key :: l.matched })
    else
      let cause := if a.d ≠ b.d then 0 else if a.status ≠ b.status then 1 else 2
      let first := a.preds.all (fun p => l.matched.contains (a.planSeq, p))
      let op := if l.detail && cause == 0 then (firstDiffer a.detail (Config.peerDetail s.fresh)).getD (0, 0) else (0, 0)
      let s := { s with fresh := s.fresh + 1 }
      let s := levelReport s part ⟨a.planSeq, a.task, first, cause, a.d, b.d, op.1, op.2⟩
      if l.halt then
        match planQueueOf s part a.planSeq with
        | some q => tryPlanComplete (haltPlan s q .aborted none) q
        | none => s
      else s

/-- Matches what can be matched: `n` own records are looked at. -/
def levelMatch (s : State) (part : Nat) : Nat → State
  | 0 => s
  | n + 1 =>
    match (partOf s part).level with
    | none => s
    | some l =>
      match l.own.find? (fun a => l.theirs.any (fun b => b.planSeq == a.planSeq && b.task == a.task)) with
      | none => s
      | some a =>
        match l.theirs.find? (fun b => b.planSeq == a.planSeq && b.task == a.task) with
        | none => s
        | some b =>
          let s := modLevel s part (fun l => { l with own := l.own.erase a, theirs := l.theirs.erase b })
          levelMatch (levelCompare s part a b) part n

/-- Moves watermark source 4 after matching. -/
def levelSettle (s : State) (part : Nat) : State :=
  let s := levelMatch s part 1
  setLevel s 4 (levelHeld s)

/-- The 32 bytes of a Level record (Table 16.5a). -/
def levelBytes (r : LevelRecord) : Bytes :=
  leBytes 4 r.planSeq ++ leBytes 4 (r.task % 16384 + r.status * 2 ^ 16) ++ leBytes 8 r.d.toNat ++ leBytes 4 (r.flags % 65536)
    ++ leBytes 4 0 ++ leBytes 8 r.rseq

/-- Sends the Level records of a partition that wait, at most `n`: under the active index of their session, once it may send
(R233). -/
def pumpLevel (s : State) (part : Nat) : Nat → State
  | 0 => s
  | n + 1 =>
    match (partOf s part).level with
    | none => s
    | some l =>
      match l.unsent with
      | [] => s
      | (ses, p) :: rest =>
        match lathActive s ses with
        | none => s
        | some k =>
          if s.pow.dustSheet || !maySend s k || !mayRequest s { p with keyIdx := k } then s
          else pumpLevel (sendRequest (modLevel s part (fun l => { l with unsent := rest })) { p with keyIdx := k } (.level part) []).2.2 part n
/-- Every partition's waiting records. -/
def pumpLevels (s : State) : State :=
  s.parts.foldl (fun s p => match p.2.level with | some l => pumpLevel s p.1 l.unsent.length | none => s) s

/-- Sends the record of a completed task to the peer and holds it (R409). The digest of a task without a success status is
not stated: a free value. -/
def levelSend (s : State) (p : Plan) (task : Nat) (st : Status) (flags : Nat) : State :=
  let part := (ctxOf s p.ctx).partition
  match (partOf s part).level, p.tasks[task]? with
  | some l, some t =>
    let (f, s) := if st.success then (0, s) else drawFree s
    let ran := fun (i : Nat) => match p.tasks[i]? with | some u => u.state != .bypassed | none => false
    let r : LevelRecord :=
      { planSeq := p.seq, task := task, status := statusCode st, d := if st.success then t.digest else f.truncate 64,
        flags := flags, rseq := l.rseq, detail := t.detail, preds := ((t.edges.filter (fun e => e.type == 0)).map (·.src)).filter ran }
    let pk := { blankPacket s 0x01 1 0 l.peer with offset := 32 * (l.rseq % 2 ^ 31), window := 4095, len := 32, payload := levelBytes r }
    let s := modLevel s part (fun l =>
      { l with own := l.own ++ [r], rseq := l.rseq + 1, heard := if l.own.isEmpty && l.theirs.isEmpty then s.ns else l.heard,
               digests := if t.detail.isEmpty then l.digests else l.digests ++ [(p.seq, task, t.detail)],
               unsent := l.unsent ++ [((ctxOf s p.ctx).session, pk)] })
    levelSettle (pumpLevel s part (l.unsent.length + 1)) part
  | _, _ => s

/-- A record from the peer (R409): the status that answers it. While the module holds 4,096 unmatched records, one that matches none
of its own is not taken and is answered BUSY, which asks for a retransmission (DESIGN CHOICE, log entry 17: R409 gives the limit
and no answer). -/
def levelReceive (s : State) (p : Packet) : Status × State :=
  let part := (keyOf s p.keyIdx).partition
  match (partOf s part).level with
  | none => (.windowDenied, s)
  | some l =>
    if l.peer ≠ p.srcNode then (.windowDenied, s)
    else
      let b := p.payload
      let r : LevelRecord :=
        { planSeq := le b 0 4, task := le b 4 2 % 16384, status := le b 6 2, d := BitVec.ofNat 64 (le b 8 8), flags := le b 16 2,
          rseq := le b 24 8, preds := [] }
      if l.seen.contains r.rseq then (.ok, modLevel s part (fun l => { l with heard := s.ns }))
      else if 4096 ≤ levelHeld s ∧ l.own.all (fun a => !(a.planSeq == r.planSeq && a.task == r.task)) then
        (.busy, modLevel s part (fun l => { l with heard := s.ns }))
      else
        let s := modLevel s part (fun l => { l with theirs := l.theirs ++ [r], seen := r.rseq :: l.seen, heard := s.ns })
        (.ok, levelSettle s part)

/-- Data-edge predecessors of a task of a loaded plan, where the module has that plan loaded. -/
def dataPreds (s : State) (part seq task : Nat) : List Nat :=
  match (planQueueOf s part seq).bind (planOf s) with
  | some p => match p.tasks[task]? with
    | some t => (t.edges.filter (fun e => e.type == 0)).map (·.src)
    | none => []
  | none => []
/-- The entry of a silent peer (Table 16.5): the module's own oldest unmatched record, else the peer's (DESIGN CHOICE, log entry 17). -/
def silentEntry (s : State) (part : Nat) (l : Level) : Option LevelEntry :=
  match l.own, l.theirs with
  | r :: _, _ => some ⟨r.planSeq, r.task, r.preds.all (fun p => l.matched.contains (r.planSeq, p)), 3, r.d, 0, 0, 0⟩
  | [], r :: _ =>
    some ⟨r.planSeq, r.task, (dataPreds s part r.planSeq r.task).all (fun p => l.matched.contains (r.planSeq, p)), 3, 0, r.d, 0, 0⟩
  | [], [] => none
/-- LEVEL_PEER_SILENT: nothing from the peer for 10 ms while records are unmatched (R409). -/
def execLevelPeerSilent (partition : Nat) (s : State) : Host.Outcome State Fault Refusal :=
  match (partOf s partition).level with
  | none => .next s
  | some l =>
    match silentEntry s partition l with
    | none => .next s
    | some e =>
      if s.ns < l.heard + 10000000 then .next s
      else .next (modLevel (levelReport s partition e) partition (fun l => { l with heard := s.ns }))

/-- The pairing ends because an epoch removed the peer (R411). -/
def levelLost (s : State) (part : Nat) : State :=
  match (partOf s part).level with
  | none => s
  | some l =>
    let r := l.own.headD ⟨l.plans, 0, 0, 0, 0, 0, [], []⟩
    let s := levelReport s part ⟨r.planSeq, r.task, false, 4, r.d, 0, 0, 0⟩
    let s := modPart s part (fun p => { p with level := none })
    setLevel s 4 (levelHeld s)

end Sys2Proof.Machine
end

