-- ==== Sys2Proof/Machine/Dma.lean ====
section
/-! DEFINITION. DMA operations (R85, R120 to R125, R246 to R248): their start, the transfer of a COPY, a GATHER or a prologue
load, completion, and the sending of a Lath operation's packets. -/

namespace Sys2Proof.Machine
open Sys2Proof

/-! ## Transfers (R120 to R125) -/

/-- One element of a transfer: destination position, and the source position it takes. -/
abbrev Move := List Nat × List Nat

/-- The moves of a COPY. -/
def copyMoves (ext : List Nat) : List Move := (List.range (volume ext)).map (fun i => (unIdx ext i, unIdx ext i))
/-- The moves of a GATHER along `g` (R124), index positions ascending, as R125 looks for a failing element, and in the order of
R102 within one: the row index comes from the index tensor in the issuing core's store. -/
def gatherMoves (ext : List Nat) (g : Nat) (idx : Desc) (f : ByteView) : List Move :=
  let v := viewOf idx none
  let row := ext.set g 1
  (List.range (nth ext g)).flatMap (fun j =>
    let at' := v.read f [j, 0, 0, 0]
    (List.range (volume row)).map (fun i => ((unIdx row i).set g j, (unIdx row i).set g at')))

/-- What a transfer needs: context, task, the two sides and the moves. -/
structure Transfer where
  ctx   : Nat
  task  : TaskRef
  core  : Nat
  seq   : Nat
  src   : View
  srcAt : Place
  dst   : View
  dstAt : Place
  moves : List Move
  deriving DecidableEq, Repr, Inhabited

/-- Identity of a byte of a place: device bytes count by canonical address where they map. -/
def byteId (s : State) (ctx : Nat) (p : Place) (a : Nat) : Nat :=
  match p with
  | .device key => match translate s hubAgent ctx a key .read with | (.ok, c) => c | _ => a
  | _ => a
/-- Two places can hold the same byte. -/
def samePlace (p q : Place) : Bool :=
  match p, q with
  | .device _, .device _ => true
  | .core a, .core b => a == b
  | .cluster a, .cluster b => a == b
  | _, _ => false

/-- Bytes that the write of a move touches. -/
def moveWrites (t : Transfer) (m : Move) : List Nat := (t.dst.write m.1 0 0).flatMap (fun w => [w.at' / 8, (w.at' + w.width - 1) / 8])

/-- Source and destination ranges overlap at this move (R125). -/
def moveOverlaps (s : State) (t : Transfer) (srcBytes dstBytes : List Nat) (m : Move) : Bool :=
  samePlace t.srcAt t.dstAt
    && ((t.src.readAddrs m.2).any (fun a => dstBytes.contains (byteId s t.ctx t.srcAt a))
      || (moveWrites t m).any (fun a => srcBytes.contains (byteId s t.ctx t.dstAt a)))

/-- Runs a transfer: status, the address of the failing access, and the state (R125). An element in an overlap holds a free
value; a block scale there is the one read before the operation's writes (DESIGN CHOICE: R125 speaks of elements alone). -/
def runTransfer (s : State) (t : Transfer) : Status × Nat × State :=
  let addrs := t.moves.flatMap (fun m => t.src.readAddrs m.2)
  let (tab, s) := match t.srcAt with
    | .device key => readLineTab s (t.core / 16) t.ctx key addrs
    | _ => ([], s)
  let f : ByteView := match t.srcAt with | .device _ => tabView tab | p => localView s p
  let overlap := samePlace t.srcAt t.dstAt
  let srcBytes := if overlap then addrs.map (byteId s t.ctx t.srcAt) else []
  let dstBytes := if overlap then (t.moves.flatMap (moveWrites t)).map (byteId s t.ctx t.dstAt) else []
  let base := s.fresh
  let ws := ((List.range t.moves.length).zip t.moves).flatMap (fun p =>
    let code := if moveOverlaps s t srcBytes dstBytes p.2
      then (Config.free (base + p.1)).toNat % 2 ^ fmtBits t.dst.lay.fmt else t.src.read f p.2.2
    t.dst.write p.2.1 code (t.src.scale f p.2.2))
  let s := if overlap then { s with fresh := s.fresh + t.moves.length } else s
  let (bad, s) := match t.dstAt with
    | .device key =>
      let g := groupBits ws
      let (bad, s) := writeLineTab s (t.core / 16) t.ctx key g
      -- every line written enters the task's digest (R408)
      (bad, g.foldl (fun (s : State) (p : Nat × Nat × Nat) => noteDetail (noteWrite s t.task (p.1 * 64) p.2.1 p.2.2) t.task t.core t.seq (digestOf (p.1 * 64) p.2.1 p.2.2)) s)
    | p => ([], writeLocal s p ws)
  let fail : Option (Status × Nat) := t.moves.findSome? (fun (m : Move) =>
    match tabFail tab (t.src.readAddrs m.2) with
    | some st => some (st, ((t.src.readAddrs m.2).find? (fun a => (tabFail tab [a]).isSome)).getD 0)
    | none => (moveWrites t m).findSome? (fun a => (tlook bad (a / 64)).map (fun st => (st, a))))
  match fail with
  | some (st, a) => (st, a, s)
  | none => (.ok, 0, s)

/-- The transfer of a COPY or GATHER of a core. -/
def transferOf (s : State) (core : Nat) (r : TaskRef) (ctx : Nat) (t : Task) (o : DmaOp) : Transfer :=
  let dv := viewOf o.dst o.dstT
  { ctx := ctx, task := r, core := core, seq := o.seq, src := viewOf o.src o.srcT, srcAt := placeOf t core o.src o.srcT,
    dst := dv, dstAt := placeOf t core o.dst o.dstT,
    moves := if o.op = 1 then copyMoves dv.vext
      else gatherMoves dv.vext (o.form % 4) o.idx (localView s (.core core)) }

/-- DOMAIN_SEALED of an operation is recorded for the context of its task (R165). -/
def noteSealed (s : State) (ctx : Nat) (r : TaskRef) (st : Status) (va : Option Nat) : State :=
  if st = .domainSealed then recordSealed s ctx r.queue r.task va else s
/-- The faulting address of a token: that of its failed access, or none (R201). -/
def noteVa (t : Tab Nat) (tok : Nat) : Option Nat → Tab Nat
  | some va => tins t tok va
  | none => tdel t tok

/-! ## Cluster DMA channels (R76, R86, R147) -/

/-- A channel's user still runs: a started operation of a core, or a prologue load of a task that has not ended. -/
def chanLive (s : State) (cluster : Nat) : ChanUser → Bool
  | .dma core seq => (coreOf s core).dma.any (fun o => o.seq == seq && o.started)
  | .load r k => (taskOf s r).any (fun t => !t.final && t.loads.any (fun l => l.1 == k && l.2.1 == cluster && l.2.2.1 == .pending))
/-- The first channel from `lo` up to `hi` of a cluster that serves nobody. -/
def freeChan (s : State) (cluster lo hi : Nat) : Option Nat :=
  ((List.range hi).drop lo).find? (fun n => !(tlook (clusterOf s cluster).channels n).any (chanLive s cluster))
/-- A user takes a free channel from `lo` up to `hi`, if there is one. -/
def takeChan (s : State) (cluster lo hi : Nat) (u : ChanUser) : Option State :=
  (freeChan s cluster lo hi).map (fun n => modCluster s cluster (fun k => { k with channels := tins k.channels n u }))
/-- Users give up their channels. -/
def dropChans (s : State) (p : ChanUser → Bool) : State :=
  { s with clusters := s.clusters.map (fun x => (x.1, { x.2 with channels := x.2.channels.filter (fun c => !p c.2) })) }

/-- Both ends of a COPY or GATHER can be reached now. -/
def copyReady (s : State) (r : TaskRef) (t : Task) (core : Nat) (o : DmaOp) : Bool :=
  placeReady s r (placeOf t core o.src o.srcT) && placeReady s r (placeOf t core o.dst o.dstT)
/-- A COPY or GATHER with no core-store endpoint runs on a channel 0 to 5 of its core's cluster (R86). -/
def onChannel (t : Task) (core : Nat) (o : DmaOp) : Bool :=
  o.op ≤ 2 && (match placeOf t core o.src o.srcT, placeOf t core o.dst o.dstT with
    | .core _, _ => false
    | _, .core _ => false
    | _, _ => true)

/-- Completes a COPY or GATHER: the transfer, then its token. A DOMAIN_SEALED found before the core's commit point stays in the token
until it commits (R99). -/
def completeCopy (s : State) (core : Nat) (r : TaskRef) (ctx : Nat) (t : Task) (o : DmaOp) : State :=
  let (st, va, s) := runTransfer (dropChans s (· == .dma core o.seq)) (transferOf s core r ctx t o)
  let s := if (coreOf s core).committed then noteSealed s ctx r st (some va) else s
  modCore s core (fun c =>
    { setToken c o.token (.done st) with
      dma := c.dma.filter (fun x => x.seq != o.seq), faultVa := noteVa c.faultVa o.token (if st = .ok then none else some va) })

/-! ## Prologue loads (R131, R147, R148) -/

/-- The source descriptor of a load on the cluster of a rank. -/
def loadSource (p : Prologue) (rank : Nat) : Desc :=
  if p.mode = 2 then { p.source with origin := p.source.origin.set p.rdim (nth p.source.origin p.rdim + rank * nth p.source.ext p.rdim) }
  else p.source

/-- Replaces how a load stands, in the task and in every core token bound to it. -/
def setLoad (s : State) (r : TaskRef) (k cluster : Nat) (st : Status) (va : Option Nat) : State :=
  let s := modTask s r (fun t => { t with loads := t.loads.map (fun l => if l.1 = k ∧ l.2.1 = cluster then (k, cluster, .done st, l.2.2.2) else l) })
  match taskOf s r with
  | none => s
  | some t =>
    (t.cores.filter (fun c => (coreOf s c).task == some r)).foldl (fun s c =>
      modCore s c (fun v => { setToken v (56 + k) (skimToken t k (c / 16)) with faultVa := noteVa v.faultVa (56 + k) va })) s

/-- The task whose load `k` is pending on a cluster: the core's own first, otherwise the first that holds a range there. -/
def loadTask (s : State) (core k : Nat) : Option TaskRef :=
  let cl := core / 16
  let pend := fun (r : TaskRef) => match taskOf s r with
    | some t => t.loads.any (fun l => l.1 == k && l.2.1 == cl && l.2.2.1 == .pending)
    | none => false
  match (coreOf s core).task with
  | some r => if pend r then some r else ((clusterOf s cl).skim.map (fun x => x.2.2.1)).find? pend
  | none => ((clusterOf s cl).skim.map (fun x => x.2.2.1)).find? pend

/-- A prologue load runs on channel 6 or 7 of its cluster (R147): the one it holds, or one that is free now. -/
def loadRuns (s : State) (cluster : Nat) (r : TaskRef) (k : Nat) : Bool :=
  (clusterOf s cluster).channels.any (fun c => c.2 == .load r k) || (freeChan s cluster 6 8).isSome

/-- Completes prologue load `k` on the cluster of `core`. -/
def completeLoad (s : State) (core k : Nat) : State :=
  let cl := core / 16
  match loadTask s core k with
  | none => s
  | some r =>
    match planOf s r.queue, taskOf s r with
    | some p, some t =>
      match t.pros[k]?, t.loads.find? (fun l => l.1 == k && l.2.1 == cl) with
      | some e, some l =>
        match l.2.2.2 with
        | none => s
        | some ten =>
          -- a task that stops or has ended loads nothing more (R151, Table 4.15)
          if t.final || t.stop.isSome || !loadRuns s cl r k then s else
          let s := modCluster s cl (fun x => { x with channels := x.channels.filter (fun c => c.2 != .load r k) })
          let src := loadSource e (t.rankOf cl)
          let (st, va, s) := runTransfer s
            { ctx := p.ctx, task := r, core := core, seq := 0, src := viewOf src (some ten), srcAt := .device ten.key,
              dst := viewOf e.dest none, dstAt := .cluster cl, moves := copyMoves src.ext }
          -- before a crew core of the cluster has committed the fault stays in the tokens (R99)
          let s := if (t.cores.filter (fun c => c / 16 == cl)).any (fun c => (coreOf s c).task == some r && (coreOf s c).committed)
            then noteSealed s p.ctx r st (some va) else s
          setLoad s r k cl st (if st = .ok then none else some va)
      | _, _ => s
    | _, _ => s

/-! ## Lath operations (R246 to R248, R271, R443) -/

/-- The operation that holds a token. -/
def opOfToken (c : Core) (tok : Nat) : Option DmaOp := c.dma.find? (fun o => o.token == tok)
/-- Replaces an operation of a core by its issue number. -/
def putOp (s : State) (core : Nat) (o : DmaOp) : State :=
  modCore s core (fun c => { c with dma := c.dma.map (fun x => if x.seq = o.seq then o else x) })

/-- A token of a core that ends with DOMAIN_SEALED is recorded for the context, with the address of a local access that failed
(R165). -/
def sealedToken (s : State) (core tok : Nat) (st : Status) : State :=
  if st = .domainSealed then
    match (coreOf s core).task with
    | some r => match planOf s r.queue with
      | some p => noteSealed s p.ctx r st (tlook (coreOf s core).faultVa tok)
      | none => s
    | none => s
  else s

/-- A Lath operation whose every packet has its response completes its token (R248). -/
def settleLath (s : State) (core tok : Nat) : State :=
  match opOfToken (coreOf s core) tok with
  | none => s
  | some o =>
    if o.op ≥ 3 && o.started && o.xids.isEmpty && o.unsent.isEmpty then
      let s := sealedToken s core tok (o.failed.getD .ok)
      modCore s core (fun c => { setToken c tok (.done (o.failed.getD .ok)) with dma := c.dma.filter (fun x => x.seq != o.seq) })
    else s

/-- Ends a Lath operation at once with a status: its packets wait for no response any longer. -/
def endLath (s : State) (core tok : Nat) (st : Status) : State :=
  match opOfToken (coreOf s core) tok with
  | none => s
  | some o =>
    let s := o.xids.foldl dropPending s
    modCore s core (fun c => { setToken c tok (.done st) with dma := c.dma.filter (fun x => x.seq != o.seq) })

/-- A packet of a Lath operation fails: of several, the one that comes first in the operation decides, whichever answer arrives
first (R248: the order of R98, lowest number first). -/
def failPacket (o : DmaOp) (p : Packet) (st : Status) : DmaOp :=
  match o.failed with
  | none => { o with failed := some st, failAt := p.offset }
  | some _ => if p.offset < o.failAt then { o with failed := some st, failAt := p.offset } else o

/-- Sends packets of a Lath operation while the allowance lasts: at most `n` of them. -/
def pumpLath (s : State) (core tok : Nat) : Nat → State
  | 0 => s
  | n + 1 =>
    match opOfToken (coreOf s core) tok with
    | none => s
    | some o =>
      match o.unsent with
      | [] => s
      | (p, dest) :: rest =>
        let key := (pairActive s p.keyIdx).getD p.keyIdx
        let p := { p with keyIdx := key }
        if !(nodeOf s p.dstNode).member then
          pumpLath (putOp s core (failPacket { o with unsent := rest } p .staleEpoch)) core tok n
        else if s.pow.dustSheet || !mayRequest s p then s
        else
          match sendRequest s p (.dma core tok) dest with
          | (.ok, xid, s) => pumpLath (putOp s core { o with unsent := rest, xids := o.xids ++ [xid], key := key }) core tok n
          | (st, _, s) => pumpLath (putOp s core (failPacket { o with unsent := rest } p st)) core tok n

/-- Sends what may now be sent of every started Lath operation, cores ascending. -/
def pumpAll (s : State) : State :=
  (s.cores.map (·.1)).foldl (fun s c =>
    ((coreOf s c).dma.filter (fun o => o.started && decide (3 ≤ o.op) && !o.unsent.isEmpty)).foldl
      (fun s o => settleLath (pumpLath s c o.token o.unsent.length) c o.token) s) s

/-- The source bytes of a Lath operation: a local store, or device memory, where a failing line reads as zeros and its
status is the operation's. -/
def lathSource (s : State) (core : Nat) (t : Task) (ctx : Nat) (o : DmaOp) : Status × Nat × Bytes × State :=
  if o.op = 3 then (.ok, 0, [], s)
  else
    let addrs := rowAddrs o.src o.srcT
    match placeOf t core o.src o.srcT with
    | .device key =>
      let (tab, s) := readLineTab s hubAgent ctx key addrs
      ((tabFail tab addrs).getD .ok, (addrs.find? (fun a => (tabFail tab [a]).isSome)).getD 0, addrs.map (tabView tab), s)
    | p => (.ok, 0, addrs.map (localView s p), s)

/-- Starts a Lath operation: its source is read, its packets are cut, and what may be sent is sent. A remote write enters
the task's digest (R408). -/
def startLath (s : State) (core : Nat) (r : TaskRef) (ctx : Nat) (t : Task) (o : DmaOp) : State :=
  let (st, va, src, s) := lathSource s core t ctx o
  let s := modCore s core (fun c => { c with faultVa := noteVa c.faultVa o.token (if st = .ok then none else some va) })
  let dst := if o.op = 4 then [] else rowAddrs o.dst o.dstT
  let s := if o.op = 4 then noteDetails (noteBytes s r o.operand src) r core o.seq o.operand src else s
  let o := { o with started := true, unsent := lathPackets s o src dst, failed := if st = .ok then none else some st }
  let s := putOp s core o
  settleLath (pumpLath s core o.token o.unsent.length) core o.token

/-- The first operation of a queue that has not started (R85). -/
def nextStart (c : Core) (q : Nat) : Option DmaOp :=
  c.dma.find? (fun o => !o.started && (decide (o.token < 28) == (q == 0)))
/-- Every earlier operation of the queue has completed (FENCE). -/
def fenceOpen (c : Core) (o : DmaOp) : Bool :=
  !o.fence || c.dma.all (fun x => !(decide (x.seq < o.seq) && (decide (x.token < 28) == decide (o.token < 28))))

/-- The next operation of a core's queue could start, but for a channel, a key or a place. -/
def couldStart (s : State) (core queue : Nat) : Option (TaskRef × Task × DmaOp) :=
  let c := coreOf s core
  match c.task, nextStart c queue with
  | some r, some o => match taskOf s r with
    | some t => if t.stop.isSome || !fenceOpen c o || s.pow.dustSheet || !copyReady s r t core o then none else some (r, t, o)
    | none => none
  | _, _ => none
/-- Channels 0 to 5 are assigned in issue order (R86): no core of the cluster has an operation that waits for one and issued
earlier; of one cycle, the lower core and then queue comes first (DESIGN CHOICE). -/
def firstForChannel (s : State) (core : Nat) (o : DmaOp) : Bool :=
  (List.range 16).all (fun l => (List.range 2).all (fun q =>
    let n := clusterNo core * 16 + l
    match couldStart s n q with
    | some (_, t, x) => !onChannel t n x || (n == core && x.seq == o.seq)
        || decide (o.issuedAt < x.issuedAt) || (o.issuedAt == x.issuedAt && (decide (core < n) || (core == n && decide (o.token < x.token))))
    | none => true))

/-- DMA_OPERATION_START: the next operation of a core's queue starts: on a cluster DMA channel, if no core store is an end of
it. A Lath operation whose pair has no key above the takeover bound waits (R233), and so does one whose local end is a store of a
crew core that does not run the task yet, or one whose source lies behind a die-to-die link that waits (R229). -/
def execDmaOperationStart (core queue : Nat) (s : State) : Host.Outcome State Fault Refusal :=
  match couldStart s core queue with
  | some (r, t, o) =>
    match planOf s r.queue with
    | some p =>
      if onChannel t core o then
        match takeChan s (clusterNo core) 0 6 (.dma core o.seq) with
        | some s' => .next (if firstForChannel s core o then putOp s' core { o with started := true } else s)
        | none => .next s
      else if o.op ≤ 2 then .next (putOp s core { o with started := true })
      else if !maySend s ((pairActive s o.key).getD o.key) || (decide (o.op ≠ 3) && dieWaits s hubDie) then .next s
      else .next (startLath s core r p.ctx t o)
    | none => .next s
  | none => .next s

/-- DMA_OPERATION_COMPLETE: a started COPY or GATHER moves its data and completes its token; a token from 56 on is a
prologue load on the core's cluster. Held memory requests stay pending in the dust-sheet state (R426), and so do those that wait for
a die-to-die link (R229). -/
def execDmaOperationComplete (core token : Nat) (s : State) : Host.Outcome State Fault Refusal :=
  if s.pow.dustSheet || dieWaits s (core / 256) then .next s
  else if 56 ≤ token then .next (completeLoad s core (token - 56))
  else
    match (coreOf s core).task, opOfToken (coreOf s core) token with
    | some r, some o =>
      match planOf s r.queue, taskOf s r with
      | some p, some t =>
        if o.started && decide (o.op ≤ 2) && t.stop.isNone then .next (completeCopy s core r p.ctx t o) else .next s
      | _, _ => .next s
    | _, _ => .next s

/-- LATH_PAIR_WAIT_TIMEOUT: a Lath operation that still waits for a key above the takeover bound 1 s after it issued
completes with NOT_READY (R233). -/
def execLathPairWaitTimeout (core token : Nat) (s : State) : Host.Outcome State Fault Refusal :=
  match opOfToken (coreOf s core) token with
  | none => .next s
  | some o =>
    if decide (3 ≤ o.op) && !o.started && !maySend s ((pairActive s o.key).getD o.key) && decide (o.issuedNs + 1000000000 ≤ s.ns)
    then .next (endLath s core token .notReady)
    else .next s

end Sys2Proof.Machine
end

