-- ==== Sys2Proof/Machine/Freq.lean ====
section
/-! DEFINITION. The frequency of a clock (R413, R414), the bounds that software and the safety loops set it (R405, R406, R427 to
R429), and what a waking cluster takes of them. -/

namespace Sys2Proof.Machine
open Sys2Proof

def allClusters : List Nat := List.range 64
/-- Die of a cluster. -/
def dieOf (n : Nat) : Nat := n / 16

/-! ## Steps (R413, R414) -/

/-- Ladder steps in 25 MHz units: VCO/4, /6, /8, /12, /16. -/
def ladder : List Nat := [60, 40, 30, 20, 15]
/-- The highest ladder step at or below a frequency. -/
def ladderAt (n : Nat) : Nat := (ladder.find? (fun x => x ≤ n)).getD 15
/-- The next lower ladder step. -/
def ladderDown (n : Nat) : Nat := (ladder.find? (fun x => x < n)).getD 15
/-- The next higher ladder step. -/
def ladderUp (n : Nat) : Nat := (ladder.reverse.find? (fun x => n < x)).getD 60
/-- One frequency step of at most 100 MHz toward a target. -/
def stepToward (n t : Nat) : Nat := if n < t then min t (n + 4) else max t (n - 4)
/-- The 64 cycles of a step at N, in ns (R413). -/
def stepHold (n : Nat) : Nat := ceilDiv (64 * 40) n

/-- One step of a moving clock: its record and frequency after the step. -/
def clockMove (k : Clock) (n : Nat) : Clock × Nat :=
  if k.want != k.backup then
    if !k.ladder then ({ k with ladder := true }, ladderAt n)
    else if n ≤ 15 then ({ k with backup := k.want }, n)
    else (k, ladderDown n)
  else if k.ladder && decide (ladderUp n ≤ k.target) && decide (n < ladderUp n) then
    let m := ladderUp n
    ({ k with ladder := m != k.target, moving := m != k.target }, m)
  else
    let m := stepToward n k.target
    ({ k with ladder := false, moving := m != k.target }, m)

/-- Gives a cluster a new target frequency: a running clock moves there by steps, a stopped one is set. -/
def retarget (s : State) (n t : Nat) : State :=
  let k := clockOf s n
  let c := clusterOf s n
  if k.want != k.backup || k.ladder then setClock s n { k with target := t }
  else if c.clock then setClock s n { k with target := t, moving := c.n != t }
  else setCluster (setClock s n { k with target := t, moving := false }) n { c with n := t }

/-! ## Bounds (R405, R406, R421, R427 to R430) -/

/-- DT_FREQ of a partition while the mode is active: that of its plan loaded last, since a loaded plan keeps what it was loaded
under (R405). -/
def dtFreqOf (s : State) (part : Nat) : Option Nat :=
  if !dtActive s then none
  else ((s.plans.filter (fun p => (ctxOf s p.2.ctx).partition == part)).foldl (fun (b : Option (Nat × Nat)) p =>
    match b with
    | none => some (p.2.loadedAt, p.2.freq)
    | some x => if x.1 ≤ p.2.loadedAt then some (p.2.loadedAt, p.2.freq) else some x) none).map (·.2)
/-- The bounds that software sets a cluster; deterministic-timing mode consults no FMIN and no FMAX (R427). -/
def softBounds (s : State) (n : Nat) : Nat × Nat :=
  let p := match (clusterOf s n).partition with | some p => partOf s p | none => {}
  match (clusterOf s n).partition.bind (dtFreqOf s) with
  | some f => (f, f)
  | none => if p.pin then (p.fmax, p.fmax) else (p.fmin, p.fmax)
/-- The frequency below which THROTTLE_OUT# tells that a safety loop holds a cluster: DT_FREQ in deterministic-timing mode, else
FMIN (R430). -/
def lowBound (s : State) (n : Nat) : Nat :=
  match (clusterOf s n).partition with
  | some p => (dtFreqOf s p).getD (partOf s p).fmin
  | none => ({} : Partition).fmin

/-- A frequency within the bounds and within what the safety loops allow (R427 to R429). -/
def boundedN (s : State) (cluster n : Nat) : Nat :=
  if s.pow.floor then 16
  else
    let (lo, hi) := softBounds s cluster
    let x := clamp lo hi n
    if s.pow.overrides.contains 1 || s.pow.overrides.contains 3 then min x (clusterOf s cluster).n else x
/-- Brings every running cluster back within its bounds. -/
def restoreBounds (s : State) : State :=
  forAll allClusters s (fun c s => if awake s c then retarget s c (boundedN s c (max (clusterOf s c).n (clockOf s c).target)) else s)

/-- Loop 0, or loop 2 on the cluster's die, skips cycles (R428). -/
def skipNow (s : State) (n : Nat) : Bool :=
  s.pow.overrides.contains 0 || (s.pow.overrides.contains 2 && s.pow.droops.contains (dieOf n))
/-- A cluster's clock starts: at a frequency within its bounds, with the cycle skipping now in force. One that CLKGATE has gated keeps
it stopped (R415, Table 17.6). -/
def startClock (s : State) (n : Nat) : State :=
  if gatedCluster s n then s
  else
    let k := clusterOf s n
    let f := if (clockOf s n).ladder then k.n else boundedN s n k.n
    setCluster s n { k with clock := true, stoppedAt := none, n := f, skip := skipNow s n }

/-! ## Wake of a cluster (R152, R406, R420) -/

/-- Starts the wake of a cluster (R152, R420): a stopped clock restarts, a DRAINING domain returns to ON, an OFF domain
goes to WAKING; one that seals wakes after its switch-off. -/
def startWake (s : State) (n : Nat) : State :=
  let d := domOf s n
  match d.state with
  | .on => modCluster (startClock s n) n (fun k => { k with idleAt := none })
  | .draining => startClock (setDom s n { d with state := .on, target := .on }) n
  | .off => setDom s n { d with state := .waking, target := .on, since := s.ns }
  | _ => setDom s n { d with target := .on }

/-- While deterministic-timing mode is active, every cluster of a partition with a loaded plan is awake and runs at DT_FREQ, but for
what the safety loops hold (R406, R428). -/
def dtSettle (s : State) : State :=
  if !dtActive s then s
  else (s.plans.map (fun p => (ctxOf s p.2.ctx).partition)).foldl (fun s part =>
    (partOf s part).clusters.foldl (fun s n =>
      let s := if awake s n then s else startWake s n
      retarget s n (boundedN s n ((dtFreqOf s part).getD (clusterOf s n).n))) s) s

end Sys2Proof.Machine
end

