-- ==== Sys2Proof/Machine/Finish.lean ====
section
/-! DEFINITION. How tasks start and end (chapters 04, 06): measurement entries, idle clusters, entry of a crew into a
cluster, completion of a task with everything that follows in its plan, and the end of a crew. -/

namespace Sys2Proof.Machine
open Sys2Proof

/-! ## The measurement log (R368) -/

/-- The 96 bytes of an entry (Table 14.9). -/
def measBytes (e : MeasEntry) : Bytes :=
  leBytes 8 e.seq ++ leBytes 4 (e.type % 256 + e.context % 4096 * 2 ^ 16) ++ leBytes 1 e.key ++ leBytes 1 e.role ++ leBytes 2 e.session
    ++ leBytes 8 e.length ++ digestBytes e.digest ++ leBytes 8 (e.tb % 65536) ++ leBytes 8 e.plumb ++ leBytes 8 0

/-- Entries that the log of a partition must still take: one for each session that is ending (R379). -/
def measOwed (s : State) (part : Nat) : Nat := (s.sp.sessions.filter (fun x => x.2.partition == part && x.2.state == .ended)).length
/-- Level of watermark source 5 (Table 18.5). -/
def markMeas (s : State) : State := setLevel s 5 ((s.parts.map (fun x => x.2.log.length)).foldl max 0)
/-- Adds an entry to a partition's log and to the chain or chains of its type; none where the log is full. DEDUCED (log entry 35): the
room for the session-ended entry of an accepted end is kept, since only an operation that completes with BUSY may go without. -/
def measAdd (s : State) (part type ctx key role ses len : Nat) (d : Digest) : Option State :=
  let p := partOf s part
  if 65536 ≤ p.log.length + (if type = 5 then 0 else measOwed s part) then none
  else
    let e : MeasEntry :=
      { seq := p.log.length, type := type, context := ctx, key := key, role := role, session := ses, length := len, digest := d,
        tb := s.fab.plumb.epoch, plumb := s.fab.plumb.time }
    let ext := fun (h : Digest) => Config.sha384 (digestBytes h ++ measBytes e)
    let s := setPart s part
      { p with log := p.log ++ [e],
               progHead := if type = 1 ∨ 4 ≤ type then ext p.progHead else p.progHead,
               loadHead := if 2 ≤ type then ext p.loadHead else p.loadHead }
    some (markMeas s)

/-- Enters a program at the first dispatch of a (session, image digest) pair. -/
def noteProgram (s : State) (part ctx ses len : Nat) (d : Digest) : Option State :=
  if (partOf s part).programs.contains (ses, d) then some s
  else match measAdd s part 1 ctx 0 0 ses len d with
    | none => none
    | some s => some (modPart s part (fun p => { p with programs := (ses, d) :: p.programs }))

/-! ## Idle clusters (R420) -/

/-- A task that has not ended has a placement on the cluster. -/
def placedOn (s : State) (n : Nat) : Bool :=
  s.plans.any (fun p => p.2.tasks.any (fun t => !(t.final && t.stop.isNone) && t.place.any (fun x => x.1 == n)))
/-- A cluster is idle (R420). -/
def isIdle (s : State) (n : Nat) : Bool :=
  let k := clusterOf s n
  (List.range 16).all (fun l => coreFree s (16 * n + l)) && k.reserved.isNone && k.skim.isEmpty && !placedOn s n
/-- Skim ranges of ended tasks, marked for zeroing (R151). -/
def markSkim (s : State) (k : Cluster) : Cluster :=
  let ended := fun (r : TaskRef) => match taskOf s r with | some t => t.final && t.stop.isNone | none => true
  { k with skim := k.skim.map (fun (x : Nat × Nat × TaskRef × Bool) => if ended x.2.2.1 then (x.1, x.2.1, x.2.2.1, true) else x) }
/-- Keeps the moment since which each cluster is idle, and marks skim ranges whose task has ended for zeroing (R151). -/
def refreshClusters (s : State) : State :=
  let s := { s with clusters := s.clusters.map (fun (p : Nat × Cluster) => (p.1, markSkim s p.2)) }
  let idle := fun (p : Nat × Cluster) => if isIdle s p.1 then some (p.2.idleAt.getD s.ns) else none
  { s with clusters := s.clusters.map (fun (p : Nat × Cluster) => (p.1, { p.2 with idleAt := idle p })) }

/-! ## Completion of a task (R134 to R139, R165) -/

/-- Plan flags after a task publishes (R135). -/
def publish (flags : BitVec 64) (base mask result : Nat) : BitVec 64 :=
  (List.range 16).foldl (fun (f : BitVec 64) i =>
    if bit mask i then (if bit result i then f ||| BitVec.ofNat 64 (2 ^ (base + i)) else f &&& (~~~ BitVec.ofNat 64 (2 ^ (base + i)))) else f) flags

/-- A task reaches DONE: flags, status word, Level record, fault report, and the halt that a failure brings. -/
def finishOne (s : State) (r : TaskRef) (st : Status) (result : Nat) : State :=
  match planOf s r.queue, taskOf s r with
  | some p, some t =>
    if t.final then s
    else
      let pub := if t.kind = 0 then st == .ok else st.success
      let res := if pub then result % 65536 &&& t.flagMask else 0
      let s := setPlan s r.queue
        { p with tasks := p.tasks.set r.task { t with state := .done, status := st, flags := res, stop := none, held := none, place := [] },
                 flags := if pub then publish p.flags t.flagBase t.flagMask result else p.flags }
      let s := releaseReserved s r
      let (ws, s) := writeStatus s r.queue r.task st false
      let s := if st.success then s else reportFault s p.ctx st r.queue (cmdIdOf s r.queue) r.task (t.faultVa.bind (fun x => if x.1 = st then some x.2 else none))
      let s := if st.success then s else haltPlan s r.queue st (some r.task)
      -- a task that a reset or destroy ends counts as failed (R134)
      let s := if st.success then s else match planOf s r.queue with
        | some p => if p.halted = some st ∧ (p.culprit.isNone ∨ r.task < p.culprit.getD 0) ∧ (st = .abortedByReset ∨ st = .abortedByDestroy
                ∨ (st = .aborted ∧ (queueOf s r.queue).abortAs = some .aborted))
            then setPlan s r.queue { p with culprit := some r.task } else s
        | none => s
      let s := if ws = .ok then s else haltPlan s r.queue ws none
      -- a mismatch in the cycle of this halt changes nothing of the plan's status (Table 16.6)
      match planOf s r.queue with | some p => levelSend s p r.task st res | none => s
  | _, _ => s

/-- Ends a task that cannot go on: one with started cores stops, any other is done at once. -/
def endTask (s : State) (r : TaskRef) (st : Status) : State :=
  match taskOf s r with
  | none => s
  | some t =>
    if t.entered.isEmpty then finishOne s r st 0
    else beginStop (modTask s r (fun t => { t with state := .running, held := none })) r st

/-- A task whose end is due in the sweep: a held failure whose edges have resolved (R142), or a remote-signal edge on a
counter that the partition does not own once the other edges have resolved (R260). -/
def dueEnd (s : State) (part : Nat) (t : Task) : Option Status :=
  if t.final || t.stop.isSome then none
  else if (t.state == .ready || t.state == .running) && t.held.isSome then t.held
  else if t.localDone && !t.notTaken && t.edges.any (fun e => e.type == 2 && e.resolved.isNone && (arrivalOf s e.counter part).isNone)
    then some .policyDenied
  else none

/-- Resolves edges and ends what is due, until nothing more follows: at most `n` rounds. -/
def settleRounds (s : State) (q : Nat) : Nat → State
  | 0 => s
  | n + 1 =>
    let s := settlePlan s q
    match planOf s q with
    | none => s
    | some p =>
      if p.halted.isSome then s
      else
        let part := (ctxOf s p.ctx).partition
        match (List.range p.tasks.length).findSome? (fun i => (p.tasks[i]?).bind (fun t => (dueEnd s part t).map (fun st => (i, st)))) with
        | none => s
        | some (i, st) => settleRounds (endTask s ⟨q, i⟩ st) q n

/-- Everything that follows a change in a plan: edges, ends, completion, and what clusters hold. -/
def settleAll (s : State) (q : Nat) : State :=
  let n := match planOf s q with | some p => p.tasks.length + 1 | none => 0
  let s' := tryPlanComplete (settleRounds s q n) q
  -- a plan that ends can leave the module in deterministic-timing mode (R405)
  let s' := if (planOf s q).isSome && (planOf s' q).isNone then dtSettle s' else s'
  refreshClusters s'

/-- Completes a task with a status, and settles its plan. -/
def completeTask (s : State) (r : TaskRef) (st : Status) (result : Nat) : State := settleAll (finishOne s r st result) r.queue

/-- Keeps the faulting address of the access with which a task fails (R201). -/
def noteFault (s : State) (r : TaskRef) (st : Status) (va : Option Nat) : State :=
  modTask s r (fun t => { t with faultVa := va.map (fun a => (st, a)) })
/-- The faulting address of a range. -/
def faultRange (s : State) (r : TaskRef) (st : Status) (ctx key va n : Nat) (acc : Acc) : State :=
  noteFault s r st (faultIn s ctx key va n acc)

/-! ## The end of a crew (R100, R101) -/

/-- Puts and signals of a crew's cores go nowhere any longer, and their operations hold no DMA channel. -/
def dropTraffic (s : State) (cores : List Nat) : State :=
  let s := dropChans s (fun u => match u with | .dma c _ => cores.contains c | _ => false)
  { s with puts := s.puts.filter (fun p => !(cores.contains p.sender || cores.contains p.target)),
           signals := s.signals.filter (fun g => !(cores.contains g.sender || cores.contains g.target)) }

/-- Requests of a core's operations wait for no response any longer. -/
def dropCoreRequests (s : State) (core : Nat) : State :=
  { s with fab := { s.fab with pending := s.fab.pending.filter (fun p => match p.2.by' with | .dma c _ => c != core | _ => true) } }

/-- Result flags of a crew: the OR of its cores' copies (R83). -/
def crewFlags (s : State) (t : Task) : Nat := t.cores.foldl (fun f c => f ||| (coreOf s c).flags.toNat) 0

/-- Status and fault address of the first failing core of a crew, lowest crew index (R100). -/
def crewResult (s : State) (r : TaskRef) (t : Task) : Option (Status × Option Nat) :=
  (crewCores s r t).findSome? (fun c => (coreOf s c).result.map (fun st => (st, (coreOf s c).resultVa)))

/-- Started COPY and GATHER operations of a stopped core finish their writes (Table 4.15, step 3). -/
def finishCopies (s : State) (r : TaskRef) (core : Nat) : State :=
  match planOf s r.queue, taskOf s r with
  | some p, some t => ((coreOf s core).dma.filter (fun o => o.started && decide (o.op ≤ 2) && copyReady s r t core o)).foldl
      (fun s o => completeCopy s core r p.ctx t o) s
  | _, _ => s

/-- The scrub that ends a stop sequence has had its 256 cycles on every crew core since bundle issue stopped there (R59, Table 4.15). -/
def stopScrubbed (s : State) (r : TaskRef) (t : Task) : Bool :=
  (crewCores s r t).all (fun c => match (coreOf s c).stopped with | some a => decide (a + 256 ≤ clusterCycle s c) | none => true)

/-- Steps 2 to 5 of the stop sequence: the crew's operations end, its cores are scrubbed, and the task completes with its
status. A squashed task has its state already; the status of an AHEAD task that one of its cores ended is held until its edges
resolve, as a failure of R142 is (R99, R149). -/
def stopComplete (s : State) (r : TaskRef) : State :=
  match taskOf s r with
  | none => s
  | some t =>
    match t.stop with
    | none => s
    | some (st, _) =>
      let found := crewResult s r t
      let cores := crewCores s r t
      let s := if t.state == .running then cores.foldl (fun s c => finishCopies s r c) s else s
      let s := cores.foldl (fun s c => modCore (dropCoreRequests s c) c scrubbed) (dropTraffic s cores)
      let s := match found with | some x => noteFault s r x.1 x.2 | none => s
      let st := (found.map (·.1)).getD st
      if t.state == .running then completeTask s r st 0
      else
        let kept := if t.state == .ahead then found.map (·.1) else none
        let s := dropChans s (fun u => match u with | .load x _ => x == r | _ => false)
        settleAll (modTask s r (fun t => { t with stop := none, place := [], entered := [], loads := [], held := kept })) r.queue

/-- A crew whose every core has released END: each core goes into its scrub, and the task completes with OK. -/
def crewEnd (s : State) (r : TaskRef) : State :=
  match taskOf s r with
  | none => s
  | some t =>
    let fl := crewFlags s t
    let s := t.cores.foldl (fun s c => modCore s c (fun v => { scrubbed v with scrub := some (clusterCycle s c) })) (dropTraffic s t.cores)
    completeTask s r .ok fl

/-! ## Entry of a crew into a cluster (R142, R143, R149) -/

/-- The faulting address of an image fetch (R142): of its header, or of its bundles. -/
def imageFault (s : State) (p : Plan) (t : Task) : Option Nat :=
  match faultIn s p.ctx p.key t.image 64 .fetch with
  | some a => some a
  | none =>
    let head := imageHead (vfetch s p.ctx p.key t.image 64).2.1
    if 1 ≤ head.2.1 ∧ head.2.1 ≤ 4096 then faultIn s p.ctx p.key (t.image + 64) (16 * head.2.1) .fetch else none

/-- Steps 3 to 5 of Table 6.6 on one cluster of a placed task: the image is fetched and checked, the program measured, and
the crew's cores there start. -/
def enterOn (s : State) (r : TaskRef) (cluster : Nat) : State :=
  match planOf s r.queue, taskOf s r with
  | some p, some t =>
    if t.held.isSome || t.stop.isSome || t.entered.contains cluster || !t.place.any (fun x => x.1 == cluster) then s
    else
      let c := ctxOf s p.ctx
      let (st, image, entry, dig, s) := fetchImage s p t
      let (st, s) := if st ≠ .ok then (st, s) else
        match noteProgram s c.partition p.ctx c.session (64 + 16 * image.length) dig with
        | some s => (st, s)
        | none => (.busy, s)
      let s := if st = .ok then s else noteFault s r st (imageFault s p t)
      if st = .ok then
        let s := enterCluster s r t cluster image entry
        let s := if t.entered.isEmpty then { s with regs := { s.regs with dispatch := satAdd 32 s.regs.dispatch 1 } } else s
        modTask s r (fun u => if u.state == .ready then { u with state := .running, runSince := s.ns } else u)
      else if t.state == .ahead then releaseReserved (modTask s r (fun u => { u with held := some st })) r
      else settleAll (endTask s r st) r.queue
  | _, _ => s

/-- The local cores that a task takes on a cluster: those of its placement, or, where it waits for room, its lowest-numbered
free cores as soon as enough are free (R141). -/
def roomOn (s : State) (t : Task) (cluster : Nat) : Option (List Nat) :=
  let want := if t.unit = 1 then 16 else t.crew
  let have' := (t.place.filter (fun x => x.1 == cluster)).flatMap (·.2)
  if have'.length = want && have'.all (fun l => coreFree s (16 * cluster + l)) then some have'
  else let f := freeCores s cluster; if want ≤ f.length then some (f.take want) else none

/-- A placed task enters a cluster that it has not entered, if it is awake and has room there. In the dust-sheet state nothing is
dispatched (R425). -/
def tryEnter (s : State) (r : TaskRef) (cluster : Nat) : State :=
  match taskOf s r with
  | none => s
  | some t =>
    if t.entered.contains cluster || t.stop.isSome || s.pow.dustSheet || !t.place.any (fun x => x.1 == cluster) then s
    else match roomOn s t cluster with
    | none => s
    | some l =>
      if awake s cluster then
        -- the fetch of its image waits for a link (R229)
        if dieWaits s (cluster / 16) then s else enterOn (modTask s r (fun t => { t with place := t.place.map (fun x => if x.1 = cluster then (cluster, l) else x) })) r cluster
      else startWake s cluster

/-- Tasks that a decision has placed at once on a cluster and that have not entered it. -/
def wonOn (s : State) (cluster : Nat) : List TaskRef :=
  s.plans.flatMap (fun p => (((List.range p.2.tasks.length).zip p.2.tasks).filter (fun t =>
    t.2.won && t.2.state == .ready && !t.2.entered.contains cluster && t.2.place.any (fun x => x.1 == cluster))).map (fun t => (⟨p.1, t.1⟩ : TaskRef)))
/-- A reserved cluster passes to its waiting task when it has room, and a task placed on it enters once it is awake (R144 step 5). -/
def passReserved (s : State) (cluster : Nat) : State :=
  let s := match (clusterOf s cluster).reserved with
    | some r => tryEnter s r cluster
    | none => s
  (wonOn s cluster).foldl (fun s r => tryEnter s r cluster) s

end Sys2Proof.Machine
end

