-- ==== Sys2Proof/Machine/Trowel.lean ====
section
/-! DEFINITION. Trowel (chapter 12): descriptors, step records and journal records, the dispatch checks, the decision, the
update rules, the working copy, the four operations, and the early ends of a task. -/

namespace Sys2Proof.Machine
open Sys2Proof

/-! ## Records (Tables 12.1 to 12.5) -/

/-- A 32-bit field of a record. -/
def w32 (b : Bytes) (o : Nat) : Nat := le b o 4
/-- ALGO of a descriptor: 0 AdamW, 1 SGD with momentum, 2 Lion. -/
def descAlgo (d : Bytes) : Nat := bits (w32 d 0) 1 0
/-- AVG. -/
def descAvg (d : Bytes) : Bool := bit (w32 d 0) 3
/-- WEN. -/
def descWen (d : Bytes) : Bool := bit (w32 d 0) 4
/-- WFMT. -/
def descWfmt (d : Bytes) : Nat := bits (w32 d 0) 8 5
/-- WSCALED. -/
def descWscaled (d : Bytes) : Bool := bit (w32 d 0) 9
/-- JMODE. -/
def descJmode (d : Bytes) : Nat := bits (w32 d 0) 11 10
/-- COUNT. -/
def descCount (d : Bytes) : Nat := bits (w32 d 8) 30 0
/-- ROW_LEN. -/
def descRow (d : Bytes) : Nat := bits (w32 d 12) 23 0
/-- LAST_STEP. -/
def descLast (d : Bytes) : Nat := le d 0x68 8

/-- DCFG (R308). -/
def descCfg (d : Bytes) : Nat :=
  let head := leBytes 4 (bits (w32 d 0) 9 0 + bits (w32 d 0) 15 12 * 2 ^ 12)
  leVal ((digestBytes (Config.sha384 (head ++ slice d 8 8 ++ slice d 0x40 0x24))).take 8)

/-- Offsets of the hyperparameters that a rule reads (Table 12.4). -/
def hyperRead (d : Bytes) : List Nat :=
  (match descAlgo d with
    | 0 => [0x40, 0x44, 0x48, 0x4C, 0x50, 0x54, 0x58]
    | 1 => [0x40, 0x54, 0x58]
    | _ => [0x40, 0x44, 0x48, 0x4C, 0x54, 0x58]) ++ (if descAvg d then [0x5C, 0x60] else [])
/-- An FP32 code in [0, 1). -/
def unitInterval (v : Nat) : Bool := v == 0x80000000 || decide (v < 0x3F800000)

/-- The layout of a working-copy row (R106, R107). -/
def rowLay (d : Bytes) (row : Nat) : Lay :=
  let len := if descRow d = 0 then descCount d else descRow d
  ⟨descWfmt d, descWscaled d, 0, le d 0x20 8 + row * le d 0x28 8, [len, 1, 1, 1], [0, 0, 0]⟩

/-- What check 1 of R309 asks of a descriptor. DEDUCED (log entry 23): a WORK_STRIDE below the row bytes that R316 demands of a
working copy of several rows breaks the field's range. -/
def descOk (d : Bytes) : Bool :=
  let n := descCount d
  let wf := descWfmt d
  bits (w32 d 0) 15 12 == 0 && bits (w32 d 4) 31 16 == 0 && bits (w32 d 8) 31 31 == 0 && bits (w32 d 12) 31 24 == 0
    && bits (w32 d 0x38) 31 16 == 0 && w32 d 0x64 == 0
    && (descJmode d == 1 || bits (w32 d 4) 15 8 == 0)
    && decide (1 ≤ n) && decide (n ≤ 2 ^ 30)
    && le d 0x10 8 % 4096 == 0 && le d 0x18 8 % 64 == 0 && le d 0x20 8 % 64 == 0 && le d 0x28 8 % 64 == 0 && le d 0x30 8 % 64 == 0
    && bits (w32 d 0x38) 15 0 != 0 && w32 d 0x3C % 64 == 0
    && descAlgo d != 3 && descJmode d != 3
    && (!descWen d || (decide (1 ≤ wf) && decide (wf ≤ 7)))
    && (descWscaled d || !(wf == 5 || wf == 6 || wf == 7)) && (!descWscaled d || !(wf == 1 || wf == 2))
    && (!descWscaled d || descRow d % 32 == 0)
    && (descRow d == 0 || n % descRow d == 0)
    && (!descWen d || descRow d == 0 || n == descRow d || decide ((rowLay d 0).rowBytes ≤ le d 0x28 8))
    && (descJmode d == 0 || decide (ceilDiv (256 + 4 * n) 64 * 64 ≤ w32 d 0x3C))
    && (hyperRead d).all (fun o => !fp32NonFinite (w32 d o))
    && (descAlgo d != 0 || (unitInterval (w32 d 0x40) && unitInterval (w32 d 0x48)))
    && !bit (w32 d 0x78) 31

/-- What check 1 of R309 asks of a step record: reserved fields and the bounds of the loss scale. -/
def stepRecOk (r : Bytes) : Bool :=
  let lo := sext 8 (le r 0x49 1)
  let hi := sext 8 (le r 0x4A 1)
  le r 0x1E 2 == 0 && (slice r 0x28 0x18).all (· == 0) && le r 0x4B 1 == 0 && bits (w32 r 0x50) 31 12 == 0
    && (slice r 0x5C 0x24).all (· == 0) && decide (-126 ≤ lo) && decide (lo ≤ hi) && decide (hi ≤ 126)

/-- OP of a Trowel task. -/
def trowelOp (t : Task) : Nat := bits (t.args.getD 0 0).toNat 1 0
/-- DESC_VA and AUX_VA. -/
def trowelVa (t : Task) (i : Nat) : Nat := (t.args.getD i 0).toNat + (t.args.getD (i + 1) 0).toNat % 65536 * 2 ^ 32
/-- What check 1 of R309 asks of the arguments (Table 12.1). -/
def trowelArgsOk (t : Task) : Bool :=
  let a := fun i => (t.args.getD i 0).toNat
  bits (a 0) 7 2 == 0 && bits (a 0) 31 24 == 0 && decide (a 2 < 65536) && decide (a 4 < 65536) && a 5 == 0 && a 6 == 0 && a 7 == 0
    && (trowelOp t == 3 || bits (a 0) 23 16 == 0) && (trowelOp t != 1 || trowelVa t 1 == 0)
    && trowelVa t 1 % 128 == 0 && trowelVa t 3 % 128 == 0

/-! ## Memory of a Trowel task -/

/-- The first failing translation of a range, with the tier that R305 demands of its pages. -/
def tierCheck (s : State) (ctx key va n : Nat) (acc : Acc) (cap : Bool) : Status :=
  ((linesOf va n).map (fun v => match translate s hubAgent ctx v key acc with
    | (.ok, a) => if isCap a == cap then Status.ok else .policyDenied
    | (st, _) => st)).foldl (fun a b => if a = .ok then b else a) .ok
/-- Reads a range whose pages must map one tier. -/
def tierRead (s : State) (ctx key va n : Nat) (cap : Bool) : Status × Bytes × State :=
  let st := tierCheck s ctx key va n .read cap
  if st = .ok then vread s ctx key va n else (st, [], s)

/-- A task fails at the first line of a range that its tier or its access fails (R201, R305). -/
def tierFault (s : State) (r : TaskRef) (st : Status) (ctx key va n : Nat) (acc : Acc) (cap : Bool) : State :=
  match (linesOf va n).find? (fun a => tierCheck s ctx key a 1 acc cap != .ok) with
  | some a => noteFault s r st (some (max va a))
  | none => faultRange s r st ctx key va n acc

/-- Writes lines in order and stops at the first that fails (Table 12.6). -/
def writeStop (s : State) (ctx key : Nat) : List (Nat × Nat × Nat) → Status × State
  | [] => (.ok, s)
  | (la, m, v) :: rest =>
    match vwriteLine s ctx key la m v false with
    | (.ok, s) => writeStop s ctx key rest
    | r => r
/-- The faulting line of a list of writes. -/
def writeFault (s : State) (r : TaskRef) (st : Status) (ctx key : Nat) (l : List (Nat × Nat × Nat)) : State :=
  noteFault s r st ((l.find? (fun x => (vwriteLine s ctx key x.1 x.2.1 x.2.2 false).1 != .ok)).map (·.1))
/-- The lines of a byte string at an address. -/
def lineList (va : Nat) (b : Bytes) : List (Nat × Nat × Nat) := (linesOf va b.length).map (fun l => (l, lineMask va b l))

/-- A write of the unit: it enters the task's digest (R408). -/
def trowelWrite (s : State) (r : TaskRef) (ctx key va : Nat) (b : Bytes) : Status × State :=
  let (st, s) := writeStop (noteBytes s r va b) ctx key (lineList va b)
  (st, if st = .ok then s else writeFault s r st ctx key (lineList va b))

/-! ## Completion -/

/-- The running task completes: the units are free, the page's counters move (Table 19.11). -/
def trowelDone (s : State) (r : TaskRef) (st : Status) (flags : Nat) : State :=
  let s := { s with
    fab := { s.fab with trowel := none },
    regs := { s.regs with twDone := satAdd 32 s.regs.twDone (b2n st.success), twSkipped := satAdd 32 s.regs.twSkipped (b2n (st == .stepSkipped)) } }
  completeTask s r st flags

/-- The unit's line of a descriptor (bytes 0x40 to 0x7F), written whole with its "in" fields unchanged (R315). -/
def writeDesc (s : State) (t : Trowel) : Status × State :=
  trowelWrite s t.task t.ctx t.dkey (t.descVa + 0x40) (slice t.desc 0x40 64)

/-- A write failed partway: DIRTY is set with PROGRESS at the start of the failing chunk, and the task completes (R322). -/
def trowelDirty (s : State) (t : Trowel) (at' : Nat) (st : Status) : State :=
  let t := { t with desc := patch t.desc 0x78 (leBytes 4 (at' + 2 ^ 31)) }
  let kept := (taskOf s t.task).bind (·.faultVa)
  let s := modTask (writeDesc s t).2 t.task (fun u => { u with faultVa := kept })
  let s := { s with regs := { s.regs with twDirty := satAdd 32 s.regs.twDirty 1 } }
  let s := pulseEvent s pgTrowel 0 [(0, statusCode st), (1, at' / 4096)]
  trowelDone s t.task st 0

/-! ## DECIDE (R311) -/

/-- The FP32 code of 2^e, for e in the range of the loss scale. -/
def pow2Code (e : Int) : Nat := ((e + 127) * 2 ^ 23).toNat

/-- The decision: line 1 of the step record as DECIDE writes it. -/
def decideLine (r : Bytes) (q f : Nat) : Bytes :=
  let ls := sext 8 (le r 0x48 1)
  let lsMin := sext 8 (le r 0x49 1)
  let lsMax := sext 8 (le r 0x4A 1)
  let u := fp32Mul (pow2Code (-ls)) (w32 r 8)
  let norm := fp32Mul (fp32Sqrt q) u
  let bad := bit f 0 || fp32NonFinite norm
  let skip := bad || fp32Lt (w32 r 0x10) norm
  let cause := if bad then 1 else if skip then 2 else 0
  let clip := !skip && fp32Lt 0 (w32 r 0xC) && fp32Lt (w32 r 0xC) norm
  let k := if skip then 0 else if clip then fp32Mul u (fp32Div (w32 r 0xC) norm) else u
  let good := if skip then 0 else min (le r 0x4E 2 + 1) 0xFFFF
  let grow := le r 0x4C 2
  let grown := !skip && grow != 0 && good == grow
  let ls' := if skip then max (ls - 1) lsMin else if grown then min (ls + 1) lsMax else ls
  let b8 := fun (i : Int) => leBytes 1 (i % 256).toNat
  leBytes 8 (le r 0 8) ++ b8 ls' ++ slice r 0x49 5 ++ leBytes 2 (if grown then 0 else good)
    ++ b8 ls ++ leBytes 3 (b2n skip + cause * 2 + b2n clip * 8) ++ leBytes 4 norm ++ leBytes 4 k ++ List.replicate 0x24 0

/-- Status and result flags that line 1 records (0x50 is its LS_USED word). -/
def decideOutcome (r : Bytes) : Status × Nat :=
  let w := w32 r 0x50
  (if bit w 8 then .stepSkipped else .ok, b2n (bit w 8) + b2n (bit w 11) * 2)

/-- A checked DECIDE runs to its end. -/
def trowelDecide (s : State) (r : TaskRef) (ctx dkey auxVa : Nat) (rec' : Bytes) : State :=
  let ls := sext 8 (le rec' 0x48 1)
  if ls < sext 8 (le rec' 0x49 1) ∨ sext 8 (le rec' 0x4A 1) < ls then trowelDone s r .descInvalid 0
  else if le rec' 0x40 8 = le rec' 0 8 then
    let (st, fl) := decideOutcome rec'
    trowelDone s r st fl
  else
    let (st, q, s) := vread s ctx dkey (le rec' 0x18 6) 8
    if st ≠ .ok then trowelDone (faultRange s r st ctx dkey (le rec' 0x18 6) 8 .read) r st 0
    else
      let line := decideLine rec' (le q 0 4) (le q 4 4)
      let (st, s) := trowelWrite s r ctx dkey (auxVa + 0x40) line
      if st ≠ .ok then trowelDone s r st 0
      else
        let (st, fl) := decideOutcome (slice rec' 0 64 ++ line)
        trowelDone s r st fl

/-! ## The update rules (R313 to R315) -/

/-- Scalars of an applied step. -/
structure Scalars where
  (algo : Nat) (nesterov avg : Bool)
  (b1 c1 b2 c2 eps wd decay avgC : Nat)
  (lr k p1n p2n bc1 bc2 : Nat)
  deriving DecidableEq, Repr, Inhabited

/-- The scalars from a descriptor, KCOEF and LR. -/
def scalarsOf (d : Bytes) (k lr : Nat) : Scalars :=
  let one := 0x3F800000
  let p1n := fp32Mul (w32 d 0x70) (w32 d 0x40)
  let p2n := fp32Mul (w32 d 0x74) (w32 d 0x48)
  { algo := descAlgo d, nesterov := bit (w32 d 0) 2, avg := descAvg d,
    b1 := w32 d 0x40, c1 := w32 d 0x44, b2 := w32 d 0x48, c2 := w32 d 0x4C, eps := w32 d 0x50, wd := w32 d 0x54,
    decay := w32 d 0x5C, avgC := w32 d 0x60,
    lr := fp32Mul lr (w32 d 0x58), k := k, p1n := p1n, p2n := p2n, bc1 := fp32Sub one p1n, bc2 := fp32Sub one p2n }

/-- W after its decayed step along `d`. -/
def stepW (c : Scalars) (w d : Nat) : Nat := fp32Sub w (fp32Mul c.lr (fp32Add d (fp32Mul c.wd w)))

/-- New W, M, V of one parameter with the reduced gradient already scaled to `g`. -/
def updateWmv (c : Scalars) (w m v g : Nat) : Nat × Nat × Nat :=
  match c.algo with
  | 0 =>
    let m := fp32Add (fp32Mul c.b1 m) (fp32Mul c.c1 g)
    let v := fp32Add (fp32Mul c.b2 v) (fp32Mul c.c2 (fp32Mul g g))
    let d := fp32Div (fp32Div m c.bc1) (fp32Add (fp32Sqrt (fp32Div v c.bc2)) c.eps)
    (stepW c w d, m, v)
  | 1 =>
    let m := fp32Add (fp32Mul c.b1 m) g
    let u := if c.nesterov then fp32Add g (fp32Mul c.b1 m) else m
    (stepW c w u, m, v)
  | _ =>
    let x := fp32Add (fp32Mul c.b1 m) (fp32Mul c.c1 g)
    let sgn := if fp32 x = .nan then 0x7FC00000 else if fp32Lt 0 x then 0x3F800000 else if fp32Lt x 0 then 0xBF800000 else 0
    (stepW c w sgn, fp32Add (fp32Mul c.b2 m) (fp32Mul c.c2 g), v)

/-- One parameter: the four state words after the step, from the old ones and the reduced gradient. -/
def updateParam (c : Scalars) (old : List Nat) (grad : Nat) : List Nat :=
  let (w, m, v) := updateWmv c (nth old 0) (nth old 1) (nth old 2) (fp32Mul grad c.k)
  let a := nth old 3
  [w, m, v, if c.avg then fp32Add (fp32Mul c.decay a) (fp32Mul c.avgC w) else a]

/-! ## The working copy (R316, R317) -/

/-- Bit writes of the working-copy elements from parameter `lo` on, from their new W values. -/
def workWrites (d : Bytes) (lo : Nat) (ws : List Nat) : List BitWrite :=
  let len := if descRow d = 0 then descCount d else descRow d
  let fmt := descWfmt d
  (List.range ws.length).flatMap (fun i =>
    let p := lo + i
    let l := rowLay d (p / len)
    let c := [p % len, 0, 0, 0]
    let w := nth ws i
    if descWscaled d then
      let b := i / 32 * 32
      let sc := blockScale fmt ((ws.drop b).take 32)
      ⟨l.elemBit c, fmtBits fmt, convScaled fmt sc none w⟩ :: (if i % 32 = 0 then [⟨l.scaleByte c * 8, 8, sc⟩] else [])
    else [⟨l.elemBit c, fmtBits fmt, convUnscaled fmt none w⟩])

/-! ## Applying a step (R312, R321) -/

/-- STEP, SKIP, KCOEF and LR of the task: from the step record, or for REPLAY from the journal record. -/
def trowelStepNo (t : Trowel) : Nat := if t.op = 3 then le t.aux 8 8 else le t.aux 0 8
def trowelSkip (t : Trowel) : Bool := if t.op = 3 then bit (w32 t.aux 0x80) 1 else bit (w32 t.aux 0x50) 8
def trowelK (t : Trowel) : Nat := if t.op = 3 then w32 t.aux 0x8C else w32 t.aux 0x58
def trowelLr (t : Trowel) : Nat := if t.op = 3 then w32 t.aux 0x2C else w32 t.aux 0x14

/-- Every chunk has retired: the descriptor takes the step's scalars and number, and the task completes (R315). -/
def trowelFinish (s : State) (t : Trowel) : State :=
  let c := scalarsOf t.desc (trowelK t) (trowelLr t)
  let d := if c.algo = 0 then patch (patch t.desc 0x70 (leBytes 4 c.p1n)) 0x74 (leBytes 4 c.p2n) else t.desc
  let d := patch (patch (patch d 0x7C (leBytes 4 (w32 d 0x7C + 1))) 0x68 (leBytes 8 (trowelStepNo t))) 0x78 (leBytes 4 0)
  match writeDesc s { t with desc := d } with
  | (.ok, s) => trowelDone s t.task .ok (b2n t.badW * 2)
  | (st, s) => trowelDirty s t t.progress st

/-- The seal is visible, or none is written: a skipped step moves the descriptor on and completes with STEP_SKIPPED; an
applied one begins its chunks at PROGRESS (R312). -/
def trowelApply (s : State) (t : Trowel) : State :=
  if trowelSkip t then
    let d := patch (patch t.desc 0x68 (leBytes 8 (trowelStepNo t))) 0x78 (leBytes 4 0)
    match writeDesc s { t with desc := d } with
    | (.ok, s) => trowelDone s t.task .stepSkipped 1
    | (st, s) => trowelDone s t.task st 0
  else if descCount t.desc ≤ t.progress then trowelFinish s t
  else { s with fab := { s.fab with trowel := some { t with sealing := false } } }

/-- A key index of the descriptor as the task is bound to it: one that was erased IMMEDIATE since gives KEY_REVOKED (R213). -/
def Trowel.bound (t : Trowel) (key : Nat) : Nat := if t.revoked.contains key then key + 256 else key
/-- Key index of the parameter state. -/
def Trowel.stateKey (t : Trowel) : Nat := t.bound (bits (w32 t.desc 0) 23 16)
/-- Key index of the gradient. -/
def Trowel.gradKey (t : Trowel) : Nat := t.bound (bits (w32 t.desc 0) 31 24)
/-- Key index of the working copy. -/
def Trowel.workKey (t : Trowel) : Nat := t.bound (bits (w32 t.desc 4) 7 0)
/-- Key index of the journal. -/
def Trowel.journalKey (t : Trowel) : Nat := t.bound (bits (w32 t.desc 4) 15 8)

/-- The gradient bytes of parameters `lo` to `hi - 1`. -/
def trowelGrad (s : State) (t : Trowel) (lo hi : Nat) : Status × Bytes × State :=
  if t.op = 3 then vread s t.ctx t.rkey (t.auxVa + 0x100 + 4 * lo) (4 * (hi - lo))
  else tierRead s t.ctx t.gradKey (le t.desc 0x18 8 + 4 * lo) (4 * (hi - lo)) false
/-- The faulting address of a chunk's reads: of its state, or of its gradient. -/
def chunkFault (s : State) (t : Trowel) (st st2 : Status) (va lo hi : Nat) : State :=
  let key := t.gradKey
  if st ≠ .ok then tierFault s t.task st t.ctx t.stateKey va (16 * (hi - lo)) .read true
  else if st2 = .ok then s
  else if t.op = 3 then faultRange s t.task st2 t.ctx t.rkey (t.auxVa + 0x100 + 4 * lo) (4 * (hi - lo)) .read
  else tierFault s t.task st2 t.ctx key (le t.desc 0x18 8 + 4 * lo) (4 * (hi - lo)) .read false

/-- The first failing translation of a chunk's writes, found before any of them begins (Table 12.6, first row). -/
def chunkWritable (s : State) (t : Trowel) (va n : Nat) (work : Tab (Nat × Nat)) : Status :=
  let st := tierCheck s t.ctx t.stateKey va n .write true
  if st ≠ .ok then st
  else (work.map (fun p => tierCheck s t.ctx t.workKey (p.1 * 64) 64 .write false)).foldl (fun a b => if a = .ok then b else a) .ok

/-- The faulting address of a chunk's writes found before any of them begins: of its state, or of a working line. -/
def blockedWrite (s : State) (t : Trowel) (st : Status) (va n : Nat) (work : Tab (Nat × Nat)) : State :=
  if tierCheck s t.ctx t.stateKey va n .write true != .ok then
    tierFault s t.task st t.ctx t.stateKey va n .write true
  else noteFault s t.task st
    ((work.find? (fun p => tierCheck s t.ctx t.workKey (p.1 * 64) 64 .write false != .ok)).map (fun p => p.1 * 64))

/-- One chunk: reads, updates, writes, retirement. -/
def trowelChunk (s : State) (t : Trowel) : State :=
  let d := t.desc
  let lo := t.progress
  let hi := min (descCount d) ((lo / 4096 + 1) * 4096)
  let n := hi - lo
  let va := le d 0x10 8 + 16 * lo
  let (st, old, s) := tierRead s t.ctx t.stateKey va (16 * n) true
  let (st2, grad, s) := trowelGrad s t lo hi
  let s := chunkFault s t st st2 va lo hi
  let st := if st = .ok then st2 else st
  -- a sealed domain counts as a write failure (Table 12.9)
  if st = .domainSealed then trowelDirty s t lo st
  else if st ≠ .ok then trowelDone s t.task st 0
  else
    let c := scalarsOf d (trowelK t) (trowelLr t)
    let new := (List.range n).map (fun i => updateParam c ((List.range 4).map (fun j => le old (16 * i + 4 * j) 4)) (le grad (4 * i) 4))
    let ws := new.map (fun p => nth p 0)
    let state := new.flatMap (fun p => p.flatMap (leBytes 4))
    let work := if descWen d then groupBits (workWrites d lo ws) else []
    let st := chunkWritable s t va (16 * n) work
    if st ≠ .ok then
      trowelDone (blockedWrite s t st va (16 * n) work) t.task st 0
    else
      let (st, s) := trowelWrite s t.task t.ctx t.stateKey va state
      if st ≠ .ok then trowelDirty s t lo st
      else
        let lines := work.map (fun p => (p.1 * 64, p.2.1, p.2.2))
        let s := lines.foldl (fun s p => noteWrite s t.task p.1 p.2.1 p.2.2) s
        let (st, s) := writeStop s t.ctx t.workKey lines
        if st ≠ .ok then trowelDirty (writeFault s t.task st t.ctx t.workKey lines) t lo st
        else
          let t := { t with progress := hi, badW := t.badW || ws.any fp32NonFinite, desc := patch d 0x78 (leBytes 4 hi) }
          match writeDesc s t with
          | (.ok, s) =>
            if hi = descCount d then trowelFinish s t else { s with fab := { s.fab with trowel := some t } }
          | (st, s) => trowelDirty s t lo st

/-! ## The journal (R318, R319) -/

/-- The slot of a step. -/
def slotAddr (d : Bytes) (step : Nat) : Nat := (le d 0x30 8 + step % bits (w32 d 0x38) 15 0 * w32 d 0x3C) % 2 ^ 64

/-- Line 0x080 of a record: the seal (R319). -/
def sealLine80 (t : Trowel) : Bytes :=
  let w := w32 t.aux 0x50
  leBytes 4 (1 + bits w 8 8 * 2 + bits w 10 9 * 4 + bits w 11 11 * 16) ++ leBytes 4 (bits w 7 0)
    ++ slice t.aux 0x54 8 ++ slice t.desc 0x70 8 ++ slice t.desc 0x7C 4 ++ List.replicate 0x24 0

/-- Bytes 0x000 to 0x07F of a record. -/
def journalHead (s : State) (t : Trowel) (shard payload : Bytes) : Bytes :=
  leBytes 4 0x5A4A5231 ++ leBytes 2 1 ++ leBytes 2 s.fab.member.node ++ slice t.aux 0 8 ++ leBytes 4 (descCount t.desc) ++ leBytes 4 0
    ++ leBytes 8 (descCfg t.desc) ++ slice t.aux 8 16 ++ slice t.aux 0x48 1 ++ leBytes 7 0 ++ slice shard 0 8
    ++ leBytes 2 s.fab.plumb.epoch ++ leBytes 6 0 ++ leBytes 8 s.fab.plumb.time ++ digestBytes (Config.sha384 payload)

/-- PUT and STORE packets of a byte string at a global address (R247). -/
def writePackets (s : State) (key ga : Nat) (b : Bytes) : List Packet :=
  let off := bits ga 35 0
  let base := fun (op vc x : Nat) (pl : Bytes) =>
    { blankPacket s op vc key (gaNode ga) with window := bits ga 47 36, offset := x % 2 ^ 36, len := pl.length, payload := pl }
  if b.length != 0 && decide (off % 64 + b.length ≤ 64) then [base 0x01 1 off b]
  else (cutPackets off b.length).map (fun p => base 0x02 0 (off + p.1) (slice b p.1 p.2))

/-- A journal write under JMODE 0b10 ends: a JOURNAL completes, a STEP goes on to its state. -/
def sealDone (s : State) (t : Trowel) : State :=
  match t.failed with
  | some st => trowelDone s t.task st 0
  | none => if t.op = 2 then trowelDone s t.task .ok 0 else trowelApply s t

/-- Sends what may be sent of the running task's journal packets, at most `n`; when none is left and every response has
come, the write ends. -/
def pumpTrowel (s : State) : Nat → State
  | 0 => s
  | n + 1 =>
    match s.fab.trowel with
    | none => s
    | some t =>
      if !t.sealing then s
      else match t.unsent with
        | [] => if t.xids.isEmpty then sealDone s t else s
        | p :: rest =>
          let p := { p with keyIdx := (pairActive s p.keyIdx).getD p.keyIdx }
          let next := fun (s : State) (t : Trowel) => { s with fab := { s.fab with trowel := some t } }
          if !(nodeOf s p.dstNode).member then
            pumpTrowel (next s { t with unsent := [], failed := some (t.failed.getD .staleEpoch) }) n
          else if s.pow.dustSheet || !mayRequest s p || !maySend s p.keyIdx then s
          else match sendRequest s p .trowel [] with
            | (.ok, xid, s) => pumpTrowel (next s { t with unsent := rest, xids := t.xids ++ [xid] }) n
            | (st, _, s) => pumpTrowel (next s { t with unsent := [], failed := some (t.failed.getD st) }) n
/-- Sends as much as may be sent. -/
def pumpTrowelAll (s : State) : State :=
  match s.fab.trowel with | some t => pumpTrowel s (t.unsent.length + 2) | none => s

/-- A response to a journal packet: the first status other than OK stands. -/
def trowelResp (s : State) (xid : Nat) (st : Status) : State :=
  match s.fab.trowel with
  | none => s
  | some t =>
    if !t.xids.contains xid then s
    else
      let t := { t with xids := t.xids.filter (· != xid),
                        failed := if st = .ok then t.failed else some (t.failed.getD st),
                        unsent := if st = .ok then t.unsent else [] }
      pumpTrowelAll { s with fab := { s.fab with trowel := some t } }

/-- Writes pieces of a record, in order, to the slot under the descriptor's JMODE. -/
def journalWrite (s : State) (t : Trowel) (pieces : List (Nat × Bytes)) : State :=
  let base := slotAddr t.desc (trowelStepNo t)
  if descJmode t.desc = 1 then
    let (st, s) := pieces.foldl (fun (r : Status × State) (p : Nat × Bytes) =>
      if r.1 = .ok then trowelWrite r.2 t.task t.ctx t.journalKey (base + p.1) p.2 else r) (.ok, s)
    sealDone s { t with failed := if st = .ok then none else some st }
  else
    match lathActive s (ctxOf s t.ctx).session with
    | none => trowelDone s t.task .policyDenied 0
    | some key =>
      let s := pieces.foldl (fun s p => noteBytes s t.task (base + p.1) p.2) s
      let ps := pieces.flatMap (fun p => writePackets s key (base + p.1) p.2)
      pumpTrowel { s with fab := { s.fab with trowel := some { t with sealing := true, unsent := ps } } } (ps.length + 2)

/-- A checked JOURNAL (R319). -/
def trowelJournal (s : State) (t : Trowel) : State :=
  let n := descCount t.desc
  let gkey := t.gradKey
  let gva := le t.desc 0x18 8
  if descJmode t.desc = 0 then trowelDone s t.task .descInvalid 0
  else
    let (st, payload, s) := tierRead s t.ctx gkey gva (4 * n) false
    let (st2, shard, s) := tierRead s t.ctx gkey (gva + ceilDiv (4 * n) 64 * 64 + 8 * ceilDiv n 16384) 8 false
    if st ≠ .ok then trowelDone (tierFault s t.task st t.ctx gkey gva (4 * n) .read false) t.task st 0
    else if st2 ≠ .ok then
      trowelDone (tierFault s t.task st2 t.ctx gkey (gva + ceilDiv (4 * n) 64 * 64 + 8 * ceilDiv n 16384) 8 .read false) t.task st2 0
    else journalWrite s t [(0x100, payload), (0, journalHead s t shard payload), (0x80, List.replicate 64 0)]

/-- A checked STEP (R312). -/
def trowelStep (s : State) (t : Trowel) : State :=
  let step := trowelStepNo t
  let last := descLast t.desc
  if le t.aux 0x40 8 ≠ step then trowelDone s t.task .notReady 0
  else if step ≤ last then trowelDone s t.task (if trowelSkip t then .stepSkipped else .ok) 4
  else if last + 1 < step then trowelDone s t.task .descInvalid 0
  else if descJmode t.desc = 0 then trowelApply s t
  else journalWrite s t [(0x80, sealLine80 t)]

/-- A checked REPLAY (R320). -/
def trowelReplay (s : State) (t : Trowel) : State :=
  let a := t.aux
  let step := trowelStepNo t
  let last := descLast t.desc
  if w32 a 0 ≠ 0x5A4A5231 ∨ le a 4 2 ≠ 1 ∨ bits (w32 a 0x10) 30 0 ≠ descCount t.desc ∨ le a 0x18 8 ≠ descCfg t.desc
      ∨ bit (w32 a 0x80) 0 = false ∨ last + 1 < step then trowelDone s t.task .descInvalid 0
  else
    let (st, payload, s) := vread s t.ctx t.rkey (t.auxVa + 0x100) (4 * descCount t.desc)
    if st ≠ .ok then trowelDone (faultRange s t.task st t.ctx t.rkey (t.auxVa + 0x100) (4 * descCount t.desc) .read) t.task st 0
    else if digestBytes (Config.sha384 payload) ≠ slice a 0x50 48 then trowelDone s t.task .tagMismatch 0
    else if step ≤ last then trowelDone s t.task .ok 4
    else if !trowelSkip t && (slice a 0x90 8 != slice t.desc 0x70 8 || slice a 0x98 4 != slice t.desc 0x7C 4) then
      trowelDone s t.task .descInvalid 0
    else trowelApply s t

/-! ## Dispatch (R309) -/

/-- A key index names no key context of the partition. -/
def keyOutside (s : State) (part key : Nat) : Bool := (keyOf s key).state == .free || (keyOf s key).partition != part
/-- A key index selects a MEM_RO key context. -/
def keyReadOnly (s : State) (key : Nat) : Bool := (keyOf s key).cls == 1

/-- Check 3 of R309, with the sources of R376: what every operation reads under DKEY goes to device memory or a Lath address. -/
def trowelKeysOk (s : State) (part op dkey rkey : Nat) (d : Bytes) : Bool :=
  let sk := bits (w32 d 0) 23 16
  let gk := bits (w32 d 0) 31 24
  let wk := bits (w32 d 4) 7 0
  let jk := bits (w32 d 4) 15 8
  !keyOutside s part dkey && !keyReadOnly s dkey
    && (op != 3 || (!keyOutside s part rkey && !keyReadOnly s rkey))
    && (op == 1 || (!keyOutside s part sk && !keyOutside s part gk && !keyOutside s part wk && !keyReadOnly s sk && !keyReadOnly s wk
        && !(keyReadOnly s gk && op != 3)
        && (descJmode d != 1 || (!keyOutside s part jk && !keyReadOnly s jk))))

/-- A Trowel task is dispatched: its descriptor and the record at AUX_VA are read once and checked in the order of R309, and
the operation starts. A record that cannot be read is judged by check 2 alone. -/
def trowelStart (s : State) (r : TaskRef) (ctx part : Nat) (t : Task) : State :=
  let op := trowelOp t
  let a0 := (t.args.getD 0 0).toNat
  let dkey := bits a0 15 8
  let rkey := bits a0 23 16
  let descVa := trowelVa t 1
  let auxVa := trowelVa t 3
  if !trowelArgsOk t then trowelDone s r .descInvalid 0
  else
    let (st1, d, s) := if op = 1 then (Status.ok, ([] : Bytes), s) else tierRead s ctx dkey descVa 128 false
    let (st2, aux, s) := if op = 3 then vread s ctx rkey auxVa 256 else tierRead s ctx dkey auxVa 128 false
    if (op != 1 && st1 == .ok && !descOk d) || (op != 3 && st2 == .ok && !stepRecOk aux) then trowelDone s r .descInvalid 0
    else if st1 ≠ .ok then trowelDone (tierFault s r st1 ctx dkey descVa 128 .read false) r st1 0
    else if st2 ≠ .ok then trowelDone (if op = 3 then faultRange s r st2 ctx rkey auxVa 256 .read
      else tierFault s r st2 ctx dkey auxVa 128 .read false) r st2 0
    else if !trowelKeysOk s part op dkey rkey d then trowelDone s r .policyDenied 0
    else
      let p := bits (w32 d 0x78) 30 0
      let u : Trowel :=
        { task := r, ctx := ctx, op := op, descVa := descVa, dkey := dkey, desc := d, aux := aux, auxVa := auxVa, rkey := rkey,
          first := p, progress := p, sealing := false, unsent := [], xids := [], failed := none, badW := false }
      match op with
      | 0 => trowelStep s u
      | 1 => trowelDecide s r ctx dkey auxVa aux
      | 2 => trowelJournal s u
      | _ => trowelReplay s u

/-- A forced abort: PROGRESS stands at the parameters retired, and packets wait for no response (Table 12.6). -/
def trowelAbort (s : State) (r : TaskRef) (st : Status) : State :=
  match s.fab.trowel with
  | some t => if t.task = r then trowelDone (t.xids.foldl dropPending s) r st 0 else s
  | none => s

/-- The units with a chunk in flight, as a mask (R302): the controllers that hold the state of the chunk that retires next. DESIGN
CHOICE (log entry 23): one chunk is in flight at a time; R305 allows up to eight. -/
def trowelBusy (s : State) (t : Trowel) : Nat :=
  if t.sealing || !(t.op == 0 || t.op == 3) then 0
  else
    let lo := t.progress
    let hi := min (descCount t.desc) ((lo / 4096 + 1) * 4096)
    let units := (linesOf (le t.desc 0x10 8 + 16 * lo) (16 * (hi - lo))).filterMap (fun v =>
      match translate s hubAgent t.ctx v t.stateKey .read with
      | (.ok, a) => if isCap a then some (ctlNo a - 16) else none
      | _ => none)
    (List.range 8).foldl (fun m k => m + b2n (units.contains k) * 2 ^ k) 0

/-- TROWEL_CHUNK_RETIRE: the next chunk of the running STEP or REPLAY is processed and retires (R305, R313 to R317, R321,
R322); the last one completes the task. Held memory requests stay pending in the dust-sheet state and while a link waits (R229). -/
def execTrowelChunkRetire (s : State) : Host.Outcome State Fault Refusal :=
  match s.fab.trowel with
  | some t => if t.sealing || s.pow.dustSheet || dieWaits s hubDie || !(t.op == 0 || t.op == 3) then .next s else .next (trowelChunk s t)
  | none => .next s

end Sys2Proof.Machine
end

