-- ==== Sys2Proof/Machine/CkptSend.lean ====
section
/-! DEFINITION. Captures and restores under way (R331 to R345): their operands and regions, the packets that one exchanges with a Lath
address, and the ways in which one ends early. -/

namespace Sys2Proof.Machine
open Sys2Proof

/-! ## Operands (Table 13.2) -/

/-- The 32-byte region or target entry at an offset. -/
def decodeRegion (b : Bytes) (o : Nat) : Region :=
  let w := le b o 8
  ⟨bits w 47 0, bits w 55 48, le b (o + 8) 8, le b (o + 16) 8, bits w 63 56 + le b (o + 24) 8⟩
/-- CONTEXT of a capture. -/
def capContext (b : Bytes) : Nat := bits (le b 0 4) 11 0
/-- KIND: 0 FULL, 1 DIFF, 2 JOURNAL. -/
def capKind (b : Bytes) : Nat := bits (le b 0 4) 13 12
/-- DEST: 0 host bus, 1 Lath, 2 device. -/
def capDest (b : Bytes) : Nat := bits (le b 0 4) 19 18
/-- DEST_KEY. -/
def capKey (b : Bytes) : Nat := le b 4 1
/-- WRAP_SLOT. -/
def capSlot (b : Bytes) : Nat := le b 5 1
/-- CKPT_NO. -/
def capNo (b : Bytes) : Nat := le b 8 8
/-- STEP_KEY. -/
def capStepKey (b : Bytes) : Nat := bits (le b 0x18 8) 55 48
/-- STEP_REC_VA. -/
def capStepVa (b : Bytes) : Nat := bits (le b 0x18 8) 47 0
/-- DEST_ADDR. -/
def capAddr (b : Bytes) : Nat := le b 0x20 8
/-- The regions of a capture. -/
def captureRegions (b : Bytes) : List Region :=
  (List.range (bits (le b 0 4) 17 14 + 1)).map (fun i => decodeRegion b (0x30 + 32 * i))
/-- The target entries of a restore. -/
def targetsOf (b : Bytes) : List Region := (List.range (b.length / 32)).map (fun i => decodeRegion b (32 * i))

/-- Granules of a region. -/
def Region.grans (r : Region) : Nat := r.len / 65536
/-- Virtual addresses of a region's granules. -/
def Region.vas (r : Region) : List Nat := (List.range r.grans).map (fun g => r.va + 65536 * g)
/-- Granules behind one 64 KiB of a region: its tracking unit (R330). -/
def unitOf (s : State) (ctx va : Nat) : List Nat := match physOf s ctx va with | some (pa, _) => physGrans pa 65536 | none => []
/-- Physical granules behind a region. -/
def Region.phys (s : State) (ctx : Nat) (r : Region) : List Nat :=
  r.vas.foldl (fun l v => (unitOf s ctx v).foldl (fun l g => if l.contains g then l else l ++ [g]) l) []

/-! ## The session's checkpoint request -/

/-- The capture that a session has under way. -/
def captureOf (s : State) (i : Nat) : Option Capture := (sesOf s i).bind (·.capture)
/-- The restore or verification that it has under way. -/
def restoreOf (s : State) (i : Nat) : Option Restore := (sesOf s i).bind (·.restore)
/-- Replaces it. -/
def putCapture (s : State) (i : Nat) (c : Capture) : State :=
  match sesOf s i with | some v => setSes s i { v with capture := some c } | none => s
def putRestore (s : State) (i : Nat) (r : Restore) : State :=
  match sesOf s i with | some v => setSes s i { v with restore := some r } | none => s
/-- The session has no checkpoint request any longer. -/
def freeSes (s : State) (i : Nat) : State :=
  match sesOf s i with | some v => setSes s i { v with capture := none, restore := none, ckptBusy := false } | none => s

/-- Its packets. -/
def linkOf (s : State) (i : Nat) : Option CkptLink :=
  match captureOf s i with
  | some c => some c.link
  | none => (restoreOf s i).map (·.link)
/-- Replaces them. -/
def putLink (s : State) (i : Nat) (t : CkptLink) : State :=
  match captureOf s i with
  | some c => putCapture s i { c with link := t }
  | none => match restoreOf s i with
    | some r => putRestore s i { r with link := t }
    | none => s
/-- Nothing waits to be sent or answered. -/
def CkptLink.idle (t : CkptLink) : Bool := t.unsent.isEmpty && t.xids.isEmpty

/-- Sends what may be sent, each packet under the pair's active index (R276); at most `n`. -/
def pumpCkpt (s : State) (i : Nat) : Nat → State
  | 0 => s
  | n + 1 =>
    match linkOf s i with
    | none => s
    | some t =>
      match t.failed, t.unsent with
      | none, p :: rest =>
        let p := { p with keyIdx := (pairActive s p.keyIdx).getD p.keyIdx }
        let member := (nodeOf s p.dstNode).member
        if member && (s.pow.dustSheet || !mayRequest s p || !maySend s p.keyIdx) then s
        else match sendRequest s p (.ckpt i) [] with
          | (.ok, xid, s) => pumpCkpt (putLink s i { t with unsent := rest, xids := t.xids ++ [xid] }) i n
          | (st, _, s) => putLink s i { t with unsent := [], failed := some st }
      | _, _ => s
/-- Every capture and restore under way. -/
def pumpCkptAll (s : State) : State :=
  (s.sp.sessions.map (·.1)).foldl (fun s i => match linkOf s i with
    | some t => pumpCkpt s i (t.unsent.length + 1)
    | none => s) s

/-- A response to one of its packets: the first status other than OK is its failure. -/
def ckptResp (s : State) (i xid : Nat) (st : Status) : State :=
  match linkOf s i with
  | none => s
  | some t => putLink s i { t with
      xids := t.xids.filter (· != xid)
      failed := if t.failed.isSome || st == .ok then t.failed else some st
      unsent := if st = .ok then t.unsent else [] }
/-- What a read of a Lath source has returned for an offset. -/
def ckptLand (s : State) (i off : Nat) (b : Bytes) : State :=
  match linkOf s i with
  | none => s
  | some t => putLink s i { t with got := (off, b) :: t.got }

/-! ## Early ends -/

/-- Its requests wait for no response any longer. -/
def dropLinkRequests (s : State) (i : Nat) : State :=
  match linkOf s i with
  | some t => t.xids.foldl dropPending s
  | none => s

/-- A capture ends without its manifest: every dirty bit it cleared is set again, and the chain stands (R335). -/
def captureFail (s : State) (i : Nat) (st : Status) : State :=
  match captureOf s i with
  | none => s
  | some c =>
    let s := endUse (freeSes (dropLinkRequests s i) i) (capSlot c.operands)
    answerSp { s with mem := { s.mem with clean := s.mem.clean.filter (fun g => !c.cleared.contains g) } } st [] []

/-- A restore or verification ends. -/
def restoreEnd (s : State) (i : Nat) (st : Status) (bytes : Bytes) : State :=
  match restoreOf s i with
  | none => s
  | some r =>
    let s := freeSes (dropLinkRequests s i) i
    answerSp (if r.manifest.isEmpty then s else endUse s r.slot) st [] bytes

/-- A restore fails: where a check of a region fails, or a key in use is erased, every tracking unit of that region's target is
primed (R342, Table 13.4). A verification writes nothing. -/
def restoreFail (s : State) (i : Nat) (st : Status) : State :=
  match restoreOf s i with
  | none => s
  | some r =>
    let primes := !r.verify && !r.manifest.isEmpty && (st == .tagMismatch || st == .keyRevoked)
    let s := match (targetsOf r.targets)[r.region]? with
      | some t => if primes then (t.phys s r.context).foldl primeGranule s else s
      | none => s
    restoreEnd s i st []

/-- The checkpoint request of a session ends from outside. -/
def ckptAbort (s : State) (i : Nat) (st : Status) : State := restoreEnd (captureFail s i st) i st []

/-- The context that it works in. -/
def ckptContext (s : State) (i : Nat) : Option Nat :=
  match captureOf s i with
  | some c => some (capContext c.operands)
  | none => (restoreOf s i).map (·.context)
/-- The checkpoint requests of a context end with a status (Table 13.4). -/
def ckptEndContext (s : State) (ctx : Nat) (st : Status) : State :=
  (s.sp.sessions.map (·.1)).foldl (fun s i => if ckptContext s i = some ctx then ckptAbort s i st else s) s

/-- UNMAP of a page of a region, or of a restore's target, ends the request with PAGE_FAULT (Table 13.4). -/
def ckptUnmapped (s : State) (ctx va len : Nat) : State :=
  let hit := fun (l : List Region) => l.any (fun r => decide (va < r.va + r.len) && decide (r.va < va + len))
  (s.sp.sessions.map (·.1)).foldl (fun s i =>
    if ckptContext s i ≠ some ctx then s
    else match captureOf s i, restoreOf s i with
      | some c, _ => if hit (captureRegions c.operands) then captureFail s i .pageFault else s
      | none, some r => if !r.verify && hit (targetsOf r.targets) then restoreFail s i .pageFault else s
      | none, none => s) s

/-- Key indices in use: those of the regions, of the step record, and of the image's place. -/
def captureKeys (s : State) (c : Capture) : List Nat :=
  let b := c.operands
  (captureRegions b).map (·.key) ++ (if capStepVa b = 0 then [] else [capStepKey b])
    ++ (if capDest b = 0 then [] else if capDest b = 1 then [(pairActive s (capKey b)).getD (capKey b)] else [capKey b])
def restoreKeys (s : State) (r : Restore) : List Nat :=
  (if r.verify then [] else (targetsOf r.targets).map (·.key))
    ++ (if r.source.source = 0 then [] else if r.source.source = 1 then [(pairActive s r.source.key).getD r.source.key] else [r.source.key])
/-- An IMMEDIATE erase of a key context ends what uses it with KEY_REVOKED (Table 13.4). -/
def ckptRevoke (s : State) (key : Nat) : State :=
  (s.sp.sessions.map (·.1)).foldl (fun s i =>
    let s := match captureOf s i with | some c => if (captureKeys s c).contains key then captureFail s i .keyRevoked else s | none => s
    match restoreOf s i with | some r => if (restoreKeys s r).contains key then restoreFail s i .keyRevoked else s | none => s) s

end Sys2Proof.Machine
end

