-- ==== Sys2Proof/Machine/Receive.lean ====
section
/-! DEFINITION. What every received request passes first (checks 1 to 6 of Table 10.7; R244, R231), and the order of
ordered packets (R258). -/

namespace Sys2Proof.Machine
open Sys2Proof

/-- The virtual channel of an operation (Table 10.5); none: an unknown OP. -/
def opVc (op : Nat) : Option Nat :=
  match op with
  | 0x01 | 0x03 | 0x04 | 0x05 => some 1
  | 0x02 => some 0
  | 0x08 => some 2
  | 0x10 => some 3
  | 0x18 | 0x19 | 0x1A | 0x1B | 0x1C => some 4
  | _ => none
/-- LEN is within the OP's range (Table 10.5). -/
def opLen (op n : Nat) : Bool :=
  match op with
  | 0x01 => 1 ≤ n && n ≤ 64
  | 0x02 | 0x08 | 0x10 => n ≤ 4096
  | 0x03 => n == 0
  | 0x04 | 0x18 | 0x1A | 0x1C => n == 8
  | 0x05 => n == 8 || n == 16
  | 0x19 => n == 24
  | 0x1B => 16 ≤ n && n ≤ 4096
  | _ => false
/-- The header is well formed (R244). -/
def wellFormedPacket (p : Packet) : Bool :=
  p.version == 1 && p.rsvd == 0 && opVc p.op == some p.vc && opLen p.op p.len && p.payload.length == p.len
    && (p.op != 5 || p.asub < 4) && (p.op != 8 || p.asub < 5)

/-- The replay window (R231): whether the counter is accepted, and the state that remembers it. -/
def replayCheck (s : State) (node key dir ctr : Nat) : Bool × State :=
  match s.fab.replays.find? (fun r => r.node == node && r.key == key && r.dir == dir) with
  | none => (true, { s with fab := { s.fab with replays := ⟨node, key, dir, ctr, [ctr]⟩ :: s.fab.replays } })
  | some r =>
    if ctr + 1024 < r.top || r.seen.contains ctr then (false, s)
    else
      let top := max r.top ctr
      let r' := { r with top := top, seen := ctr :: r.seen.filter (fun c => top ≤ c + 1024) }
      (true, { s with fab := { s.fab with replays := s.fab.replays.map (fun x => if x = r then r' else x) } })
/-- The replay state of a key index is cleared (R231). -/
def clearReplay (s : State) (key : Nat) : State :=
  { s with fab := { s.fab with replays := s.fab.replays.filter (fun r => r.key != key),
                               txFlows := s.fab.txFlows.filter (fun f => f.key != key),
                               rxFlows := s.fab.rxFlows.filter (fun f => f.key != key) } }

/-- What checks 1 to 6 find. -/
inductive Verdict where
  | drop                      -- dropped and counted
  | reject (st : Status)      -- answered with a status
  | hold                      -- held for the epoch update
  | again (resp : Packet)     -- answered from the completion record
  | pass
  deriving DecidableEq, Repr, Inhabited

/-- Checks 1 to 3 (Table 10.7): tag, key and header, counter. -/
def rxFirst (s : State) (rx : Rx) : Bool × State :=
  let p := rx.pkt
  let k := keyOf s p.keyIdx
  if !rx.tagOk then (false, countLinkExc (modPort s rx.port (fun v => { v with gcm := satAdd 32 v.gcm 1, naks := v.naks + 1 })))
  else if k.cls ≠ 2 ∨ k.state ≠ .active then (false, modPort s rx.port (fun v => { v with dropKey := satAdd 32 v.dropKey 1 }))
  else if !wellFormedPacket p then (false, modPort s rx.port (fun v => { v with dropMalf := satAdd 32 v.dropMalf 1 }))
  else match replayCheck s p.srcNode p.keyIdx p.dir p.ctr with
    | (true, s) => (true, s)
    | (false, s) => (false, modPort s rx.port (fun v => { v with dropReplay := satAdd 32 v.dropReplay 1 }))

/-- Check 4: the source is a member and its epoch is not below its admission. -/
def rxMember (s : State) (p : Packet) : Bool := (nodeOf s p.srcNode).member && (nodeOf s p.srcNode).admitEpoch ≤ p.epoch

/-- A request that is not idempotent (R255): atomics, leases and ARRIVE packets. -/
def needsRecord (p : Packet) : Bool := p.op == 5 || p.arrive

/-- Checks 5 and 6. -/
def rxHeld (s : State) (p : Packet) : Verdict :=
  if s.fab.member.epoch < p.epoch then .hold
  else match s.fab.records.find? (fun r => r.node == p.srcNode && r.xid == p.xid) with
    | some r => .again r.resp
    | none => .pass
/-- Checks 4 to 6. -/
def rxLate (s : State) (p : Packet) : Verdict := if !rxMember s p then .reject .staleEpoch else rxHeld s p

/-- Checks 1 to 6. -/
def rxCheck (s : State) (rx : Rx) : Verdict × State :=
  match rxFirst s rx with
  | (false, s) => (.drop, s)
  | (true, s) => (rxLate s rx.pkt, s)

/-- Renews the loan of a source at every packet from it (R443). -/
def renewLoan (s : State) (node : Nat) : State :=
  match tlook s.fab.loansOut node with
  | some l => { s with fab := { s.fab with loansOut := tins s.fab.loansOut node { l with expiry := s.fab.plumb.time + l.hold * 10000 } } }
  | none => s

/-- Where an ordered packet stands in its flow (R258): early, due, or already visible. -/
inductive Turn where
  | early | due | past
  deriving DecidableEq, Repr, Inhabited
/-- The turn of a packet; FLOW_SEQ wraps modulo 2^16. -/
def turnOf (s : State) (p : Packet) : Turn :=
  if !p.ordered then .due
  else
    let n := (flowOf s.fab.rxFlows p.srcNode p.dstNode p.vc p.keyIdx).next
    let d := (p.flowSeq + 65536 - n) % 65536
    if d = 0 then .due else if d < 32768 then .early else .past
/-- An ordered packet has become visible: its flow's next number rises. -/
def passTurn (s : State) (p : Packet) : State :=
  if !p.ordered then s
  else
    let f := flowOf s.fab.rxFlows p.srcNode p.dstNode p.vc p.keyIdx
    { s with fab := { s.fab with rxFlows := putFlow s.fab.rxFlows { f with next := (p.flowSeq + 1) % 65536 } } }

/-- Flows with held ordered packets. -/
def heldFlows (s : State) : List (Nat × Nat × Nat) :=
  s.fab.heldFlow.foldl (fun l h => let k := (h.rx.pkt.srcNode, h.rx.pkt.vc, h.rx.pkt.keyIdx); if l.contains k then l else k :: l) []

end Sys2Proof.Machine
end

