-- ==== Sys2Proof/Machine/Grout.lean ====
section
/-! DEFINITION. Grout (chapter 11): the positional tree, dispatch checks, the streams of a collective, COLL packets, slot
leases, failure and completion; and the barrier task (R324), which runs on the same engine. -/

namespace Sys2Proof.Machine
open Sys2Proof

/-! ## The positional tree (R278, R279) -/

/-- The member position with the least (p xor root) among `a` .. `a + n - 1`. -/
def hostOf (root a n : Nat) : Nat :=
  (List.range (n - 1)).foldl (fun best i => if (a + i + 1) ^^^ root < best ^^^ root then a + i + 1 else best) a
/-- The first position of the higher half of a node. -/
def splitOf (a b : Nat) : Nat := a + (b - a + 1) / 2

/-- Nodes that hold a position, root first: ranges (a, b); `n` levels are followed. -/
def nodePath (p : Nat) : Nat → Nat → Nat → List (Nat × Nat)
  | 0, a, b => [(a, b)]
  | n + 1, a, b =>
    if b - a ≤ 1 then [(a, b)]
    else
      let m := splitOf a b
      (a, b) :: (if p < m then nodePath p n a m else nodePath p n m b)

/-- The chain of a member (R279): for each internal node it hosts, from its leaf upward, the other child's range and
whether that is the lower half; and the host of the node above its last, if there is one. -/
def chainOf (root p n : Nat) : List ((Nat × Nat) × Bool) × Option Nat :=
  let path := (nodePath p 20 0 n).reverse
  let mine := path.takeWhile (fun r => hostOf root r.1 (r.2 - r.1) == p)
  let others := (mine.zip (mine.drop 1)).map (fun x =>
    let m := splitOf x.2.1 x.2.2
    if x.1.1 = x.2.1 ∧ x.1.2 = m then ((m, x.2.2), false) else ((x.2.1, m), true))
  let up := (path.drop mine.length).head?.map (fun r => hostOf root r.1 (r.2 - r.1))
  (others, up)

/-! ## Shapes (R287, R289, R294) -/

/-- Elements or units of a full chunk. -/
def chunkSize (op fmt : Nat) : Nat := if op = 1 then 1024 else if fmt = 3 then 8192 else 16384
/-- Chunks of a collective. -/
def Grout.chunks (g : Grout) : Nat := ceilDiv g.count (chunkSize g.op g.fmt)
/-- Elements or units in chunk `j`. -/
def Grout.elems (g : Grout) (j : Nat) : Nat := min (chunkSize g.op g.fmt) (g.count - j * chunkSize g.op g.fmt)
/-- Bytes of an input element or of a broadcast unit. -/
def Grout.inBytes (g : Grout) : Nat := if g.op = 1 then 64 else match g.fmt with | 0 => 4 | 3 => 8 | _ => 2
/-- Bytes of a summed element. -/
def Grout.outBytes (g : Grout) : Nat := if g.op = 1 then 64 else if g.fmt = 3 then 8 else 4
/-- Bytes of chunk `j` on a stream whose value covers positions `lo` .. `hi - 1`. -/
def Grout.streamBytes (g : Grout) (lo hi j : Nat) : Nat := g.elems j * (if hi - lo = 1 then g.inBytes else g.outBytes)

/-- The group of an instance. -/
def groupOf (s : State) (part group : Nat) : Option Group := tlook s.fab.groups (part * 4096 + group)
/-- The group-wide instance word of a CREDIT (R294). -/
def Grout.word (g : Grout) : Nat := g.op % 2 + g.fmt % 4 * 2 + g.root % 65536 * 2 ^ 16 + g.count % 2 ^ 31 * 2 ^ 32

/-- The live instance of a tag. -/
def groutOf (s : State) (part group tag : Nat) : Option Grout :=
  s.fab.grouts.find? (fun g => g.partition == part && g.group == group && g.tag == tag)
/-- Same instance. -/
def Grout.same (g h : Grout) : Bool := g.partition == h.partition && g.group == h.group && g.tag == h.tag
/-- Replaces an instance. -/
def putGrout (s : State) (g : Grout) : State :=
  { s with fab := { s.fab with grouts := s.fab.grouts.map (fun h => if h.same g then g else h) } }
/-- The instance ends at this member; `lapsed` is the sender whose slot lease lapsed, if that ended it. -/
def dropGrout (s : State) (g : Grout) (lapsed : Option Nat) (failed : Bool) : State :=
  { s with fab := { s.fab with
      grouts := s.fab.grouts.filter (fun h => !h.same g),
      doneTags := ⟨g.partition, g.group, g.tag, s.ns, lapsed, failed⟩ :: s.fab.doneTags } }
/-- The last instance of a tag that ended here. -/
def endedGrout (s : State) (part group tag : Nat) : Option EndedGrout :=
  s.fab.doneTags.find? (fun d => d.partition == part && d.group == group && d.tag == tag)
/-- The slot set of a tag is held: by a live instance (R288), or by a failed one of which a packet still waits to be sent or
acknowledged (R299). -/
def slotSetHeld (s : State) (part group maxInst tag : Nat) : Bool :=
  s.fab.grouts.any (fun h => h.partition == part && h.group == group && h.tag % maxInst == tag % maxInst)
    || s.fab.doneTags.any (fun d => d.failed && d.partition == part && d.group == group && d.tag % maxInst == tag % maxInst
      && (s.fab.pending.any (fun p => p.2.by' == .grout part group d.tag)
        || s.fab.aborts.any (fun h => h.partition == part && h.group == group && h.tag == d.tag)))

/-! ## COLL packets -/

/-- A COLL packet of a group to a position (Table 11.3). -/
def collPacket (s : State) (g : Group) (group asub tag chunk pkt pos : Nat) (pl : Bytes) : Packet :=
  { blankPacket s 0x08 2 g.lkey (nth g.members pos) with
    asub := asub, window := group, offset := tag + chunk % 65536 * 2 ^ 16 + pkt * 2 ^ 32, len := pl.length, payload := pl }

/-- Lane entries of a group. -/
def lanesOf (s : State) (part group : Nat) : List (Nat × Lane) := s.fab.lanes.filter (fun l => l.2.partition == part && l.2.group == group)
/-- The group's traffic goes in scheduled lanes (R265, R267). -/
def inLanes (s : State) (part group : Nat) : Bool := !(lanesOf s part group).isEmpty && !s.fab.plumb.withdrawn

/-- Sends one COLL packet, in a scheduled lane on the lane's ports where `lane` gives a mask. -/
def sendColl (s : State) (p : Packet) (who : Sender) (lane : Option Nat) : Status × Nat × State :=
  let key := (pairActive s p.keyIdx).getD p.keyIdx
  match lane with
  | none => sendRequest s { p with keyIdx := key } who []
  | some m =>
    -- the lane's ports only: the destination's mask is narrowed for this packet
    let n := nodeOf s p.dstNode
    let narrow := { s with fab := { s.fab with nodes := tput {} s.fab.nodes p.dstNode { n with portMask := n.portMask &&& m } } }
    let (st, x, s') := sendRequest narrow { p with keyIdx := key, sched := true } who []
    (st, x, { s' with fab := { s'.fab with nodes := s.fab.nodes } })

/-- Counts an ABORT on the Grout page, with its event (R462). -/
def noteAbort (s : State) (sent : Bool) (st : Status) (part group tag : Nat) : State :=
  let r := s.regs
  let s := { s with regs := if sent then { r with grAbortTx := satAdd 32 r.grAbortTx 1 } else { r with grAbortRx := satAdd 32 r.grAbortRx 1 } }
  pulseEvent s pgGrout 0 [(0, statusCode st), (1, group + part * 2 ^ 16), (2, tag)]

/-- Sends an ABORT (R299), in a scheduled lane where `lane` gives a mask. Under a key that may not send yet (R233), and to a node
that has left (R271), nothing goes. -/
def postAbort (s : State) (h : HeldAbort) (lane : Option Nat) : State :=
  if !maySend s ((pairActive s h.pkt.keyIdx).getD h.pkt.keyIdx) then s
  else match sendColl s h.pkt (.grout h.partition h.group h.tag) lane with
    | (.ok, _, s) => noteAbort s true h.status h.partition h.group h.tag
    | (_, _, s) => s
/-- Sends ABORT carrying a status to a position; the ABORT of a group in scheduled lanes waits for a slot (R265). -/
def sendAbort (s : State) (g : Grout) (pos : Nat) (st : Status) : State :=
  match groupOf s g.partition g.group with
  | none => s
  | some gr =>
    let p := collPacket s gr g.group 4 g.tag 0 0 pos (leBytes 2 (statusCode st) ++ leBytes 6 0)
    let h : HeldAbort := ⟨g.partition, g.group, g.tag, st, p⟩
    if inLanes s g.partition g.group then { s with fab := { s.fab with aborts := s.fab.aborts ++ [h] } } else postAbort s h none

/-- The position a packet goes to. -/
def posOf (gr : Group) (node : Nat) : Nat := gr.members.idxOf node
/-- Data still goes to a target: chunks not yet cut, packets that wait, packets not acknowledged. -/
def Grout.awaits (g : Grout) (gr : Group) (t : TxStream) : Bool :=
  decide (t.sent < g.chunks) || g.outbox.any (fun p => p.asub < 2 && posOf gr p.dstNode == t.pos) || g.unacked.any (fun u => u.2 == t.pos)
/-- Members that still await data from this one. -/
def Grout.awaiting (g : Grout) (gr : Group) : List Nat := (g.targets.filter (g.awaits gr)).map (·.pos)

/-- A failure after dispatch (R299): ABORT to every member that awaits data, the instance ends, the task completes. -/
def groutEnd (s : State) (g : Grout) (st : Status) (lapsed : Option Nat) : State :=
  let dests := match groupOf s g.partition g.group with | some gr => g.awaiting gr | none => []
  completeTask (dropGrout (dests.foldl (fun s p => sendAbort s g p st) s) g lapsed true) g.task st 0
/-- A failure other than a lapsed lease. -/
def groutFail (s : State) (g : Grout) (st : Status) : State := groutEnd s g st none

/-- Queues a packet of an instance. -/
def Grout.queue (g : Grout) (p : Packet) : Grout := { g with outbox := g.outbox ++ [p] }

/-- Sends the packets that wait, on plain VC2 or, with `lane`, in a lane's slot; `n` bounds the number. A sender whose Plumb
is not LOCKED holds no slot lease (R297). -/
def flushGrout (s : State) (g : Grout) (lane : Option Nat) : Nat → State
  | 0 => s
  | n + 1 =>
    match groutOf s g.partition g.group g.tag, groupOf s g.partition g.group with
    | some g, some gr =>
      match g.outbox with
      | [] => s
      | p :: rest =>
        if s.pow.dustSheet || !maySend s ((pairActive s p.keyIdx).getD p.keyIdx) || (lane.isNone && inLanes s g.partition g.group) then s
        else if p.asub < 2 && !s.fab.plumb.locked then groutFail s g .notReady
        else
          match sendColl s p (.grout g.partition g.group g.tag) lane with
          | (.ok, xid, s) =>
            let pos := posOf gr p.dstNode
            let s := putGrout s { g with
              outbox := rest, unacked := if p.asub < 2 then g.unacked ++ [(xid, pos)] else g.unacked,
              targets := g.targets.map (fun t => if t.pos = pos then { t with lastAt := some s.ns } else t) }
            flushGrout s g lane n
          | (st, _, s) => if lane.isSome then s else groutFail s g st
    | _, _ => s

/-- A grant of chunks `a` to `b` to the sender of a stream (R294, R295). -/
def creditPacket (s : State) (g : Grout) (gr : Group) (pos a b : Nat) : Packet :=
  collPacket s gr g.group 2 g.tag 0 0 pos (leBytes 8 gr.listId.toNat ++ leBytes 8 g.word ++ leBytes 4 a ++ leBytes 4 b)

/-- The data packets of a chunk (R294). -/
def dataPackets (s : State) (g : Grout) (gr : Group) (pos j : Nat) (b : Bytes) : List Packet :=
  (List.range (max 1 (ceilDiv b.length 4096))).map (fun i =>
    collPacket s gr g.group g.op g.tag j i pos (slice b (4096 * i) (min 4096 (b.length - 4096 * i))))

/-! ## Values -/

/-- Widens the input elements of a chunk to sums (R278); SUMMARY elements stand as they are. -/
def widenChunk (fmt : Nat) (b : Bytes) (n : Nat) : Bytes :=
  match fmt with
  | 0 => slice b 0 (4 * n)
  | 3 => slice b 0 (8 * n)
  | f => (List.range n).flatMap (fun i => leBytes 4 (widenInit f (le b (2 * i) 2)))

/-- Adds two chunks of sums, the left one lower (R278, R290). -/
def addChunks (fmt : Nat) (l r : Bytes) (n : Nat) : Bytes :=
  (List.range n).flatMap (fun i =>
    if fmt = 3 then leBytes 4 (fp32Add (le l (8 * i) 4) (le r (8 * i) 4)) ++ leBytes 4 (le l (8 * i + 4) 4 ||| le r (8 * i + 4) 4)
    else leBytes 4 (fp32Add (le l (4 * i) 4) (le r (4 * i) 4)))

/-- The SUMMARY of `n` FP32 results (R290): the tree sum of squares and the flag of a non-finite value. -/
def chunkSummary (b : Bytes) (n : Nat) : Word × Bool :=
  let vs := (List.range n).map (fun i => le b (4 * i) 4)
  (BitVec.ofNat 32 (laneTree fp32Add 32 (vs.map (fun v => fp32Mul v v))), vs.any fp32NonFinite)
/-- Some SUMMARY element is flagged or not finite (R292). -/
def summaryBad (b : Bytes) (n : Nat) : Bool := (List.range n).any (fun i => bit (le b (8 * i + 4) 4) 0 || fp32NonFinite (le b (8 * i) 4))

/-- The summary area of a finished reduction (R289): chunk records, the shard record, padding to 64 bytes. -/
def summaryArea (w : List (Word × Bool)) : Bytes :=
  let rec' := fun (v : Nat) (b : Bool) => leBytes 4 v ++ leBytes 4 (b2n b)
  let b := w.flatMap (fun x => rec' x.1.toNat x.2) ++ rec' (laneTree fp32Add 32 (w.map (·.1.toNat))) (w.any (·.2))
  b ++ List.replicate ((64 - b.length % 64) % 64) 0

/-! ## Memory of an instance -/

/-- Address of the slot of stream `i` for chunk `j` (R284): slot set TAG mod MAXINST, one slot of two chunks a stream. -/
def slotVa (g : Grout) (gr : Group) (i j : Nat) : Nat :=
  gr.stageVa + ((g.tag % gr.maxInst) * Nat.clog 2 gr.members.length + i) * 0x20000 + j % 2 * 0x10000

/-- Where chunk `j` of stream `i` stands as received: key index, address and length; a barrier's value stands in the unit. -/
def slotSpot (g : Grout) (gr : Group) (i j : Nat) (r : RxStream) : Option (Nat × Nat × Nat) :=
  if g.op = 1 then
    if g.step.isSome then none else some (g.dstKey, g.dstVa + j * 65536, g.elems j * 64)
  else some (gr.stageKey, slotVa g gr i j, g.streamBytes r.lo r.hi j)
/-- Where this member's own input of chunk `j` stands. -/
def ownSpot (g : Grout) (j : Nat) : Option (Nat × Nat × Nat) :=
  if g.step.isSome then none else some (g.srcKey, g.srcVa + j * chunkSize g.op g.fmt * g.inBytes, g.elems j * g.inBytes)
/-- The bytes of a place. -/
def spotBytes (s : State) (g : Grout) : Option (Nat × Nat × Nat) → Status × Bytes × State
  | none => (.ok, g.value, s)
  | some (key, va, n) => vread s g.ctx key va n
/-- Bytes of chunk `j` of stream `i` as received. -/
def slotBytes (s : State) (g : Grout) (gr : Group) (i j : Nat) (r : RxStream) : Status × Bytes × State := spotBytes s g (slotSpot g gr i j r)
/-- This member's own input of chunk `j`. -/
def ownBytes (s : State) (g : Grout) (j : Nat) : Status × Bytes × State := spotBytes s g (ownSpot g j)
/-- A read of a place failed: the task fails at its faulting address (R201). -/
def spotFail (s : State) (g : Grout) (st : Status) : Option (Nat × Nat × Nat) → State
  | none => groutFail s g st
  | some (key, va, n) => groutFail (faultRange s g.task st g.ctx key va n .read) g st
/-- A write of the instance failed. -/
def writeFail (s : State) (g : Grout) (st : Status) (key va n : Nat) : State :=
  groutFail (faultRange s g.task st g.ctx key va n .write) g st

/-- Every packet of chunk `j` has arrived. -/
def RxStream.full (r : RxStream) (g : Grout) (j : Nat) : Bool :=
  (List.range (max 1 (ceilDiv (g.streamBytes r.lo r.hi j) 4096))).all (fun i => r.got.contains (j, i))

/-! ## One step of an instance at a time -/

/-- What became of a chunk's additions: the sum, or the failed access with its place and whether it was a write. -/
inductive ChunkSum where
  | sum (b : Bytes)
  | readFailed (st : Status) (spot : Option (Nat × Nat × Nat))
  | writeFailed (st : Status) (key va n : Nat)
  deriving DecidableEq, Repr, Inhabited

/-- Adds chunk `j` of the streams from number `i` on to the sum so far (R278, R279). Between two additions the sum stands in the
slot of the stream just added (R301); a barrier's stands in the unit. -/
def addStreams (g : Grout) (gr : Group) (j : Nat) : List RxStream → Nat → Bytes → State → ChunkSum × State
  | [], _, own, s => (.sum own, s)
  | r :: rest, i, own, s =>
    let n := g.elems j
    match slotBytes s g gr i j r with
    | (.ok, b, s) =>
      let v := if r.hi - r.lo = 1 then widenChunk g.fmt b n else b
      let sum := if r.lower then addChunks g.fmt v own n else addChunks g.fmt own v n
      if rest.isEmpty ∨ g.step.isSome then addStreams g gr j rest (i + 1) sum s
      else
        match vwrite s g.ctx gr.stageKey (slotVa g gr i j) sum false with
        | (.ok, s) => addStreams g gr j rest (i + 1) sum s
        | (st, s) => (.writeFailed st gr.stageKey (slotVa g gr i j) sum.length, s)
    | (st, _, s) => (.readFailed st (slotSpot g gr i j r), s)

/-- The value of chunk `j` at this member: its own input, as it stands where it hosts no node, else the sum with every stream. -/
def chunkValue (s : State) (g : Grout) (gr : Group) (j : Nat) : ChunkSum × State :=
  match ownBytes s g j with
  | (.ok, own, s) =>
    if g.streams.isEmpty then (.sum own, s) else addStreams g gr j g.streams 0 (widenChunk g.fmt own (g.elems j)) s
  | (st, _, s) => (.readFailed st (ownSpot g j), s)

/-- Chunk `j` of every stream has been added: each sender may send chunk `j + 2` (R295). -/
def grantNext (s : State) (g : Grout) (gr : Group) (j : Nat) : Grout :=
  let more := j + 2 < g.chunks
  let next := fun (r : RxStream) =>
    { r with added := j + 1, granted := if more then j + 3 else r.granted, got := r.got.filter (fun x => decide (j < x.1)) }
  let h := { g with streams := g.streams.map next }
  if more then g.streams.foldl (fun h r => h.queue (creditPacket s g gr r.pos (j + 2) (j + 2))) h else h

/-- Computes chunk `g.done` once every stream has it, and hands it on: the root writes it, another member sends it to the host
above (reduce). DESIGN CHOICE: the additions of a chunk run together when its last stream is there and its value can go on, so that no
slot holds a sum when a chunk granted for it arrives. -/
def passChunk (s : State) (g : Grout) (gr : Group) : State :=
  let j := g.done
  let n := g.elems j
  let single := g.streams.isEmpty
  match chunkValue s g gr j with
  | (.readFailed st spot, s) => spotFail s g st spot
  | (.writeFailed st key va len, s) => writeFail s g st key va len
  | (.sum own, s) =>
    let g := { grantNext s g gr j with done := j + 1 }
    match g.targets with
    | t :: _ =>
      let g := (dataPackets s g gr t.pos j own).foldl Grout.queue g
      putGrout s { g with targets := g.targets.map (fun x => if x.pos = t.pos then { x with sent := j + 1 } else x) }
    | [] =>
      let v := if single then widenChunk g.fmt own n else own
      if g.step.isSome then putGrout s { g with value := v }
      else
        let va := g.dstVa + j * chunkSize 0 g.fmt * g.outBytes
        let (st, s) := vwrite s g.ctx g.dstKey va v false
        let s := noteBytes s g.task va v
        if st ≠ .ok then writeFail s g st g.dstKey va v.length
        else
          let g := if g.fmt = 3 then { g with flag0 := g.flag0 || summaryBad v n } else { g with written := g.written ++ [chunkSummary v n] }
          if g.fmt = 3 || g.done < g.chunks then putGrout s g
          else
            let area := summaryArea g.written
            let va := g.dstVa + ceilDiv (4 * g.count) 64 * 64
            let (st, s) := vwrite s g.ctx g.dstKey va area false
            let s := noteBytes s g.task va area
            if st ≠ .ok then writeFail s g st g.dstKey va area.length else putGrout s { g with flag0 := g.written.any (·.2) }

/-- Sends the next chunk of a broadcast to a target. -/
def forwardChunk (s : State) (g : Grout) (gr : Group) (t : TxStream) : State :=
  let spot := match g.streams with
    | [] => ownSpot g t.sent
    | r :: _ => slotSpot g gr 0 t.sent r
  let (st, b, s) := spotBytes s g spot
  if st ≠ .ok then spotFail s g st spot
  else
    let g := (dataPackets s g gr t.pos t.sent b).foldl Grout.queue g
    putGrout s { g with targets := g.targets.map (fun x => if x.pos = t.pos then { x with sent := t.sent + 1 } else x) }

/-- A chunk of a broadcast has arrived in full: the stream moves on. -/
def takeChunk (s : State) (g : Grout) (r : RxStream) : State :=
  let j := r.added
  putGrout s { g with streams := [{ r with added := j + 1, got := r.got.filter (fun x => decide (j < x.1)) }], done := j + 1 }

/-- The root of a broadcast copies a chunk to its own destination (R291). -/
def copyChunk (s : State) (g : Grout) : State :=
  let j := g.done
  let (st, b, s) := ownBytes s g j
  if st ≠ .ok then spotFail s g st (ownSpot g j)
  else if g.step.isSome ∨ g.dstVa = 0 ∨ g.dstVa = g.srcVa then putGrout s { g with done := j + 1 }
  else
    let (st, s) := vwrite s g.ctx g.dstKey (g.dstVa + j * 65536) b false
    let s := noteBytes s g.task (g.dstVa + j * 65536) b
    if st ≠ .ok then writeFail s g st g.dstKey (g.dstVa + j * 65536) b.length
    else putGrout s { g with done := j + 1, flag0 := g.flag0 || (g.fmt == 3 && summaryBad b (g.elems j * 8)) }

/-- Every part of this member's role is done but for acknowledgements. -/
def Grout.finished (g : Grout) : Bool :=
  g.done == g.chunks && g.targets.all (fun t => t.sent == g.chunks) && g.streams.all (fun r => r.added == g.chunks)
    && g.outbox.isEmpty && g.unacked.isEmpty

/-- The streams and targets of a part at a position. -/
def groutRole (op root self n : Nat) : List RxStream × List TxStream :=
  let (others, up) := chainOf root self n
  let rx := fun (pos lo hi : Nat) (lower : Bool) => ({ pos := pos, lo := lo, hi := hi, lower := lower, granted := 0, got := [], added := 0, lease := none } : RxStream)
  let tx := fun (pos : Nat) => ({ pos := pos, granted := [], sent := 0, lastAt := none } : TxStream)
  if op = 0 then
    (others.map (fun o => rx (hostOf root o.1.1 (o.1.2 - o.1.1)) o.1.1 o.1.2 o.2), up.toList.map tx)
  else
    (up.toList.map (fun h => rx h 0 2 false), others.map (fun o => tx (hostOf root o.1.1 (o.1.2 - o.1.1))))

/-- A target has granted the chunk that comes next (R295). -/
def TxStream.open' (t : TxStream) : Bool := t.granted.any (fun x => decide (x.1 ≤ t.sent) && decide (t.sent ≤ x.2))
/-- A CREDIT takes effect at a sender (R295): it grants the chunks that it names; a mismatch completes the task with
DESC_INVALID. -/
def takeCredit (s : State) (g : Grout) (gr : Group) (pos : Nat) (pl : Bytes) : State :=
  if BitVec.ofNat 64 (le pl 0 8) ≠ gr.listId ∨ le pl 8 8 ≠ g.word then
    let s := if (g.awaiting gr).contains pos then s else sendAbort s g pos .descInvalid
    groutFail s g .descInvalid
  else
    let x := (le pl 16 4, le pl 20 4)
    putGrout s { g with targets := g.targets.map (fun t =>
      if t.pos = pos ∧ t.granted.contains x = false then { t with granted := t.granted ++ [x] } else t) }

/-- Starts a part: grants go out (R295), and held CREDITs take effect. What is known of a past instance of the tag ends here. -/
def startPart (s : State) (g : Grout) (gr : Group) : State :=
  let s := { s with fab := { s.fab with
    doneTags := s.fab.doneTags.filter (fun d => !(d.partition == g.partition && d.group == g.group && d.tag == g.tag)) } }
  let last := if g.op = 1 then g.chunks else min 2 g.chunks
  let g := { g with streams := g.streams.map (fun (r : RxStream) => { r with granted := last }) }
  let g := g.streams.foldl (fun (g : Grout) r => g.queue (creditPacket s g gr r.pos 0 (last - 1))) g
  let s := putGrout s g
  let mine := fun (h : HeldCredit) => h.partition == g.partition && h.group == g.group && h.tag == g.tag
    && (g.step.isNone || le h.payload 8 8 % 2 == g.op)
  let held := s.fab.credits.filter mine
  let s := { s with fab := { s.fab with credits := s.fab.credits.filter (fun h => !mine h) } }
  held.foldl (fun s h => match groutOf s g.partition g.group g.tag with | some g => takeCredit s g gr h.pos h.payload | none => s) s

/-- The instance is complete at this member (R293): a barrier goes from its reduction to its broadcast and then writes
COMMIT_STEP (R324); any other task completes with OK. DESIGN CHOICE (log entry 21): a broadcast moves units of 64 bytes, so the
barrier's 8-byte element stands first in its unit and zeros fill the rest. -/
def groutDone (s : State) (g : Grout) (gr : Group) : State :=
  match g.step with
  | none =>
    let s := dropGrout s g none false
    let s := { s with regs := { s.regs with grDone := satAdd 32 s.regs.grDone 1 } }
    completeTask s g.task .ok (b2n g.flag0)
  | some (step, va, key) =>
    if g.op = 0 then
      let (rx, tx) := groutRole 1 g.root gr.self gr.members.length
      let g := { g with op := 1, streams := rx, targets := tx, done := 0, value := g.value ++ List.replicate 56 0 }
      startPart (putGrout s g) g gr
    else
      let (st, s) := vwrite s g.ctx key (va + 0x20) (leBytes 8 step) false
      let s := noteBytes s g.task (va + 0x20) (leBytes 8 step)
      if st ≠ .ok then writeFail s g st key (va + 0x20) 8
      else
        let s := dropGrout s g none false
        let s := { s with regs := { s.regs with grDone := satAdd 32 s.regs.grDone 1 } }
        completeTask s g.task .ok 0

/-- One action of an instance, if one is possible. None is while its accesses wait for a link (R229). -/
def groutStep (s : State) (g : Grout) : Option State :=
  match groupOf s g.partition g.group, dieWaits s hubDie with
  | none, _ => none
  | some _, true => none
  | some gr, false =>
    if g.op = 0 then
      let here := decide (g.done < g.chunks) && g.streams.all (fun r => r.full g g.done)
      let may := match g.targets with | [] => true | t :: _ => t.open'
      if here && may then some (passChunk s g gr)
      else if g.finished then some (groutDone s g gr) else none
    else
      match g.streams with
      | r :: _ =>
        if decide (r.added < g.chunks) && r.full g r.added then some (takeChunk s g r)
        else match g.targets.find? (fun t => t.open' && decide (t.sent < r.added)) with
          | some t => some (forwardChunk s g gr t)
          | none => if g.finished then some (groutDone s g gr) else none
      | [] =>
        if g.done < g.chunks then some (copyChunk s g)
        else match g.targets.find? (fun t => t.open' && decide (t.sent < g.chunks)) with
          | some t => some (forwardChunk s g gr t)
          | none => if g.finished then some (groutDone s g gr) else none

/-- Runs an instance as far as it goes, at most `n` actions, sending what it may. -/
def groutRun (s : State) (part group tag : Nat) : Nat → State
  | 0 => s
  | n + 1 =>
    match groutOf s part group tag with
    | none => s
    | some g =>
      let s := flushGrout s g none g.outbox.length
      match groutOf s part group tag with
      | none => s
      | some g => match groutStep s g with
        | none => s
        | some s => groutRun s part group tag n
/-- Enough actions for what one event can release. -/
def groutGo (s : State) (part group tag : Nat) : State :=
  match groutOf s part group tag with
  | none => s
  | some g => groutRun s part group tag ((g.chunks + 2) * (g.streams.length + g.targets.length + 3) * 2)

/-! ## Dispatch (R286 to R288, R324) -/

/-- A 48-bit address from two arguments. -/
def argVa (t : Task) (i : Nat) : Nat := (t.args.getD i 0).toNat + (t.args.getD (i + 1) 0).toNat % 65536 * 2 ^ 32
/-- An argument. -/
def argOf (t : Task) (i : Nat) : Nat := (t.args.getD i 0).toNat

/-- The instance that a Grout task names. -/
def groutOfTask (r : TaskRef) (ctx part : Nat) (t : Task) : Grout :=
  let a := argOf t
  { task := r, ctx := ctx, partition := part, group := bits (a 0) 15 4, tag := bits (a 0) 31 16, op := bits (a 0) 0 0, fmt := bits (a 0) 2 1,
    root := bits (a 1) 15 0, count := bits (a 2) 30 0, srcVa := argVa t 3, srcKey := bits (a 1) 23 16, dstVa := argVa t 5,
    dstKey := bits (a 1) 31 24, streams := [], targets := [], done := 0, outbox := [], unacked := [], written := [],
    flag0 := false, step := none, value := [] }

/-- The dispatch checks of a Grout task in the order of R288, with R376 for its source. A group that is not open has no N:
check 1 then looks at what does not depend on it. -/
def groutCheck (s : State) (t : Task) (g : Grout) : Status :=
  let a := argOf t
  let gr := groupOf s g.partition g.group
  let n := match gr with | some x => x.members.length | none => 65536
  let self := match gr with | some x => x.self | none => g.root
  let isRoot := self == g.root
  let limit := if g.op = 1 then 2 ^ 26 else if g.fmt = 3 then 2 ^ 29 else 2 ^ 30
  let reads := if g.op = 0 then true else isRoot
  let writes := if g.op = 0 then isRoot else true
  let slotHeld := match gr with
    | some x => slotSetHeld s g.partition g.group x.maxInst g.tag
    | none => false
  if bit (a 0) 3 || bit (a 2) 31 || decide (65536 ≤ a 4) || decide (65536 ≤ a 6) || a 7 != 0
      || g.count == 0 || decide (limit < g.count) || decide (n ≤ g.root)
      || (reads && g.srcVa % 64 != 0) || (writes && g.dstVa % 64 != 0)
      || (!reads && g.srcVa != 0) || (!writes && g.dstVa != 0) || slotHeld then .descInvalid
  else match gr with
    | none => .descInvalid
    | some x =>
      if x.context ≠ g.ctx ∨ (keyOf s g.dstKey).cls = 1 then .policyDenied
      else if reads && (keyOf s g.srcKey).cls == 1 then .policyDenied
      else if x.members.any (fun m => !(nodeOf s m).member) then .staleEpoch
      else .ok

/-- The instance and check of a barrier task (R324). -/
def barrierOfTask (s : State) (r : TaskRef) (ctx part : Nat) (t : Task) : Status × Grout × State :=
  let a := argOf t
  let va := a 1 + a 2 % 65536 * 2 ^ 32
  let key := bits (a 3) 7 0
  let g0 := groutOfTask r ctx part t
  let bad := decide (4096 ≤ a 0) || decide (65536 ≤ a 2) || decide (256 ≤ a 3) || a 4 != 0 || a 5 != 0 || a 6 != 0 || a 7 != 0
  if bad then (.descInvalid, g0, s)
  else
    let (st, b, s) := vread s ctx key va 8
    let step := le b 0 8
    let g : Grout := { g0 with
      group := a 0, tag := step % 65536, op := 0, fmt := 3, root := 0, count := 1, srcVa := 0, dstVa := 0, srcKey := key, dstKey := key,
      step := some (step, va, key), value := leBytes 8 0 }
    let gr := groupOf s part g.group
    let slotHeld := match gr with
      | some x => slotSetHeld s part g.group x.maxInst g.tag
      | none => false
    match gr with
    | none => (.descInvalid, g, s)
    | some x =>
      if st ≠ .ok then (st, g, faultRange s r st ctx key va 8 .read)
      else if slotHeld then (.descInvalid, g, s)
      else if x.context ≠ ctx then (.policyDenied, g, s)
      else if x.members.any (fun m => !(nodeOf s m).member) then (.staleEpoch, g, s)
      else (.ok, g, s)

/-- A checked task starts its part of the collective. -/
def groutStart (s : State) (g : Grout) : State :=
  match groupOf s g.partition g.group with
  | none => s
  | some gr =>
    let (rx, tx) := groutRole g.op g.root gr.self gr.members.length
    let g := { g with streams := rx, targets := tx }
    let s := { s with fab := { s.fab with grouts := s.fab.grouts ++ [g] } }
    groutGo (startPart s g gr) g.partition g.group g.tag

/-! ## Receiving COLL packets (R295 to R297) -/

/-- The group a COLL packet is for: one whose pair the key belongs to, in the key's partition. -/
def collGroup (s : State) (p : Packet) : Option Group :=
  match groupOf s (keyOf s p.keyIdx).partition p.window with
  | some g => if (p.keyIdx = g.lkey ∨ p.keyIdx = g.lkey + 1) ∧ g.members.contains p.srcNode = true then some g else none
  | none => none

/-- The instance of a tag completed here within the last 10 ms. -/
def doneLately (s : State) (part group tag : Nat) : Bool :=
  (endedGrout s part group tag).any (fun d => decide (s.ns ≤ d.at' + 10000000))
/-- The last instance of a tag ended here because the lease of this sender lapsed (R297). -/
def lapsedFor (s : State) (part group tag pos : Nat) : Bool :=
  (endedGrout s part group tag).any (fun d => d.lapsed == some pos)

/-- Renews the slot lease of a stream (R297). -/
def leaseStream (s : State) (gr : Group) (p : Packet) (r : RxStream) : RxStream :=
  { r with lease := some (p.srcNode, p.epoch, s.fab.plumb.time + gr.slotHold * 1000) }

/-- A packet of a live instance renews the leases that its sender has there (R297). -/
def renewLease (s : State) (gr : Group) (p : Packet) : State :=
  match groutOf s (keyOf s p.keyIdx).partition p.window (p.offset % 65536) with
  | none => s
  | some g => putGrout s { g with streams := g.streams.map (fun r => if r.pos = posOf gr p.srcNode then leaseStream s gr p r else r) }

/-- A data packet (R296): the status that answers it. -/
def collData (s : State) (gr : Group) (p : Packet) : Status × State :=
  let s := renewLease s gr p
  let part := (keyOf s p.keyIdx).partition
  let tag := p.offset % 65536
  let j := bits p.offset 31 16
  let pk := bits p.offset 35 32
  let pos := posOf gr p.srcNode
  let busy := { s with regs := { s.regs with grBusy := satAdd 32 s.regs.grBusy 1 } }
  match groutOf s part p.window tag with
  | none => if doneLately s part p.window tag then (.ok, s) else (.busy, busy)
  | some g =>
    if g.op ≠ p.asub then (if g.step.isSome && p.asub < g.op then (.ok, s) else (.busy, busy))
    else match g.streams.findIdx? (fun r => r.pos == pos) with
      | none => (.busy, busy)
      | some i =>
        match g.streams[i]? with
        | none => (.busy, busy)
        | some r =>
          if r.got.contains (j, pk) || decide (j < r.added) then (.ok, s)
          else if r.granted ≤ j then (.busy, busy)
          else
            let (st, s) :=
              if g.op = 1 then (if g.step.isSome then (Status.ok, s) else
                let va := g.dstVa + j * 65536 + pk * 4096
                let (st, s) := vwrite s g.ctx g.dstKey va p.payload false
                (st, noteBytes s g.task va p.payload))
              else vwrite s g.ctx gr.stageKey (slotVa g gr i j + pk * 4096) p.payload false
            if st ≠ .ok then (st, if g.op = 1 then writeFail s g st g.dstKey (g.dstVa + j * 65536 + pk * 4096) p.payload.length
              else writeFail s g st gr.stageKey (slotVa g gr i j + pk * 4096) p.payload.length)
            else
              let g := { g with
                streams := g.streams.set i { r with got := (j, pk) :: r.got },
                value := if g.op = 1 ∧ g.step.isSome then p.payload else g.value,
                flag0 := g.flag0 || (g.op == 1 && g.fmt == 3 && summaryBad p.payload (p.payload.length / 8)) }
              (.ok, groutGo (putGrout s g) part p.window tag)

/-- A received COLL packet after checks 1 to 6 (R296): the status that answers it. DEDUCED (log entry 21): a CREDIT comes from a
receiver of data, and a node whose lease as a sender lapsed here sends none for that instance; its CREDIT is for a later one and is
held (R295). -/
def runColl (s : State) (p : Packet) : Status × State :=
  match collGroup s p with
  | none => (.policyDenied, s)
  | some gr =>
    let part := (keyOf s p.keyIdx).partition
    let tag := p.offset % 65536
    let pos := posOf gr p.srcNode
    if p.asub ≠ 2 && (groutOf s part p.window tag).isNone && lapsedFor s part p.window tag pos then (.leaseExpired, s)
    else match p.asub with
    | 0 => collData s gr p
    | 1 => collData s gr p
    | 2 =>
      let held : HeldCredit := ⟨part, p.window, tag, pos, p.payload⟩
      let hold := { s with fab := { s.fab with credits := if s.fab.credits.contains held then s.fab.credits else s.fab.credits ++ [held] } }
      match groutOf s part p.window tag with
      | none => (.ok, if doneLately s part p.window tag then s else hold)
      | some g =>
        if g.step.isSome ∧ le p.payload 8 8 % 2 ≠ g.op then (.ok, if le p.payload 8 8 % 2 < g.op then s else hold)
        else (.ok, groutGo (takeCredit s g gr pos p.payload) part p.window tag)
    | 3 => (.ok, renewLease s gr p)
    | _ => match groutOf s part p.window tag with
      | none => (.ok, s)
      | some g =>
        let st := statusOf (le p.payload 0 2)
        (.ok, groutFail (noteAbort s false st part p.window tag) g st)

/-- A response to a COLL packet of an instance (R293): data is acknowledged; any other status ends the collective. -/
def collResp (s : State) (part group tag xid : Nat) (st : Status) : State :=
  match groutOf s part group tag with
  | none => s
  | some g =>
    if st ≠ .ok then groutFail s g st
    else groutGo (putGrout s { g with unacked := g.unacked.filter (fun u => u.1 != xid) }) part group tag

/-! ## Timers and forced aborts (R297, R299) -/

/-- HOLD_TIMER: a running sender that has sent nothing to a receiver for SLOT_HOLD / 4 sends HOLD. -/
def execHoldTimer (partition group tag receiver : Nat) (s : State) : Host.Outcome State Fault Refusal :=
  match groutOf s partition group tag, groupOf s partition group with
  | some g, some gr =>
    match g.targets.find? (fun t => t.pos == receiver) with
    | none => .next s
    | some t =>
      match t.lastAt with
      | none => .next s
      | some at' =>
        let waits := g.outbox.any (fun p => p.asub == 3 && posOf gr p.dstNode == receiver)
        if at' + gr.slotHold * 250 ≤ s.ns ∧ s.fab.plumb.locked ∧ !waits then
          let g := g.queue (collPacket s gr group 3 tag 0 0 receiver [])
          .next (flushGrout (putGrout s g) g none g.outbox.length)
        else .next s
  | _, _ => .next s

/-- A receiver still expects data of a stream: some chunk has not arrived in full. -/
def RxStream.expects (r : RxStream) (g : Grout) : Bool := (List.range g.chunks).any (fun j => decide (r.added ≤ j) && !r.full g j)

/-- SLOT_LEASE_EXPIRY: the receiver reclaims a slot set whose lease lapsed 10 µs ago while it still expects data from the sender. -/
def execSlotLeaseExpiry (partition group tag sender : Nat) (s : State) : Host.Outcome State Fault Refusal :=
  match groutOf s partition group tag with
  | none => .next s
  | some g =>
    match g.streams.find? (fun r => r.pos == sender) with
    | none => .next s
    | some r =>
      match r.lease with
      | none => .next s
      | some (_, _, e) =>
        if r.expects g ∧ e + 10000 < s.fab.plumb.time then
          .next (groutEnd { s with regs := { s.regs with grLease := satAdd 32 s.regs.grLease 1 } } g .leaseExpired (some sender))
        else .next s

/-- A forced abort of a Grout or barrier task (R299). -/
def groutAbort (s : State) (r : TaskRef) (st : Status) : State :=
  match s.fab.grouts.find? (fun g => g.task == r) with
  | some g => groutFail s g st
  | none => s

/-- A module whose Plumb leaves LOCKED holds no slot lease: every instance that sends under one ends with NOT_READY (R297). -/
def groutUnlocked (s : State) : State :=
  s.fab.grouts.foldl (fun s g => match groutOf s g.partition g.group g.tag, groupOf s g.partition g.group with
    | some g, some gr => if g.targets.any (fun t => t.lastAt.isSome && g.awaits gr t) then groutFail s g .notReady else s
    | _, _ => s) s

/-- Every live instance on a group with a member that has left ends with STALE_EPOCH (R299). -/
def groutStale (s : State) : State :=
  s.fab.grouts.foldl (fun s g => match groutOf s g.partition g.group g.tag, groupOf s g.partition g.group with
    | some g, some gr => if gr.members.any (fun m => !(nodeOf s m).member) then groutFail s g .staleEpoch else s
    | _, _ => s) s

end Sys2Proof.Machine
end

