-- ==== Sys2Proof/Machine/Objects.lean ====
section
/-! DEFINITION. How host objects stop and end (chapter 07, R379): the mapped pages of a context, closing windows and
groups, stopping the work of a queue, reset and destroy of contexts, the end of a session, removal of clusters, and the
progress of the management commands that wait for them. -/

namespace Sys2Proof.Machine
open Sys2Proof

/-! ## Mapped pages (R198, R205, R186) -/

/-- Valid entries of the table at an address: entry address and entry. -/
def tableEntries (s : State) (table : Nat) : List (Nat × Nat) :=
  (s.mem.ptes.filter (fun p => decide (table ≤ p.1) && decide (p.1 < table + 4096))).filterMap (fun p =>
    match pteAt s p.1 with | some e => if bit e 0 then some (p.1, e) else none | none => none)

/-- Leaves below a table of a level: level, entry, entry address. -/
def tableLeaves (s : State) : Nat → Nat → List (Nat × Nat × Nat)
  | 0, table => ((tableEntries s table).filter (fun p => pteOk 0 p.2)).map (fun p => (0, p.2, p.1))
  | lvl + 1, table => (tableEntries s table).flatMap (fun p =>
      if !pteOk (lvl + 1) p.2 then []
      else if bit p.2 1 then [(lvl + 1, p.2, p.1)]
      else tableLeaves s lvl (bits p.2 47 12 * 4096))

/-- Leaves of a context. -/
def ctxLeaves (s : State) (ctx : Nat) : List (Nat × Nat × Nat) := tableLeaves s 3 (ctxOf s ctx).ptRoot

/-- The view of a page (1 INTERLEAVED, 2 DIE_LOCAL, 0 the capacity tier) and the 1 GiB regions it reaches (R186). -/
def pageRegions (pa n : Nat) : Nat × List Nat :=
  match dieLocal pa with
  | some (_, l) => (2, (List.range (ceilDiv n (2 ^ 28))).map (fun i => l / 2 ^ 28 + i))
  | none => if isCap pa then (0, []) else (1, [pa / 2 ^ 30])

/-- Takes or gives up one page's part in the view locks. -/
def lockPage (s : State) (pa n : Nat) (take : Bool) : State :=
  let (view, regions) := pageRegions pa n
  { s with mem := { s.mem with locks := regions.foldl (fun (t : Tab (Nat × Nat)) r =>
      let c := (tget (0, 0) t r).2
      if take then tins t r (view, c + 1) else if c ≤ 1 then tdel t r else tins t r (view, c - 1)) s.mem.locks } }

/-- Primes every granule that a predicate names (R207). -/
def primeWhere (s : State) (p : Nat → Bool) : State :=
  { s with mem := { s.mem with
      granules := s.mem.granules.filter (fun x => !p x.1)
      lines := s.mem.lines.filter (fun x => isReserved x.1 || !p (granOf x.1))
      bytes := s.mem.bytes.filter (fun x => isReserved x.1 || !p (granOf x.1))
      ptes := s.mem.ptes.filter (fun x => !p (granOf x.1))
      clean := s.mem.clean.filter (fun g => !p g) } }

/-- The granule lies in an HBM slice (interleaved offsets) or a capacity slice (R185). -/
def granInSlices (hb hl cb cl g : Nat) : Bool :=
  if g < 2 ^ 23 then decide (hb ≤ g % 2 ^ 21 / 2 ^ 12 * 2 ^ 30) && decide (g % 2 ^ 21 / 2 ^ 12 * 2 ^ 30 < hb + hl)
  else decide (cb ≤ capBase + (g - 2 ^ 23) * 2 ^ 16) && decide (capBase + (g - 2 ^ 23) * 2 ^ 16 < cb + cl)

/-- The 64 bytes of a tensor-table entry (Table 5.3). -/
def tensorEntry (t : Tensor) (live : Bool) : Bytes :=
  leBytes 4 (t.fmt + b2n t.scaled * 2 ^ 4 + t.blkDim * 2 ^ 5 + t.key * 2 ^ 8 + b2n live * 2 ^ 31) ++ leBytes 4 0 ++ leBytes 8 t.base
    ++ (List.range 4).flatMap (fun i => leBytes 4 (nth t.ext i)) ++ (List.range 3).flatMap (fun i => leBytes 8 (nth t.stride i)) ++ leBytes 8 0

/-! ## Windows and groups (R242, R243, R285) -/

/-- Closes a window; the arrival counter is zeroed and freed with its last window. -/
def closeWindow (s : State) (w : Nat) : State :=
  match tlook s.fab.windows w with
  | none => s
  | some v =>
    let n := v.counter
    let arr := match tlook s.fab.arrivals n with
      | some a => if a.windows ≤ 1 then tdel s.fab.arrivals n else tins s.fab.arrivals n { a with windows := a.windows - 1 }
      | none => s.fab.arrivals
    { s with fab := { s.fab with windows := tdel s.fab.windows w, arrivals := arr } }

/-- Closes a group: its entry, its list, its lane entries and the CREDITs held for it go. -/
def closeGroup (s : State) (part group : Nat) : State :=
  { s with fab := { s.fab with
      groups := tdel s.fab.groups (part * 4096 + group)
      lanes := s.fab.lanes.filter (fun l => !(l.2.partition == part && l.2.group == group))
      credits := s.fab.credits.filter (fun h => !(h.partition == part && h.group == group)) } }

/-- Closes the windows and groups of the contexts a predicate names. -/
def closeOf (s : State) (p : Nat → Bool) : State :=
  let s := ((s.fab.windows.filter (fun w => p w.2.context)).map (·.1)).foldl closeWindow s
  ((s.fab.groups.filter (fun g => p g.2.context)).map (·.1)).foldl (fun s g => closeGroup s (g / 4096) (g % 4096)) s

/-! ## Stopping a queue's work (R176, Table 7.10) -/

/-- The uses bound to a slot end with its erasure; what becomes of their commands is said elsewhere. -/
def forgetUses (s : State) (slot : Nat) : State :=
  { s with queues := s.queues.map (fun q => (q.1, { q.2 with running := q.2.running.map (fun r =>
      if r.use.any (fun u => u.slot == slot) then { r with use := none } else r) })) }

/-- Data queues of a context. -/
def queuesOf (s : State) (ctx : Nat) : List Nat :=
  (s.queues.filter (fun q => q.2.valid && q.1 != 0 && q.1 != mgmtQueue && q.2.context == ctx)).map (·.1)
/-- Entries between head and tail. -/
def queueLeft (v : Queue) : Nat := (v.sqTail + 2 ^ v.sqLog2 - v.sqHead) % 2 ^ v.sqLog2
/-- No command of a queue runs. -/
def queueIdle (s : State) (q : Nat) : Bool := (queueOf s q).running.isNone && (planOf s q).isNone

/-- Stops one RUNNING task with a status: a crew under Table 4.15, a unit task under its own chapter. -/
def stopTask (s : State) (r : TaskRef) (st : Status) : State :=
  match taskOf s r with
  | none => s
  | some t =>
    match t.kind with
    | 0 => beginStop s r st
    | 2 => trowelAbort s r st
    | _ => groutAbort s r st

/-- Ends the command that a queue runs: a plan halts and its running tasks stop; a plan not yet loaded and any other
command complete at once. -/
def stopQueue (s : State) (q : Nat) (st : Status) : State :=
  match planOf s q with
  | some _ =>
    let s := haltPlan s q st none
    let run := match planOf s q with | some p => tasksIn p .running | none => []
    settleAll (run.foldl (fun s i => stopTask s ⟨q, i⟩ st) s) q
  | none =>
    if (queueOf s q).planWait.isSome then finishCommand (modQueue s q (fun v => { v with planWait := none })) q st 0xFFFFFFFF 0 0
    else finishCommand s q st 0 0 0

/-! ## Contexts (R177, R178) -/

/-- Steps 1 to 4 of Table 7.10 begin on a context: entries up to the present tail complete with the status, plans stop.
A destroy goes on from a reset's progress. -/
def beginContextEnd (s : State) (ctx : Nat) (st : Status) : State :=
  let c := ctxOf s ctx
  if !c.live then s
  else
    let s := ckptEndContext (setCtx s ctx { c with stopping := some (st, s.ns) }) ctx st
    (queuesOf s ctx).foldl (fun s q =>
      stopQueue (modQueue s q (fun v => { v with abortAs := some st, abortTo := v.sqTail,
                                                  waiting := if st = .abortedByDestroy then none else v.waiting,
                                                  waitingCq := if st = .abortedByDestroy then none else v.waitingCq })) q st) s

/-- Every entry that was in the context's rings has completed. -/
def contextDrained (s : State) (ctx : Nat) : Bool :=
  (queuesOf s ctx).all (fun q => queueIdle s q && (queueOf s q).sqHead == (queueOf s q).abortTo)

/-- A PARTITION_RESET handles the partition. -/
def resetting (s : State) (part : Nat) : Bool :=
  match (partOf s part).busy with
  | some q => (queueOf s q).running.any (fun r => opcodeOf r.entry == 0x42)
  | none => false
/-- A reset ends: the fault record is emptied and the queues go on, but for one that is being destroyed (R176). -/
def finishReset (s : State) (ctx : Nat) : State :=
  let s := (queuesOf s ctx).foldl (fun s q => modQueue s q (fun v =>
    if v.state = .stopping then { v with abortAs := some .aborted } else { v with abortAs := none, abortTo := 0 })) s
  modCtx s ctx (fun c => { c with stopping := none, faultSt := none, faultQ := 0, faultCmd := 0, faultAt := 0, faults := 0 })

/-- Key indices that a context's leaves name. -/
def ctxKeys (s : State) (ctx : Nat) : List Nat := (ctxLeaves s ctx).map (fun l => bits l.2.1 55 48)

/-- Steps 5 and 6 of Table 7.10: key contexts used only here are zeroized, mapped granules are re-primed, windows and groups
close, view locks and marks go, queues become not VALID, and the context exists no longer. -/
def finishDestroy (s : State) (ctx : Nat) : State :=
  let leaves := ctxLeaves s ctx
  let others := ((s.contexts.filter (fun c => c.2.live && c.1 != ctx)).map (·.1)).flatMap (ctxKeys s)
  let keys := ((ctxKeys s ctx).filter (fun k => !others.contains k && k != 0)).foldl (fun l k => if l.contains k then l else k :: l) []
  let s := keys.foldl zeroizeKey s
  let grans := leaves.flatMap (fun l => physGrans (leafPhys l.1 l.2.1) (leafBytes l.1))
  let s := primeWhere s (fun g => grans.contains g)
  let s := leaves.foldl (fun s l => lockPage s (leafPhys l.1 l.2.1) (leafBytes l.1) false) s
  let s := { s with mem := { s.mem with
      marked := s.mem.marked.filter (fun m => m.1 != ctx)
      outstanding := s.mem.outstanding.filter (fun o => (queueOf s o.1).context != ctx) } }
  let s := dropCached s (fun t => t.1 == ctx)
  -- the tensor table entries are cleared, in memory too (R112)
  let c := ctxOf s ctx
  let s := c.table.foldl (fun s h => writeOwnLine s (c.ttBase + 64 * h.1) (tensorEntry h.2 false)) s
  let s := closeOf s (· == ctx)
  -- the registration of a checkpoint's granules ends with the owning context (R333), and no image was restored into a later one (R341)
  let leave := fun (c : Chain) =>
    { c with granules := if c.context = ctx then [] else c.granules, restored := c.restored.filter (fun x => x.1 != ctx) }
  let s := { s with sp := { s.sp with sessions := s.sp.sessions.map (fun (x : Nat × Session) =>
      (x.1, { x.2 with chain := x.2.chain.map leave })) } }
  let s := (queuesOf s ctx).foldl (fun s q => modQueue s q (fun v =>
    ({ session := v.session, seqIn := v.seqIn, seqOut := v.seqOut } : Queue))) s
  -- its event ring is disabled (R434)
  let s := match tlook s.regs.rings ctx with
    | some r => { s with regs := { s.regs with rings := tins s.regs.rings ctx { r with en := false } } }
    | none => s
  setCtx s ctx {}

/-! ## Sessions (R379) -/

/-- Step 1 and 2 of Table 14.11: the session is ENDED, tickets are void, and its contexts begin to end. -/
def beginSessionEnd (s : State) (i : Nat) : State :=
  match sesOf s i with
  | none => s
  | some v =>
    if v.state = .ended then s
    else
      let s := ckptAbort s i .abortedByDestroy
      let s := v.tickets.foldl (fun s t => emptySlot (forgetUses s t.slot) t.slot) s
      let s := setSes s i { v with state := .ended, tickets := [], ckptBusy := false, capture := none, restore := none }
      let s := { s with sp := { s.sp with endedIds := if s.sp.endedIds.contains v.id then s.sp.endedIds else v.id :: s.sp.endedIds } }
      (contextsOfSession s i).foldl (fun s c => beginContextEnd s c .abortedByDestroy) s

/-- Steps 3 and 4: key contexts are zeroized, windows and groups close, slots are erased, the entry is logged. -/
def finishSession (s : State) (i : Nat) : State :=
  match sesOf s i with
  | none => s
  | some v =>
    let keys := (s.sp.keyCtxs.filter (fun k => k.2.session == i && k.2.state != .free)).map (·.1)
    let s := keys.foldl (fun s k => clearReplay (zeroizeKey s k) k) s
    let s := ((s.fab.windows.filter (fun w => w.2.session == i)).map (·.1)).foldl closeWindow s
    let slots := (s.sp.slots.filter (fun x => x.2.session == i && x.2.state != .empty)).map (·.1)
    let s := slots.foldl emptySlot s
    let s := (measAdd s v.partition 5 0 0 0 i 0 (BitVec.ofNat 384 v.id)).getD s
    let s := modPart s v.partition (fun p => { p with level := none })
    let s := setLevel s 4 (levelHeld s)
    -- R_MAX bounds the keys of this session alone (R233)
    let s := { s with fab := { s.fab with member := { s.fab.member with rMaxes := s.fab.member.rMaxes.filter (fun r => r.2.1 != i) } } }
    { s with sp := { s.sp with sessions := tdel s.sp.sessions i } }

/-! ## Clusters (R156, R162) -/

/-- A cluster in the free pool. -/
def clusterFree (s : State) (n : Nat) : Bool :=
  (clusterOf s n).partition.isNone && (clusterOf s n).removing.isNone && (clusterOf s n).scrub.isNone

/-- Every task of every loaded plan. -/
def allTasks (s : State) : List (TaskRef × Task) :=
  s.plans.flatMap (fun p => ((List.range p.2.tasks.length).zip p.2.tasks).map (fun t => (⟨p.1, t.1⟩, t.2)))
/-- Tasks placed on a cluster. -/
def tasksOn (s : State) (n : Nat) : List (TaskRef × Task) := (allTasks s).filter (fun t => t.2.place.any (fun x => x.1 == n))

/-- Step 1 of Table 7.4: nothing more is placed on the cluster, reservations on it are released, AHEAD tasks are squashed. -/
def beginRemoval (s : State) (n : Nat) : State :=
  let s := modCluster s n (fun k => { k with removing := some s.ns })
  let s := (tasksOn s n).foldl (fun s t =>
    match t.2.state with
    | .ahead => squash s t.1 .blocked
    | .ready => modTask (releaseReserved s t.1) t.1 (fun t => { t with place := [], won := false })
    | _ => s) s
  modCluster s n (fun k => { k with reserved := none })

/-- No task holds the cluster any longer. -/
def removalClear (s : State) (n : Nat) : Bool :=
  (List.range 16).all (fun l => (coreOf s (16 * n + l)).task.isNone) && !placedOn s n

/-- CLUSTER_REMOVAL_TIMEOUT: a task that still runs on a leaving cluster after 2 ms is force-aborted. -/
def execClusterRemovalTimeout (cluster : Nat) (s : State) : Host.Outcome State Fault Refusal :=
  match (clusterOf s cluster).removing with
  | none => .next s
  | some t =>
    if s.ns < t + 2000000 then .next s
    else .next ((tasksOn s cluster).foldl (fun s r =>
      if r.2.state = .running then beginStop s r.1 .aborted
      else if r.2.state = .ahead then squash s r.1 .blocked else s) s)

/-- The zeroing of a cluster: core stores, accumulator files, engine registers, cluster store, skim ranges. -/
def zeroCluster (s : State) (n : Nat) : State :=
  let s := (List.range 16).foldl (fun s l => modCore s (16 * n + l) scrubbed) s
  modCluster s n (fun k => { k with store := [], skim := [], scrub := none })

/-! ## Management commands in progress (R162, R163, R176 to R178) -/

/-- Contexts of a partition that live. -/
def liveContexts (s : State) (part : Nat) : List Nat := contextsOf s part

/-- Starts the scrub of clusters that leave and that nothing holds (step 3 of Table 7.4). -/
def startScrubs (s : State) : State :=
  { s with clusters := s.clusters.map (fun (p : Nat × Cluster) =>
      if p.2.removing.isSome && p.2.scrub.isNone && removalClear s p.1 then (p.1, { p.2 with scrub := some s.ns }) else p) }

/-- A destroyed partition's last steps (R163): key contexts zeroized, both slices primed, the partition gone. -/
def finishPartition (s : State) (part : Nat) : State :=
  let p := partOf s part
  let keys := (s.sp.keyCtxs.filter (fun k => decide (p.keyFirst ≤ k.1) && decide (k.1 < p.keyFirst + p.keyCount))).map (·.1)
  let s := keys.foldl (fun s k => clearReplay (zeroizeKey s k) k) s
  let s := primeWhere s (granInSlices p.hbmBase p.hbmLen p.capBase p.capLen)
  let slots := (s.sp.slots.filter (fun x => x.2.state != .empty && x.2.partition == part && x.2.session != 0)).map (·.1)
  let s := setPart (slots.foldl emptySlot s) part {}
  markMeas (setLevel s 4 (levelHeld s))

/-- Moves the management command of a queue on, if it can move. -/
def mgmtProgress (q : Nat) (s : State) : State :=
  match (queueOf s q).running with
  | none => s
  | some r =>
    if r.status.isSome then s
    else
      let e := r.entry
      let part := le e 0x20 4 % 32
      let ctx := le e 0x20 4 % 4096
      let q1 := le e 0x20 4 % 16384
      let done := fun (s : State) => finishCommand s q .ok 0 0 0
      let phase := fun (s : State) (n : Nat) =>
        modQueue s q (fun v => { v with running := v.running.map (fun r => { r with phase := n, since := s.ns }) })
      match opcodeOf e with
      | 0x41 =>
        if r.waitFor.all (clusterFree s) then
          let p := partOf s part
          let (hl, cl) := (le e 0x38 8, le e 0x48 8)
          let s := primeWhere s (fun g => granInSlices p.hbmBase p.hbmLen p.capBase p.capLen g && !granInSlices p.hbmBase hl p.capBase cl g)
          done (modPart s part (fun p => { p with hbmLen := hl, capLen := cl, busy := none }))
        else s
      | 0x42 =>
        -- every context's entries have completed, then the clusters are scrubbed, then the queues go on
        if r.phase = 0 then
          if (liveContexts s part).all (contextDrained s) then
            let s := (partOf s part).clusters.foldl (fun s n => modCluster s n (fun k => { k with scrub := some s.ns })) s
            phase s 1
          else s
        else if (partOf s part).clusters.all (fun n => (clusterOf s n).scrub.isNone) then
          let s := ((liveContexts s part).filter (fun c => (ctxOf s c).stopping.any (fun x => x.1 == .abortedByReset))).foldl finishReset s
          done (modPart s part (fun p => { p with busy := none }))
        else s
      | 0x43 =>
        if r.phase = 0 then
          if (liveContexts s part).isEmpty && s.sp.sessions.all (fun x => x.2.partition != part) then
            let s := (partOf s part).clusters.foldl (fun s n => modCluster s n (fun k => { k with removing := some s.ns, scrub := some s.ns })) s
            phase s 1
          else s
        else if (partOf s part).clusters.all (clusterFree s) then done (finishPartition s part)
        else s
      | 0x49 => if (ctxOf s ctx).stopping.isNone then done s else s
      | 0x4A => if (ctxOf s ctx).live then s else done s
      | 0x51 => if (queueOf s q1).valid then s else done s
      | 0x52 =>
        let v := queueOf s q1
        -- a queue that was destroyed with its context has completed every entry
        if !v.valid then done s
        else if queueIdle s q1 && v.flushTo == some v.sqHead then done (modQueue s q1 (fun v => { v with flushTo := none })) else s
      | _ => s

/-! ## Firmware activation (R181) -/

/-- Digest that a manifest's FW list names for a pair of firmware measurements (Table 14.10). -/
def fwDigest (sp hub : Digest) : Digest := Config.sha384 (digestBytes sp ++ digestBytes hub)
/-- Every live session accepts a pair of firmware measurements. -/
def fwAccepted (s : State) (sp hub : Digest) : Bool :=
  s.sp.sessions.all (fun x => x.2.state == .ended || x.2.manifest.fw.contains (fwDigest sp hub))

/-- FW_ACTIVATE of a target (0 security processor, 1 hub): the status, and the state in which the staged image runs. -/
def fwActivate (s : State) (target : Nat) : Status × State :=
  let held := s.queues.all (fun q => q.1 == 0 || q.1 == mgmtQueue || !q.2.valid || (q.2.state == .held && queueIdle s q.1))
  if target = 1 && !held then (.busy, s)
  else match tlook s.sp.staged target with
  | none => (.notReady, s)
  | some (d, v) =>
    let ok := if target = 0 then fwAccepted s d s.sp.fwHub else fwAccepted s s.sp.fwSp d
    if !ok then (.policyDenied, logIt s 2 (statusCode .policyDenied) 0 0 0x59 target)
    else
      let p := { s.sp with staged := tdel s.sp.staged target }
      (.ok, { s with sp := if target = 0 then { p with fwSp := d, verSp := v } else { p with fwHub := d, verHub := v } })

/-- A key operation is in flight (R181): a bound use, an erasure that waits for such uses, or a capture under way. -/
def keyOpInFlight (s : State) : Bool := s.sp.slots.any (fun x => x.2.state == .erasing || x.2.bound != 0) || s.sp.sessions.any (fun x => x.2.ckptBusy)

/-- FW_ACTIVATE on both staged components, target 0 first (R480): the status is that of the first that failed. -/
def fwBoth (s : State) : Status × State :=
  let (a, s) := if (tlook s.sp.staged 0).isSome then fwActivate s 0 else (.ok, s)
  let (b, s) := if (tlook s.sp.staged 1).isSome then fwActivate s 1 else (.ok, s)
  (if a = .ok then b else a, s)

/-- A FW_ACTIVATE of target 0 that waits runs once it can (phase 1: an activation of both components). -/
def fwProgress (s : State) : State :=
  if s.sp.fwWait && !keyOpInFlight s then
    let s := { s with sp := { s.sp with fwWait := false } }
    let waits := [0, mgmtQueue].filter (fun q => (queueOf s q).running.any (fun r => r.status.isNone && opcodeOf r.entry == 0x59))
    waits.foldl (fun s q =>
      let both := (queueOf s q).running.any (fun r => r.phase == 1)
      let (st, s) := if both then fwBoth s else fwActivate s 0
      finishCommand s q st 0 0 0) s
  else s

/-- Everything that waits for work to stop moves on: contexts, sessions, clusters, queues, management commands, a firmware activation. -/
def progress (s : State) : State :=
  let s := (allContexts s).foldl (fun s c =>
    match (ctxOf s c).stopping with
    | none => s
    | some (st, _) =>
      if !contextDrained s c then s
      else if st = .abortedByDestroy then finishDestroy s c
      else if resetting s (ctxOf s c).partition then s
      else finishReset s c) s
  let s := ((s.sp.sessions.filter (fun x => x.2.state == .ended)).map (·.1)).foldl (fun s i =>
    if (contextsOfSession s i).isEmpty then
      -- a SESSION_END request is answered now (Table 14.11 step 4)
      let asked := (sesOf s i).any (fun v => v.endReq)
      let s := finishSession s i
      if asked then { s with sp := { s.sp with answer := some ⟨.ok, [], []⟩ } } else s
    else s) s
  let s := startScrubs s
  let stopped := (s.queues.filter (fun q => q.2.valid && q.2.state == .stopping && q.2.sqHead == q.2.abortTo && queueIdle s q.1)).map (·.1)
  let s := stopped.foldl (fun s q => modQueue s q (fun v => ({ session := v.session, seqIn := v.seqIn, seqOut := v.seqOut } : Queue))) s
  fwProgress (mgmtProgress mgmtQueue (mgmtProgress 0 s))

/-- CLUSTER_SCRUB_COMPLETE: the scrub of a cluster ends; one that leaves its partition enters the free pool (Table 7.4). -/
def execClusterScrubComplete (cluster : Nat) (s : State) : Host.Outcome State Fault Refusal :=
  match (clusterOf s cluster).scrub with
  | none => .next s
  | some _ =>
    let leaving := (clusterOf s cluster).removing.isSome
    let s := zeroCluster s cluster
    let s := if leaving then modCluster s cluster (fun k => { k with partition := none, removing := none, reserved := none }) else s
    .next (progress (refreshClusters s))

end Sys2Proof.Machine
end

