-- ==== Sys2Proof/Machine/Completion.lean ====
section
/-! DEFINITION. The events that end tasks: the release of END, the task-end scrub, the stop sequence, and the two time limits
of a plan (R100, R101, R140). -/

namespace Sys2Proof.Machine
open Sys2Proof

/-- Every core of a running crew has released END on every cluster of its placement. -/
def crewDone (s : State) (t : Task) : Bool :=
  t.state == .running && t.stop.isNone && t.place.all (fun x => t.entered.contains x.1) && !t.cores.isEmpty
    && t.cores.all (fun c => (coreOf s c).ended)

/-- END_RELEASE: the END of a core releases (R100); the last one completes the task with OK. -/
def execEndRelease (core : Nat) (s : State) : Host.Outcome State Fault Refusal :=
  let c := coreOf s core
  match c.wait, c.task with
  | some .fin, some r =>
    if waitHolds s core .fin && mayCommit s core then
      let s := releaseWait s core (cycleOf s core + 1)
      match taskOf s r with
      | some t => if crewDone s t then .next (progress (crewEnd s r)) else .next s
      | none => .next s
    else .next s
  | _, _ => .next s

/-- TASK_SCRUB_COMPLETE: 256 cycles after its task's end a core is clean and can be placed again; a reserved cluster passes
to its waiting task (R100, R144). -/
def execTaskScrubComplete (core : Nat) (s : State) : Host.Outcome State Fault Refusal :=
  match (coreOf s core).scrub with
  | none => .next s
  | some c0 =>
    if clusterCycle s core < c0 + 256 then .next s
    else .next (progress (refreshClusters (passReserved (modCore s core scrubbed) (clusterNo core))))

/-- TASK_STOP_COMPLETE: the stop sequence of a crew ends (Table 4.15): its task completes with its status, or, squashed,
leaves nothing behind; what waited for its clusters or its end goes on. -/
def execTaskStopComplete (queue task : Nat) (s : State) : Host.Outcome State Fault Refusal :=
  match taskOf s ⟨queue, task⟩ with
  | none => .next s
  | some t =>
    if t.stop.isNone || !stopScrubbed s ⟨queue, task⟩ t then .next s
    else .next (progress ((t.place.map (·.1)).foldl passReserved (stopComplete s ⟨queue, task⟩)))

/-- A time limit has run out on a task: counted, with its event (Table 19.7). -/
def noteLimit (s : State) (queue task : Nat) : State :=
  pulseEvent { s with regs := { s.regs with wdog := satAdd 32 s.regs.wdog 1 } } pgSched 1 [(2, queue + task * 2 ^ 16)]

/-- WATCHDOG_EXPIRY: a RUNNING task that has not completed WATCHDOG µs after it entered RUNNING is force-aborted with ABORTED
(R140). The timer pauses in the dust-sheet state (R426). -/
def execWatchdogExpiry (queue task : Nat) (s : State) : Host.Outcome State Fault Refusal :=
  match planOf s queue, taskOf s ⟨queue, task⟩ with
  | some p, some t =>
    if t.state = .running ∧ t.stop.isNone = true ∧ p.watchdog ≠ 0 ∧ t.runSince + p.watchdog * 1000 ≤ s.ns ∧ s.pow.dustSheet = false then
      .next (progress (stopTask (noteLimit s queue task) ⟨queue, task⟩ .aborted))
    else .next s
  | _, _ => .next s

/-- SIGNAL_LIMIT_EXPIRY: a remote-signal edge still unsatisfied SIGNAL_LIMIT ms after the task's other edges resolved ends the
task with ABORTED and halts the plan (R140). -/
def execSignalLimitExpiry (queue task : Nat) (s : State) : Host.Outcome State Fault Refusal :=
  match planOf s queue, taskOf s ⟨queue, task⟩ with
  | some p, some t =>
    let waits := t.edges.any (fun e => e.type == 2 && e.resolved.isNone)
    let due := match t.resolved with | some at' => decide (at' + p.sigLimit * 1000000 ≤ s.ns) | none => false
    if (t.state == .blocked || t.state == .ahead) && t.stop.isNone && waits && due && p.sigLimit != 0 && !t.notTaken && !s.pow.dustSheet then
      .next (progress (settleAll (endTask (noteLimit s queue task) ⟨queue, task⟩ .aborted) queue))
    else .next s
  | _, _ => .next s

end Sys2Proof.Machine
end

