-- ==== Sys2Proof/Machine/Dispatcher.lean ====
section
/-! DEFINITION. Plan loading, arbitration and dispatch, and run-ahead (chapter 06: R127 to R153). -/

namespace Sys2Proof.Machine
open Sys2Proof

/-! ## PLAN_LOAD (R132, R133, R405, R406) -/

/-- Every page of a range is mapped in the context. -/
def rangeMapped (s : State) (ctx va n : Nat) : Bool :=
  decide (va + n ≤ 2 ^ 48) && (linesOf va n).all (fun v => (leafOf s hubAgent ctx v).isSome)

/-- Records of `w` bytes of an array. -/
def recordsOf (b : Bytes) (w n : Nat) : List Bytes := (List.range n).map (fun i => slice b (w * i) w)

/-- Edge ranges of tasks lie in the array and do not overlap; prologue ranges lie in theirs. -/
def rangesOk (tasks : List Bytes) (edges pros : Nat) : Bool :=
  let rs := tasks.map taskRanges
  rs.all (fun r => (r.2.1 == 0 || decide (r.1 + r.2.1 ≤ edges)) && (r.2.2.2 == 0 || decide (r.2.2.1 + r.2.2.2 ≤ pros)))
    && (List.range rs.length).all (fun i => (List.range i).all (fun j =>
      let a := rs.getD i (0, 0, 0, 0); let b := rs.getD j (0, 0, 0, 0); !rangesMeet a.1 a.2.1 b.1 b.2.1))

/-- A task with the records its ranges name. -/
def buildTask (b : Bytes) (edges : List Edge) (pros : List Prologue) : Task :=
  let r := taskRanges b
  decodeTask b ((edges.drop r.1).take r.2.1) ((pros.drop r.2.2.1).take r.2.2.2)

/-- Conditions on the records that a task's ranges name: SRC below the task, RANK below the crew's clusters. -/
def ownedOk (i : Nat) (t : Task) : Bool :=
  t.edges.all (fun e => e.type == 2 || decide (e.src < i))
    && t.pros.all (fun p => p.mode != 0 || decide (p.dest.rank < (if t.unit = 1 then t.crew else 1)))

/-- Reads a plan's arrays: the status of a rejection, or the header and the arrays. -/
def readPlan (s : State) (ctx base key : Nat) : Status × PlanHead × Bytes × Bytes × Bytes × State :=
  let none' := fun (st : Status) (h : PlanHead) (s : State) => (st, h, ([] : Bytes), ([] : Bytes), ([] : Bytes), s)
  if 2 ^ 48 ≤ base then none' .descInvalid default s
  else if !commandKeyOk s ctx key then none' .policyDenied default s
  else if !rangeMapped s ctx base 64 then none' .descInvalid default s
  else
    let (st, hb, s) := vread s ctx key base 64
    if st ≠ .ok then none' st default s
    else
      let h := decodeHead hb
      if !h.ok then none' .descInvalid h s
      else if !(rangeMapped s ctx (base + h.taskOff) (64 * h.tasks) && rangeMapped s ctx (base + h.edgeOff) (16 * h.edges)
          && rangeMapped s ctx (base + h.proOff) (192 * h.pros) && rangeMapped s ctx (base + h.statOff) (4 * h.tasks)) then
        none' .descInvalid h s
      else
        let (st1, tb, s) := vread s ctx key (base + h.taskOff) (64 * h.tasks)
        let (st2, eb, s) := vread s ctx key (base + h.edgeOff) (16 * h.edges)
        let (st3, pb, s) := vread s ctx key (base + h.proOff) (192 * h.pros)
        let st4 := vcheck s ctx key (base + h.statOff) (4 * h.tasks) .write
        (([st1, st2, st3, st4].find? (· != .ok)).getD .ok, h, tb, eb, pb, s)

/-- Keeps the address at which a queue's command fails (R201). -/
def failedAt (s : State) (q : Nat) (va : Option Nat) : State :=
  modQueue s q (fun v => { v with running := v.running.map (fun r => { r with addr := va }) })
/-- The faulting address of a plan that could not be read: that of its header, an array, or its status words; a header or
arrays that break a rule fail no access. -/
def planFault (s : State) (q ctx base key : Nat) (st : Status) : State :=
  let h := decodeHead (vread s ctx key base 64).2.1
  let spots : List (Nat × Nat × Acc) := [(base, 64, .read), (base + h.taskOff, 64 * h.tasks, .read), (base + h.edgeOff, 16 * h.edges, .read),
    (base + h.proOff, 192 * h.pros, .read), (base + h.statOff, 4 * h.tasks, .write)]
  failedAt s q (if st = .descInvalid then none else spots.findSome? (fun x => faultIn s ctx key x.1 x.2.1 x.2.2))

/-- What the one line write at which a range fails leaves behind: the failing read of its merge, and no byte written. -/
def afterFailed (s : State) (ctx key va n : Nat) : State :=
  match (linesOf va n).find? (fun a => (vwriteLine s ctx key a (lineMask va (List.replicate n 0) a).1 0 false).1 != .ok) with
  | some a => (vwriteLine s ctx key a (lineMask va (List.replicate n 0) a).1 0 false).2
  | none => s

/-- PLAN_LOAD: the plan that a queue has waiting is read once, checked whole, and loaded, with every status word written as
NOT_READY; a plan that breaks a rule, or of whose status words a line cannot be written, is rejected with nothing run and nothing
written (R133). While a link waits, so does the read (R229), and it is held in the dust-sheet state (R425). -/
def execPlanLoad (queue : Nat) (s : State) : Host.Outcome State Fault Refusal :=
  let v := queueOf s queue
  match v.planWait, planOf s queue, dieWaits s hubDie || s.pow.dustSheet with
  | some (base, key), none, false =>
    let ctx := v.context
    let part := (ctxOf s ctx).partition
    let s := modQueue s queue (fun v => { v with planWait := none })
    let reject := fun (st : Status) (s : State) => Host.Outcome.next (progress (finishCommand s queue st 0xFFFFFFFF 0 0))
    let (st, h, tb, eb, pb, s) := readPlan s ctx base key
    if st ≠ .ok then reject st (planFault s queue ctx base key st)
    else
      let tasks := recordsOf tb 64 h.tasks
      let edges := recordsOf eb 16 h.edges
      let pros := recordsOf pb 192 h.pros
      let skim := (partOf s part).skimUnits * 262144
      let built := tasks.map (fun b => buildTask b (edges.map decodeEdge) (pros.map decodePro))
      if !(tasks.all taskOk && edges.all edgeOk && pros.all (fun b => proOk b skim) && rangesOk tasks h.edges h.pros
          && (List.range built.length).all (fun i => (built[i]?).all (ownedOk i))) then reject .descInvalid s
      else
        let words := List.replicate h.tasks (leBytes 4 (statusCode .notReady))
        let (st, s') := vwrite s ctx key (base + h.statOff) words.flatten false
        if st ≠ .ok then reject st (failedAt (afterFailed s ctx key (base + h.statOff) (4 * h.tasks)) queue (faultIn s ctx key (base + h.statOff) (4 * h.tasks) .write))
        else
          let s := s'
          let seq := match (partOf s part).level with | some l => l.plans | none => 0
          let s := modLevel s part (fun l => { l with plans := l.plans + 1 })
          let dt := s.pow.dtEn
          let s := setPlan s queue
            { queue := queue, ctx := ctx, key := key, base := base, watchdog := h.watchdog, sigLimit := h.limit,
              statusAt := base + h.statOff, flags := BitVec.ofNat 64 h.flags, tasks := built, halted := none, culprit := none,
              loadedAt := s.ns, dt := dt, freq := s.pow.dtFreq, seq := seq }
          -- deterministic-timing mode: frequency pinned, no cluster asleep, the partition's translations uncached (R406)
          let s := if dtActive s then dropCached (dtSettle s) (fun t => (contextsOf s part).contains t.1) else s
          .next (progress (settleAll s queue))
  | _, _, _ => .next s

/-! ## Arbitration (R144) -/

/-- A candidate: the queue, its task, its EP and its AGE. -/
structure Candidate where
  (queue task ep age : Nat)
  deriving DecidableEq, Repr, Inhabited

/-- Key of a resource in a queue's AGE table. -/
def resourceKey : Resource → Nat
  | .clusters p => p
  | .grout => 32
  | .trowel => 33
  | .barrier => 34
/-- KIND of the tasks a resource takes. -/
def resourceKind : Resource → Nat
  | .clusters _ => 0
  | .grout => 1
  | .trowel => 2
  | .barrier => 3

/-- A crew task that has won a decision: it has been placed, or clusters are reserved for it. -/
def hasWon (s : State) (r : TaskRef) : Bool := (taskOf s r).any (fun t => t.won && !t.place.isEmpty) || s.clusters.any (fun k => k.2.reserved == some r)

/-- A crew cannot fit its partition (R142, check 1). -/
def crewUnfit (s : State) (part : Nat) (t : Task) : Bool :=
  t.unit == 1 && decide (((partOf s part).clusters.filter (enabled s ·)).length < t.crew)
/-- The crew can be placed or can reserve the clusters that R141 chooses, or those it was placed on AHEAD. -/
def crewRoom (s : State) (part : Nat) (r : TaskRef) (t : Task) : Bool :=
  if !t.place.isEmpty then t.place.all (fun x => (openClusters s part r).contains x.1)
  else if t.unit = 1 then (placeClusters s part r t.crew).isSome else (placeCores s part r t.crew).isSome

/-- The group of a Grout or barrier task waits for a key above the takeover bound (R233). -/
def groutKeyWait (s : State) (part : Nat) (t : Task) : Bool :=
  let a := (t.args.getD 0 0).toNat
  match groupOf s part (if t.kind = 3 then a % 4096 else bits a 15 4) with
  | some g => (t.kind == 1 || t.kind == 3) && !maySend s ((pairActive s g.lkey).getD g.lkey)
  | none => false

/-- The Grout engine takes work: not gated, its domain ON (R415, R418). -/
def groutOn (s : State) : Bool := bit s.pow.cgHub.toNat 0 && (domOf s 92).state == .on
/-- All eight Trowel units take work: none gated, every capacity domain ON. -/
def trowelOn (s : State) : Bool := s.pow.cgTrowel == 0xFF#8 && (List.range 8).all (fun k => (domOf s (72 + k)).state == .on)

/-- The candidate that a queue offers for a resource: its READY task of the kind with the lowest index. A candidate that can
be neither placed nor reserve a cluster is left out, and so is one that a full Level buffer or a key of R233 holds, and a unit task whose
reads at dispatch would wait for a link (R229). -/
def offer (s : State) (res : Resource) (q : Nat) (p : Plan) : Option Candidate :=
  let part := (ctxOf s p.ctx).partition
  let mine := match res with | .clusters x => x == part | _ => true
  if p.halted.isSome || !mine || levelFull s part then none
  else
    match (tasksIn p .ready).find? (fun i => match p.tasks[i]? with
        | some t => t.kind == resourceKind res && t.held.isNone && t.stop.isNone && !hasWon s ⟨q, i⟩
        | none => false) with
    | none => none
    | some i =>
      match p.tasks[i]? with
      | none => none
      | some t =>
        let may := match res with
          | .clusters _ => crewUnfit s part t || crewRoom s part ⟨q, i⟩ t
          | .grout => groutOn s && !dieWaits s hubDie && (!groutKeyWait s part t || decide (t.resolved.getD s.ns + 1000000000 ≤ s.ns))
          | .trowel => s.fab.trowel.isNone && trowelOn s && !dieWaits s hubDie
          | .barrier => groutOn s && !dieWaits s hubDie && (!groutKeyWait s part t || decide (t.resolved.getD s.ns + 1000000000 ≤ s.ns))
        if may then
          let v := queueOf s q
          let age := tget 0 v.ages (resourceKey res)
          some ⟨q, i, min 7 (v.prio + age / 16), age⟩
        else none

/-- `a` goes before `b`: higher EP, then higher AGE, then the lower queue. -/
def Candidate.before (a b : Candidate) : Bool :=
  decide (b.ep < a.ep) || (a.ep == b.ep && (decide (b.age < a.age) || (a.age == b.age && decide (a.queue < b.queue))))
/-- The candidates of a decision, best first. -/
def candidates (s : State) (res : Resource) : List Candidate :=
  sortBy (fun a b => a.before b) (s.plans.filterMap (fun p => offer s res p.1 p.2))

/-- A crew task that won takes its clusters: a core crew that fits takes the cores at once and leaves the cluster's others to the next
decisions, whether or not the cluster sleeps; otherwise clusters are reserved. What is awake and free starts, what sleeps wakes
(R141, R144 step 5, R152). -/
def takeClusters (s : State) (part : Nat) (r : TaskRef) (t : Task) : State :=
  let place : List (Nat × List Nat) :=
    if t.unit = 1 then ((placeClusters s part r t.crew).getD []).map (fun c => (c, List.range 16))
    else match placeCores s part r t.crew with
      | some (c, true) => [(c, (freeCores s c).take t.crew)]
      | some (c, false) => [(c, [])]
      | none => []
  -- what ran ahead keeps its placement
  let place := if t.place.isEmpty then place else t.place
  -- a placement made ahead took no cores; it fits if they are free now
  let fits := t.unit != 1 && place.all (fun x => decide (x.2.length = t.crew) && x.2.all (fun l => (freeCores s x.1).contains l))
  let s := modTask s r (fun t => { t with place := place, won := true })
  let s := if fits then s else place.foldl (fun s x => modCluster s x.1 (fun k => { k with reserved := some r })) s
  place.foldl (fun s x => if fits || (clusterOf s x.1).reserved = some r then tryEnter s r x.1 else s) s

/-- A unit task that won enters RUNNING. -/
def takeUnit (s : State) (r : TaskRef) : State :=
  let s := modTask s r (fun t => { t with state := .running, runSince := s.ns })
  { s with regs := { s.regs with dispatch := satAdd 32 s.regs.dispatch 1 } }

/-- Dispatches a winner. -/
def dispatchWinner (s : State) (res : Resource) (c : Candidate) : State :=
  let r : TaskRef := ⟨c.queue, c.task⟩
  match planOf s c.queue, taskOf s r with
  | some p, some t =>
    let part := (ctxOf s p.ctx).partition
    match res with
    | .clusters _ =>
      if crewUnfit s part t then completeTask s r .unsupported 0 else takeClusters s part r t
    | .grout =>
      let s := takeUnit s r
      let g := groutOfTask r p.ctx part t
      let st := groutCheck s t g
      if st ≠ .ok then completeTask s r st 0
      else if groutKeyWait s part t then completeTask s r .notReady 0
      else groutStart s g
    | .trowel => trowelStart (takeUnit s r) r p.ctx part t
    | .barrier =>
      let (st, g, s) := barrierOfTask (takeUnit s r) r p.ctx part t
      if st ≠ .ok then completeTask s r st 0
      else if groutKeyWait s part t then completeTask s r .notReady 0
      else groutStart s g
  | _, _ => s

/-- ARBITRATION_DECISION: one decision for a resource: the candidate with the highest effective priority wins, the others
age, and the winner is dispatched (R144). A queue keeps its AGE for the resource when its candidate goes without winning, and the next
candidate takes it over (DESIGN CHOICE: R144 counts from the offer of a candidate, and each queue keeps one AGE per resource). Nothing is dispatched in the dust-sheet state (R425). -/
def execArbitrationDecision (resource : Resource) (s : State) : Host.Outcome State Fault Refusal :=
  if s.pow.dustSheet then .next s
  else
    match candidates s resource with
    | [] => .next s
    | w :: rest =>
      let k := resourceKey resource
      let s := modQueue s w.queue (fun v => { v with ages := tput 0 v.ages k 0 })
      let s := rest.foldl (fun s c => modQueue s c.queue (fun v => { v with ages := tput 0 v.ages k (tget 0 v.ages k + 1) })) s
      .next (progress (refreshClusters (dispatchWinner s resource w)))

/-! ## Run-ahead (R146 to R151) -/

/-- A task that may enter the run-ahead window (R146). Beyond the four conditions there, a task with a conditional edge resolved not
taken, which R138 bypasses, does not enter, nor does one whose crew does not fit its partition or can be placed nowhere, since
R147 places it at admission (DESIGN CHOICE). -/
def mayAhead (s : State) (part q i : Nat) (t : Task) : Bool :=
  t.kind == 0 && t.skim && t.state == .blocked && t.stop.isNone && t.place.isEmpty
    && t.edges.all (fun e => e.type != 0 || e.resolved.isSome)
    && t.edges.any (fun e => e.type != 0 && e.resolved.isNone)
    && t.edges.all (fun e => e.type != 1 || e.resolved.isSome || e.predict)
    && !t.notTaken && !crewUnfit s part t && crewRoom s part ⟨q, i⟩ t

/-- The task that a free window entry admits: queues in the order of R144, tasks ascending within a plan. -/
def nextAhead (s : State) (part : Nat) : Option TaskRef :=
  let qs := (s.plans.filter (fun p => (ctxOf s p.2.ctx).partition == part && p.2.halted.isNone)).map (fun p =>
    let v := queueOf s p.1
    let age := tget 0 v.ages part
    (⟨p.1, 0, min 7 (v.prio + age / 16), age⟩ : Candidate))
  (sortBy (fun a b => a.before b) qs).findSome? (fun c =>
    match planOf s c.queue with
    | none => none
    | some p => ((List.range p.tasks.length).find? (fun i => (p.tasks[i]?).any (mayAhead s part c.queue i))).map (fun i => ⟨c.queue, i⟩))

/-- SKIM_ADMISSION: with fewer than four tasks in AHEAD, the first eligible task of the partition enters the window and is
placed without reserving cores; sleeping clusters of its placement wake (R146, R147, R152). -/
def execSkimAdmission (partition : Nat) (s : State) : Host.Outcome State Fault Refusal :=
  let ahead := (allTasks s).filter (fun t => t.2.state == .ahead && (match planOf s t.1.queue with
    | some p => (ctxOf s p.ctx).partition == partition | none => false))
  if 4 ≤ ahead.length ∨ s.pow.dustSheet = true ∨ levelFull s partition = true then .next s
  else
    match nextAhead s partition with
    | none => .next s
    | some r =>
      match taskOf s r with
      | none => .next s
      | some t =>
        let place : List (Nat × List Nat) :=
          if t.unit = 1 then ((placeClusters s partition r t.crew).getD []).map (fun c => (c, List.range 16))
          else match placeCores s partition r t.crew with
            | some (c, true) => [(c, (freeCores s c).take t.crew)]
            | some (c, false) => [(c, [])]
            | none => []
        let s := modTask s r (fun t => { t with state := .ahead, place := place, admitted := true })
        .next (refreshClusters (place.foldl (fun s x => if awake s x.1 then s else startWake s x.1) s))

/-- PROLOGUE_LOAD_ISSUE: load `entry` of a placed task issues on one of the clusters it reaches, if that cluster is awake and
no other task holds a skim range that overlaps, nor one that still has to be zeroed (R147, R151); the load of a task that never was
in the run-ahead window only once the cluster has passed to it (Table 6.6, step 4). It takes channel 6 or 7 when one is free. A tensor entry that is not LIVE or does not match completes the
token with DESC_INVALID (R148). -/
def execPrologueLoadIssue (queue task entry cluster : Nat) (s : State) : Host.Outcome State Fault Refusal :=
  let r : TaskRef := ⟨queue, task⟩
  match planOf s queue, taskOf s r with
  | some p, some t =>
    match t.pros[entry]? with
    | none => .next s
    | some e =>
      let lo := e.dest.addr
      let hi := lo + e.dest.lay.footprint
      let clash := (clusterOf s cluster).skim.any (fun x => (x.2.2.1 != r || x.2.2.2) && decide (lo < x.2.1) && decide (x.1 < hi))
      if t.final || t.stop.isSome || t.place.isEmpty || !(loadTargets t entry).contains cluster || !t.place.any (fun x => x.1 == cluster)
          || t.loads.any (fun l => l.1 == entry && l.2.1 == cluster) || !awake s cluster || clash || s.pow.dustSheet || !(t.admitted || t.entered.contains cluster) then .next s
      else
        let src := loadSource e (t.rankOf cluster)
        let ten := tensorAt s p.ctx src
        let ok := descRow2 src (ctxOf s p.ctx).tensors ten
        let s := modCluster s cluster (fun k => { k with skim := k.skim ++ [(lo, hi, r, false)] })
        let s := modTask s r (fun t => { t with loads := t.loads ++ [(entry, cluster, if ok then Token.pending else Token.done .descInvalid, ten)] })
        .next (if ok then (takeChan s cluster 6 8 (.load r entry)).getD s else setLoad s r entry cluster .descInvalid none)
  | _, _ => .next s

/-- AHEAD_DISPATCH: a task enters one more cluster of its placement whose cores are free and awake: an AHEAD task, or one
that has gone from AHEAD to RUNNING (R149), or one that has won and waits for that cluster (R144 step 5). -/
def execAheadDispatch (queue task cluster : Nat) (s : State) : Host.Outcome State Fault Refusal :=
  let r : TaskRef := ⟨queue, task⟩
  match planOf s queue, taskOf s r with
  | some p, some t =>
    let k := clusterOf s cluster
    let mine := k.reserved == some r || (t.won && t.state == .ready) || ((t.state == .ahead || t.state == .running) && k.reserved.isNone)
    if mine && !t.final && (p.halted.isNone || t.state == .running) && k.removing.isNone && !s.pow.dustSheet && !levelFull s (ctxOf s p.ctx).partition then
      .next (progress (refreshClusters (tryEnter s r cluster)))
    else .next s
  | _, _ => .next s

/-- SKIM_RANGE_ZERO: a skim range of an ended task is zeroed and given up (R151). A load of a task that has ended moves nothing more
(completeLoad), so no transfer writes a range once it may be zeroed. -/
def execSkimRangeZero (cluster base : Nat) (s : State) : Host.Outcome State Fault Refusal :=
  let k := clusterOf s cluster
  match k.skim.find? (fun x => x.1 == base && x.2.2.2) with
  | none => .next s
  | some x =>
    .next (refreshClusters (setCluster s cluster { k with store := mzero k.store x.1 (x.2.1 - x.1), skim := k.skim.erase x }))

end Sys2Proof.Machine
end

