-- ==== Sys2Proof/Machine/Requests.lean ====
section
/-! DEFINITION. What the end of a request sent by this module does to the operation that sent it (R98, R248, R254), and
what a Lath port does when it goes up or down (R239, Table 10.2). -/

namespace Sys2Proof.Machine
open Sys2Proof

/-- The request of an XID ends with a status: its operation takes it into account. -/
def answerRequest (s : State) (xid : Nat) (st : Status) : State :=
  match tlook s.fab.pending xid with
  | none => s
  | some q =>
    let s := dropPending s xid
    match q.by' with
    | .dma core tok =>
      match opOfToken (coreOf s core) tok with
      | none => s
      | some o =>
        let o := { o with xids := o.xids.filter (· != xid) }
        let o := if st = .ok then o else failPacket o q.pkt st
        settleLath (putOp s core o) core tok
    | .grout part group tag => collResp s part group tag xid st
    | .trowel => trowelResp s xid st
    | .level _ => s
    | .ckpt i => ckptResp s i xid st
    | .module => s

/-- Everything that may now be sent is sent. -/
def pumpEverything (s : State) : State := pumpCkptAll (pumpTrowelAll (pumpAll (pumpLevels s)))

/-- A request that was answered BUSY, or whose time has passed, is sent again; one to a node that has left the domain ends with
STALE_EPOCH (R255, R271). -/
def sendAgain (s : State) (xid tries : Nat) : State :=
  match tlook s.fab.pending xid with
  | none => s
  | some q => if (nodeOf s q.pkt.dstNode).member then resend s xid tries else answerRequest s xid .staleEpoch

/-! ## Port states (Table 10.2, R461) -/

/-- Coding of a port state (LP_STATUS.STATE). -/
def pstateCode : PState → Nat
  | .down => 0 | .training => 1 | .up => 2 | .failed => 3

/-- Moves a port to a state: every change is a STATE event, FAILED is a level event, and leaving UP is a timing exception. -/
def movePort (s : State) (p : Nat) (st : PState) : State :=
  if (portOf s p).state = st then s
  else
    let s := if (portOf s p).state = .up then countLinkExc s else s
    let s := modPort s p (fun v => { v with state := st })
    let s := pulseEvent s (pgPort p) 0 [(0, pstateCode st)]
    levelEvent s (pgPort p) 1 (st == .failed) []

/-- A port out of service holds no frames (R255 recovers them) and owes and has no credits. -/
def clearPort (s : State) (p : Nat) : State :=
  modPort s p (fun v => { v with retry := [], waiting := [], credits := [], deficit := [], turn := 0, buffer := [], owed := [] })
/-- A port leaves service. -/
def downPort (s : State) (p : Nat) : State := clearPort (movePort s p .down) p

/-- A port may train: cabled, enabled, not gated, its group powered. -/
def mayTrain (s : State) (p : Nat) : Bool :=
  (portOf s p).cable && (portOf s p).enable && bit s.pow.cgLath.toNat p && (domOf s (80 + p / 4)).state == .on

/-- Starts training of a port that is DOWN. -/
def trainPort (s : State) (p : Nat) : State :=
  if mayTrain s p && (portOf s p).state == .down then movePort s p .training else s

/-- A port in its reset state, which then trains (R415, Table 17.3). -/
def freshPort (s : State) (p : Nat) : State :=
  trainPort (setPort (setPage s (pgPort p) {}) p { cable := (portOf s p).cable }) p

/-- Requests of this module whose frames still stand in the retry buffer of a port end with a status. -/
def abortPort (s : State) (p : Nat) (st : Status) : State :=
  ((((portOf s p).retry ++ (portOf s p).waiting).filter (fun f => f.pkt.dir == 0)).map (fun f => f.pkt.xid)).foldl (fun s x => answerRequest s x st) s

end Sys2Proof.Machine
end

