-- ==== Sys2Proof/Machine/Serve.lean ====
section
/-! DEFINITION. Serving received Lath requests (R246 to R260): answers, the window checks, the operations at the target, order,
the packets that wait for an epoch, for their turn or for a link, and what a link or a domain lets go. -/

namespace Sys2Proof.Machine
open Sys2Proof

/-! ## Answers -/

/-- Answers a request that arrived at a port. A source that is no member has no port mask here, so its RESP leaves by the
port at which the request arrived (R253). -/
def answerVia (s : State) (port : Nat) (p : Packet) (st : Status) (data : Bytes) : Packet × State :=
  if (nodeOf s p.srcNode).member then respond s p st data
  else
    let key := (pairActive s p.keyIdx).getD p.keyIdx
    let r := respPacket s p key st data
    if !portUp s port || !maySend s key then (r, s)
    else match takeCtr s key 1 with
      | none => (r, s)
      | some (c, s) => (r, sendOn s port { r with ctr := c })

/-- Keeps the response of a request that is not idempotent (R255); BUSY asks for a retransmission and is not kept. -/
def keepRecord (s : State) (p : Packet) (r : Packet) (st : Status) : State :=
  if !needsRecord p || st == .busy then s
  else
    let l := s.fab.records ++ [⟨p.srcNode, p.xid, r, s.ns⟩]
    setLevel { s with fab := { s.fab with records := l } } 2 l.length

/-! ## The window checks (checks 7 to 9 of Table 10.7) -/

/-- The right that an operation needs in its window (Table 10.3). -/
def windowRight (w : Window) (p : Packet) : Bool :=
  match p.op with
  | 0x01 => w.w
  | 0x02 => w.w
  | 0x03 => w.r
  | 0x04 => w.r
  | _ => if p.asub < 2 then w.a else w.l
/-- Offset in the window and length of the bytes that a request names (Table 10.5, R249, R250). -/
def reqRange (p : Packet) : Nat × Nat :=
  match p.op with
  | 0x03 => (p.offset / 64 * 64, p.offset % 64 + 1)
  | 0x04 => (p.offset, le p.payload 0 8)
  | 0x05 => (p.offset, if p.asub < 2 then 8 else 16)
  | _ => (p.offset, p.payload.length)
/-- The request reads its bytes; the request writes them. -/
def reqReads (p : Packet) : Bool := p.op == 3 || p.op == 4 || p.op == 5
def reqWrites (p : Packet) : Bool := p.op == 1 || p.op == 2 || p.op == 5

/-- Check 7. A GET of more than 4,096 bytes names no range of Table 10.5. -/
def windowOk (s : State) (p : Packet) : Option Window :=
  match tlook s.fab.windows p.window with
  | none => none
  | some w =>
    let (o, n) := reqRange p
    if (p.keyIdx = w.lkey ∨ p.keyIdx = w.lkey + 1) ∧ windowRight w p = true ∧ o + n ≤ w.size ∧ n ≤ 4096 then some w else none

/-- Some line of a range lies in a sealed domain (check 8). -/
def rangeSealed (s : State) (ctx key va n : Nat) (acc : Acc) : Bool :=
  (linesOf va n).any (fun v => match translate s hubAgent ctx v key acc with | (.ok, a) => sealedAt s a | _ => false)

/-- Checks 8 and 9 of a range, before anything is accessed. -/
def windowAccess (s : State) (p : Packet) (w : Window) : Status :=
  let (o, n) := reqRange p
  let va := w.base + o
  let acc := if reqWrites p then Acc.write else Acc.read
  if rangeSealed s w.context w.mkey va n acc then .domainSealed
  else
    let a := if reqReads p then vcheck s w.context w.mkey va n .read else .ok
    if a ≠ .ok then a
    else if reqWrites p then
      let b := vcheck s w.context w.mkey va n .write
      if b ≠ .ok then b else if n = 0 then .ok else memKeyCheck s w.context w.mkey
    else .ok

/-! ## The operations at the target -/

/-- The write of a STORE or PUT, and its count on the window's arrival counter once it is visible (R260). -/
def runPut (s : State) (p : Packet) (w : Window) : Status × Bytes × State :=
  let (st, s) := vwrite s w.context w.mkey (w.base + p.offset) p.payload false
  if st ≠ .ok then (st, [], s)
  else
    let s := if p.arrive && w.arr then
        match tlook s.fab.arrivals w.counter with
        | some a => { s with fab := { s.fab with arrivals := tins s.fab.arrivals w.counter { a with value := a.value + 1 } } }
        | none => s
      else s
    let (units, s) := lendTo s p.srcNode
    (.ok, if units = 0 then [] else loanPayload s p.srcNode, s)

/-- The read of a LOAD or GET: a line that fails its tag is delivered as zeros with TAG_MISMATCH (R446). -/
def runGet (s : State) (p : Packet) (w : Window) : Status × Bytes × State :=
  let (o, n) := reqRange p
  let (st, b, s) := vread s w.context w.mkey (w.base + o) n
  (st, if st = .ok ∨ st = .tagMismatch then b else [], s)

/-- Reads a word, replaces it by what `f` makes of it, and answers the bytes that `f` returns. -/
def runWord (s : State) (p : Packet) (w : Window) (n : Nat) (f : Bytes → Option Bytes × Bytes) : Status × Bytes × State :=
  let va := w.base + p.offset
  if p.offset % n ≠ 0 then (.descInvalid, [], s)
  else
    let (st, old, s) := vread s w.context w.mkey va n
    if st ≠ .ok then (st, [], s)
    else
      let (new, ret) := f old
      match new with
      | none => (.ok, ret, s)
      | some b =>
        let (st, s) := vwrite s w.context w.mkey va b false
        if st = .ok then (.ok, ret, s) else (st, [], s)

/-- Fetch-add: unsigned, modulo 2^64; the old word is returned (R249). -/
def fetchAddWord (p : Packet) (old : Bytes) : Option Bytes × Bytes :=
  (some (leBytes 8 ((le old 0 8 + le p.payload 0 8) % 2 ^ 64)), old)
/-- Compare-swap: the payload holds the new word, then the word compared with (R249). -/
def compareSwapWord (p : Packet) (old : Bytes) : Option Bytes × Bytes :=
  (if le old 0 8 = le p.payload 8 8 then some (slice p.payload 0 8) else none, old)

/-- The 16 bytes of a lease word (Table 10.6). -/
def leaseBytes (expiry owner epoch : Nat) : Bytes := leBytes 8 expiry ++ leBytes 2 owner ++ leBytes 2 0 ++ leBytes 4 epoch
/-- Lease acquire (R251): at Plumb time `now`, with the source's ADMIT_EPOCH. -/
def leaseAcquireWord (now admitted : Nat) (p : Packet) (old : Bytes) : Option Bytes × Bytes :=
  let expiry := le old 0 8
  let dur := le p.payload 0 4
  if expiry = 0 ∨ expiry + 10000 ≤ now then
    let b := leaseBytes (now + dur) p.srcNode p.epoch
    (some b, b)
  else if le old 8 2 = p.srcNode ∧ admitted ≤ le old 12 4 then
    let b := leBytes 8 (now + dur) ++ slice old 8 8
    (some b, b)
  else (none, old)
/-- Lease release (R251). -/
def leaseReleaseWord (admitted : Nat) (p : Packet) (old : Bytes) : Option Bytes × Bytes :=
  if le old 8 2 = p.srcNode ∧ admitted ≤ le old 12 4 then
    let b := List.replicate 16 (0 : Byte)
    (some b, b)
  else (none, old)

/-- The operation of an ATOMIC packet. A payload or a duration that the operation has no use for is answered with
DESC_INVALID. -/
def runAtomic (s : State) (p : Packet) (w : Window) : Status × Bytes × State :=
  let admitted := (nodeOf s p.srcNode).admitEpoch
  match p.asub with
  | 0 => if p.len = 8 then runWord s p w 8 (fetchAddWord p) else (.descInvalid, [], s)
  | 1 => if p.len = 16 then runWord s p w 8 (compareSwapWord p) else (.descInvalid, [], s)
  | 2 =>
    if p.len = 8 ∧ 1000 ≤ le p.payload 0 4 ∧ le p.payload 0 4 ≤ 1000000000 then
      runWord s p w 16 (leaseAcquireWord s.fab.plumb.time admitted p)
    else (.descInvalid, [], s)
  | _ => if p.len = 8 then runWord s p w 16 (leaseReleaseWord admitted p) else (.descInvalid, [], s)

/-- Executes a request on the window table (checks 7 to 10), or as a Level record at window 4,095 (R409). -/
def runWindow (s : State) (p : Packet) : Status × Bytes × State :=
  if p.window = 4095 then
    if p.op = 1 ∧ p.len = 32 then
      let (st, s) := levelReceive s p
      (st, [], s)
    else (.windowDenied, [], s)
  else match windowOk s p with
    | none => (.windowDenied, [], s)
    | some w =>
      let st := windowAccess s p w
      if st ≠ .ok then (st, [], s)
      else match p.op with
        | 0x01 => runPut s p w
        | 0x02 => runPut s p w
        | 0x03 => runGet s p w
        | 0x04 => runGet s p w
        | _ => runAtomic s p w

/-- Executes a request that has passed checks 1 to 6: COLL packets bypass the window table (Table 10.5). -/
def runRequest (s : State) (p : Packet) : Status × Bytes × State :=
  if p.op = 8 then
    let (st, s) := runColl s p
    (st, [], s)
  else runWindow s p

/-! ## Order and holding -/

/-- Plans follow a change of an arrival counter: remote-signal edges may resolve (R136). -/
def settlePlans (s : State) : State := (s.plans.map (·.1)).foldl settleAll s

/-- Executes a request that is due, answers it and keeps its record; an ordered one that is answered BUSY keeps its turn. -/
def serveDue (s : State) (port : Nat) (p : Packet) : State :=
  if needsRecord p && decide (65536 ≤ s.fab.records.length) then (answerVia s port p .busy []).2
  else
    let (st, data, s) := runRequest s p
    let (r, s) := answerVia s port p st data
    let s := keepRecord s p r st
    let s := if st = .busy then s else passTurn s p
    if p.arrive && st == .ok then settlePlans s else s

/-- Serves held packets whose turn has come: at most `n` of them. -/
def serveHeld (s : State) : Nat → State
  | 0 => s
  | n + 1 =>
    match s.fab.heldFlow.find? (fun h => turnOf s h.rx.pkt != .early) with
    | none => s
    | some h =>
      let s := { s with fab := { s.fab with heldFlow := s.fab.heldFlow.filter (· != h) } }
      let s := if turnOf s h.rx.pkt = .past then (answerVia s h.rx.port h.rx.pkt .ok []).2 else serveDue s h.rx.port h.rx.pkt
      serveHeld s n

/-- A request after checks 1 to 6, in its order (R258): an early packet is held, one that is already visible is answered OK. -/
def serveOrdered (s : State) (rx : Rx) : State :=
  let p := rx.pkt
  match turnOf s p with
  | .due =>
    let s := serveDue s rx.port p
    let n := s.fab.heldFlow.length
    setLevel (serveHeld s n) 3 (heldFlows (serveHeld s n)).length
  | .past => (answerVia s rx.port p .ok []).2
  | .early =>
    if s.fab.heldFlow.any (fun h => h.rx.pkt.srcNode == p.srcNode && h.rx.pkt.xid == p.xid) then s
    else if !(heldFlows s).contains (p.srcNode, p.vc, p.keyIdx) && decide (4096 ≤ (heldFlows s).length)
    then (answerVia s rx.port p .busy []).2
    else
      let s := { s with fab := { s.fab with heldFlow := s.fab.heldFlow ++ [⟨rx, s.ns⟩] } }
      setLevel s 3 (heldFlows s).length

/-- A packet passes through the receive buffer of its virtual channel: its credits go back at once (R256, R441). -/
def passBuffer (s : State) (rx : Rx) : State := bufferOut (bufferIn s rx.port rx.pkt) rx.port rx.pkt
/-- A packet waits in its receive buffer, in a list; one that stands there already takes no more room. -/
def keepIn (s : State) (l : List HeldReq) (rx : Rx) : List HeldReq × State :=
  if l.any (fun h => h.rx.pkt.srcNode == rx.pkt.srcNode && h.rx.pkt.xid == rx.pkt.xid && h.rx.pkt.dir == rx.pkt.dir) then (l, passBuffer s rx)
  else (l ++ [⟨rx, s.ns⟩], bufferIn s rx.port rx.pkt)
/-- The service of a request needs a memory access (R229). -/
def needsMemory (p : Packet) : Bool := if p.op = 8 then decide (p.asub < 2) else p.window != 4095
/-- A request waits for a die-to-die link, or for a draining domain (R229, R418). -/
def holdLink (s : State) (rx : Rx) : State :=
  let (l, s) := keepIn s s.fab.heldLink rx
  { s with fab := { s.fab with heldLink := l } }
/-- A request waits for the update of the epoch that it carries (check 5). -/
def holdEpoch (s : State) (rx : Rx) : State :=
  let (l, s) := keepIn s s.fab.heldEpoch rx
  { s with fab := { s.fab with heldEpoch := l } }

/-- What the outcome of checks 4 to 6 leads to, but for a hold. -/
def actOn (s : State) (rx : Rx) (v : Verdict) : State :=
  let p := rx.pkt
  match v with
  | .drop => s
  | .reject st => (answerVia s rx.port p st []).2
  | .again r => (answerVia s rx.port p (statusOf r.flowSeq) r.payload).2
  | .hold => s
  | .pass => serveOrdered s rx

/-- A received request: checks 1 to 6, then its execution; every packet from the holder of a loan renews it (R443). A
request proper has DIR 0. What its effect lets go is sent. -/
def receiveRequest (s : State) (rx : Rx) : State :=
  match rxCheck s rx with
  | (.drop, s) => passBuffer s rx
  | (v, s) =>
    let s := renewLoan s rx.pkt.srcNode
    if v = .hold then holdEpoch s rx
    else if v = .pass ∧ needsMemory rx.pkt = true ∧ dieWaits s hubDie = true then holdLink s rx
    else pumpEverything (actOn (passBuffer s rx) rx v)

/-- Requests held for a newer epoch pass checks 5 and 6 again once one is applied; those still ahead stay held. They have passed
check 4, which an update applied since does not undo (R276). -/
def releaseEpoch (s : State) : State :=
  s.fab.heldEpoch.foldl (fun s h =>
    match rxHeld s h.rx.pkt with
    | .hold => s
    | v =>
      let s := bufferOut { s with fab := { s.fab with heldEpoch := s.fab.heldEpoch.filter (· != h) } } h.rx.port h.rx.pkt
      if v = .pass ∧ needsMemory h.rx.pkt = true ∧ dieWaits s hubDie = true then holdLink s h.rx else actOn s h.rx v) s

/-! ## Responses (R248, R254, R443) -/

/-- Applies a loan that a RESP carries: only a newer sequence number counts, and its hold time starts now. -/
def applyLoan (s : State) (node : Nat) (b : Bytes) : State :=
  let seq := le b 4 2
  let newer := match tlook s.fab.loansIn node with
    | none => true
    | some l => let d := (seq + 65536 - l.seq) % 65536; 0 < d && d < 32768
  if newer then
    let hold := le b 6 2
    { s with fab := { s.fab with loansIn := tins s.fab.loansIn node ⟨le b 0 4, seq, s.fab.plumb.time + hold * 10000, hold⟩ } }
  else s

/-- Lands the bytes of a read at the local side of a core's operation: bit writes, to a store or line by line. The first
failure of a line is the operation's, with the line's address. -/
def landBytes (s : State) (core tok : Nat) (dest : List Nat) (data : Bytes) : Status × Option Nat × State :=
  match opOfToken (coreOf s core) tok, (coreOf s core).task with
  | some o, some r =>
    match planOf s r.queue, taskOf s r with
    | some p, some t =>
      let ws := (dest.zip data).map (fun (x : Nat × Byte) => (⟨8 * x.1, 8, x.2.toNat⟩ : BitWrite))
      match placeOf t core o.dst o.dstT with
      | .device key =>
        let g := groupBits ws
        let (bad, s) := writeLineTab s hubAgent p.ctx key g
        let s := g.foldl (fun (s : State) (x : Nat × Nat × Nat) =>
          noteDetail (noteWrite s r (x.1 * 64) x.2.1 x.2.2) r core o.seq (digestOf (x.1 * 64) x.2.1 x.2.2)) s
        ((bad.map (·.2)).headD .ok, (bad.map (·.1)).head?, s)
      | pl => (.ok, none, writeLocal s pl ws)
    | _, _ => (.ok, none, s)
  | _, _ => (.ok, none, s)

/-- A packet of a core's operation fails: where it is the one that decides so far, the operation's faulting address is that of the line
where its data was to land, if that failed (R165, R248). -/
def noteLanding (s : State) (core tok off : Nat) (a : Option Nat) : State :=
  match opOfToken (coreOf s core) tok with
  | some o =>
    if o.failed.isNone || decide (off < o.failAt) then modCore s core (fun c => { c with faultVa := noteVa c.faultVa tok a }) else s
  | none => s

/-- A RESP after its first checks: delivered to the request pending under its XID toward its source (R248, R254). BUSY asks for a
retransmission (R255). -/
def deliver (s : State) (rx : Rx) : State :=
  let p := rx.pkt
  match tlook s.fab.pending p.xid with
  | none => modPort s rx.port (fun v => { v with dropResp := satAdd 32 v.dropResp 1 })
  | some q =>
    if q.pkt.dstNode ≠ p.srcNode then modPort s rx.port (fun v => { v with dropResp := satAdd 32 v.dropResp 1 })
    else
      let st : Status := statusOf p.flowSeq
      let s := renewLoan s p.srcNode
      if st = .busy then pumpEverything (sendAgain s p.xid q.tries)
      else
        let s := if (q.pkt.op = 1 ∨ q.pkt.op = 2) ∧ st = .ok ∧ p.len = 8 then applyLoan s p.srcNode p.payload else s
        let (st2, s) : Status × State := match q.by' with
          | .dma core tok =>
            if (st = .ok ∨ st = .tagMismatch) ∧ q.dest ≠ [] ∧ q.dest.length ≤ p.payload.length then
              let (st2, a, s) := landBytes s core tok q.dest (p.payload.drop (p.payload.length - q.dest.length))
              (st2, if st = .ok ∧ st2 = .ok then s else noteLanding s core tok q.pkt.offset (if st = .ok then a else none))
            else (.ok, if st = .ok then s else noteLanding s core tok q.pkt.offset none)
          | .ckpt i => (.ok, ckptLand s i q.pkt.offset p.payload)
          | _ => (Status.ok, s)
        pumpEverything (answerRequest s p.xid (if st = .ok then st2 else st))
/-- A RESP whose data lands in memory waits for a link. -/
def landingWaits (s : State) (p : Packet) : Bool :=
  dieWaits s hubDie && (match tlook s.fab.pending p.xid with | some q => q.pkt.dstNode == p.srcNode && !q.dest.isEmpty | none => false)

/-! ## What a link or a domain lets go (R229, R418) -/

/-- A packet that waited for a link is served; it has passed its checks. -/
def serveLate (s : State) (h : HeldReq) : State :=
  let s := bufferOut s h.rx.port h.rx.pkt
  if h.rx.pkt.op = 0x10 then deliver s h.rx else serveOrdered s h.rx
/-- Where nothing waits for a link any longer: held packets are served in their order, collectives go on, tasks that wait for their
image enter. -/
def releaseLink (s : State) : State :=
  if dieWaits s hubDie then s
  else
    let l := s.fab.heldLink
    let s := l.foldl serveLate { s with fab := { s.fab with heldLink := [] } }
    let s := s.fab.grouts.foldl (fun s g => groutGo s g.partition g.group g.tag) s
    pumpEverything (forAll allClusters s (fun n s => passReserved s n))

end Sys2Proof.Machine
end

