-- ==== Sys2Proof/Machine/MemCmds.lean ====
section
/-! DEFINITION. The commands at the memory controllers (chapters 08 and 09): line reads and writes, the end of a zero-fill,
patrol scrub, refresh, and the sanding pass. -/

namespace Sys2Proof.Machine
open Sys2Proof

/-! ## Module failure (R445) -/

/-- Both copies of a reserved line have failed: no more submissions are fetched and every running command is aborted. -/
def failModule (s : State) (a : Nat) : State :=
  if s.pow.failed then s
  else
    let s := logIt { s with pow := { s.pow with failed := true } } 1 (statusCode .tagMismatch) 0 0 a 0
    let busy := (s.queues.filter (fun q => q.2.running.isSome)).map (·.1)
    progress (busy.foldl (fun s q => stopQueue s q .aborted) s)

/-- One copy of a reserved line as decoded fails. -/
def copyFails (r : Decoded) : Bool := r == .manySymbols || r == .altered

/-- Counts the failure or correction that a copy of the reserved line at `a` shows at its stack (Table 19.9a). -/
def countCopy (s : State) (ctl a : Nat) (r : Decoded) : State :=
  match r with
  | .clean => s
  | .oneSymbol =>
    countMonitor (pulseEvent (modCtl s ctl (fun c => { c with corr := satAdd 32 c.corr 1 })) (pgCtl ctl) 0
      [(4, a % 2 ^ 32), (5, a / 2 ^ 32 % 65536)]) 0
  | .manySymbols => pulseEvent (modCtl s ctl (fun c => { c with uncorr := satAdd 32 c.uncorr 1 })) (pgCtl ctl) 3 []
  | .altered => pulseEvent (modCtl s ctl (fun c => { c with tagFail := satAdd 32 c.tagFail 1 })) (pgCtl ctl) 2 []

/-- A read of a reserved line: the copy in stack 0 first, the copy in stack 5 where it fails; a failing copy is rewritten
from the other (R445). -/
def readReserved (s : State) (a : Nat) (raw1 raw2 : RawRead) : Status × Bytes × State :=
  let (r1, r2) := (decodeRaw false raw1, decodeRaw false raw2)
  let s := countCopy s 0 (lineBase a) r1
  if !copyFails r1 then (.ok, lineBytes s (lineBase a), s)
  else
    let s := countCopy s 5 (lineBase a) r2
    if !copyFails r2 then (.ok, lineBytes s (lineBase a), s) else (.tagMismatch, zeroLine, failModule s a)

/-! ## Line accesses -/

/-- The request lies in one line of device memory. -/
def reqOk (r : MemReq) : Bool := isMem r.addr && decide (1 ≤ r.len) && decide (r.addr % 64 + r.len ≤ 64)
/-- Key index 0 serves the reserved region alone, and the reserved region is served under key index 0 alone (R155). -/
def reqKeyOk (r : MemReq) : Bool := isReserved r.addr == (r.key == 0)

/-- The read of a request (R192). -/
def runRead (s : State) (r : MemReq) (r1 r2 : RawRead) : State :=
  if !reqKeyOk r then setAnswer s .policyDenied (List.replicate r.len 0)
  else if isReserved r.addr then
    let (st, b, s) := readReserved s r.addr r1 r2
    setAnswer s st (slice b (r.addr % 64) r.len)
  else landRead s r r1 r2

/-- A write to the reserved region lands in both copies, sealed under key index 0; one that covers part of its line reads the
line first (R193). -/
def writeReserved (s : State) (r : MemReq) (data : Bytes) (r1 r2 : RawRead) : State :=
  let a := lineBase r.addr
  let (mask, v) := lineMask r.addr (data.take r.len) a
  let put := fun (s : State) (x : Nat) =>
    setAnswer (setDirty { s with mem := { s.mem with bytes := mwriteN s.mem.bytes a (leBytes 64 x)
                                                     lines := tins s.mem.lines a (sealedLine s 0 (assignedGen s 0 a) a (leBytes 64 x)) } }
      (granOf a)) .ok []
  if mask = fullMask then put s v
  else
    match readReserved s r.addr r1 r2 with
    | (.ok, old, s) => put s (overlay (leVal old) mask v)
    | (_, _, s) => setAnswer s .tagMismatch []

/-- The write of a request (R193, R208, R218, R222): the first one to a primed granule starts a zero-fill and waits. -/
def runWrite (s : State) (r : MemReq) (data : Bytes) (r1 r2 : RawRead) : State :=
  if !reqKeyOk r then setAnswer s .policyDenied []
  else if isReserved r.addr then writeReserved s r data r1 r2
  else if !isPrimed s r.addr then landWrite s r data false r1 r2
  else
    let st := memKeyCheck s r.ctx r.key
    if st ≠ .ok then setAnswer s st []
    else if (keyOf s r.key).cls = 1 then setAnswer s .policyDenied []
    else
      match reserveFill s r.key (lineBase r.addr) with
      | none => setAnswer s .keyExhausted []
      | some s => { s with mem := { s.mem with
          granules := tins s.mem.granules (granOf r.addr) ⟨r.key, 0, true, [⟨r, data, r1, r2⟩], 0, lineBase r.addr⟩ } }

/-- Runs a request: one without data is a read. -/
def runReq (s : State) (q : HeldMem) : State :=
  if q.data.isEmpty then runRead s q.req q.first q.second else runWrite s q.req q.data q.first q.second
/-- A request at its controller: it waits where a zero-fill of its granule runs (R208), else it runs. -/
def atController (s : State) (q : HeldMem) : State :=
  match tlook s.mem.granules (granOf q.req.addr) with
  | some g =>
    if g.filling && !isReserved q.req.addr then
      { s with mem := { s.mem with granules := tins s.mem.granules (granOf q.req.addr) { g with waiting := g.waiting ++ [q] } } }
    else runReq s q
  | none => runReq s q

/-- Requests held at the boundary router of a domain proceed (Table 17.6, Table 17.8 step 4). -/
def releaseHeld (s : State) (d : Nat) : State :=
  let v := domOf s d
  v.reqs.foldl atController (setDom s d { v with reqs := [] })

/-- The queue to which a line access of a context is charged: the lowest one of the context that runs a command, else 0. DESIGN
CHOICE (log entry 42): a line access names its context and no queue. -/
def senderQueue (s : State) (ctx : Nat) : Nat :=
  (((queuesOf s ctx).filter (fun q => (queueOf s q).running.isSome)).head?).getD 0
/-- A request completes with DOMAIN_SEALED and enters its sender's fault record (R419). -/
def sealRequest (s : State) (r : MemReq) : State :=
  setAnswer (if r.ctx < 4096 then recordSealed s r.ctx (senderQueue s r.ctx) 0xFFFF (some r.addr) else s) .domainSealed (List.replicate r.len 0)

/-- The clock of a memory controller is gated: it accepts no new work (R415). -/
def ctlGated (s : State) (ctl : Nat) : Bool := if ctl < 16 then !bit s.pow.cgHbm.toNat ctl else !bit s.pow.cgCap.toNat (ctl - 16)
/-- Where a request stands before its controller takes it: sealed, held at the boundary router, waiting for a zero-fill, or run. A
request to a gated controller is held until the gate opens (DESIGN CHOICE, log entry 26: R415 says that the block accepts no new
work, and not what becomes of it). -/
def admitRequest (s : State) (q : HeldMem) : State :=
  let d := ctlDomain (ctlNo q.req.addr)
  if sealedAt s q.req.addr then sealRequest s q.req
  else if s.pow.dustSheet || (domOf s d).state == .draining || ctlGated s (ctlNo q.req.addr) then
    setDom s d { domOf s d with reqs := (domOf s d).reqs ++ [q] }
  else atController s q

/-- LINE_READ: a memory controller reads a line for a request. -/
def execLineRead (req : MemReq) (first second : RawRead) (s : State) : Host.Outcome State Fault Refusal :=
  if reqOk req then .next (admitRequest s ⟨req, [], first, second⟩) else .next s

/-- LINE_WRITE: a memory controller writes bytes of a line for a request. -/
def execLineWrite (req : MemReq) (data : Bytes) (first second : RawRead) (s : State) : Host.Outcome State Fault Refusal :=
  if reqOk req && decide (data.length = req.len) then .next (admitRequest s ⟨req, data, first, second⟩)
  else .next s

/-- ZERO_FILL_COMPLETE: the granule is filled, its bit is cleared and what waits for it proceeds in arrival order (R208, R209). -/
def execZeroFillComplete (granule : Nat) (s : State) : Host.Outcome State Fault Refusal := .next (finishFill s granule)

/-! ## Patrol scrub and refresh (R195, R196) -/

/-- PATROL_SCRUB_READ: the scrub reads one line; one wrong symbol is corrected; it never poisons and skips primed granules and
granules in a zero-fill. Of a capacity line it decodes the metadata codeword alone. It is suspended in deterministic-timing mode (R406). -/
def execPatrolScrubRead (addr : Nat) (raw : RawRead) (s : State) : Host.Outcome State Fault Refusal :=
  if !isMem addr || dtActive s || s.pow.dustSheet || sealedAt s addr then .next s
  else
    let a := lineBase addr
    let ctl := ctlNo a
    let busy := match tlook s.mem.granules (granOf a) with | some g => g.filling | none => !isReserved a
    let s := if !busy && decodeMeta (isCap a) raw == .oneSymbol then correctLine s a else s
    let last := localLine a + 1 == ctlLines ctl
    .next (modCtl s ctl (fun c => { c with patrolAt := if last then 0 else localLine a + 1
                                           patrols := if last then satAdd 32 c.patrols 1 else c.patrols }))

/-- MEMORY_REFRESH: a bank is refreshed; every request that it delays is counted, and is a timing exception (R403). -/
def execMemoryRefresh (controller _bank delayed : Nat) (s : State) : Host.Outcome State Fault Refusal :=
  if (controller < 8 || (16 ≤ controller && controller < 24)) && !(ctlOf s controller).selfRefresh
      && (domOf s (ctlDomain controller)).state == .on then
    .next (countMemExc (modCtl s controller (fun c => { c with refreshes := satAdd 32 c.refreshes delayed })) delayed)
  else .next s

/-! ## The sanding pass (R223 to R226) -/

/-- SANDING_RETRY: a deferred start of a pass is tried again 1 ms after the last attempt. -/
def execSandingRetry (key : Nat) (s : State) : Host.Outcome State Fault Refusal :=
  let k := keyOf s key
  match k.deferred with
  | none => .next s
  | some since =>
    if s.ns < since + 1000000 then .next s
    else if k.state = .active ∧ memClass k then .next (startSanding s key) else .next (setKey s key { k with deferred := none })

/-- Controller-local lines of a granule at a controller: first line and number, where the granule has lines there. -/
def granSpan (ctl g : Nat) : Option (Nat × Nat) :=
  if g < 2 ^ 23 then
    if ctl = g / 2 ^ 21 * 2 + g / 2 ^ 11 % 2 then some (localLine (hbmCanon (g / 2 ^ 21) (g % 2 ^ 21 * 2 ^ 16)), 1024) else none
  else if 16 ≤ ctl then some ((g - 2 ^ 23) * 128, 128) else none

/-- The next line of a key context that the pass visits on a controller at or above a pointer (R224 step 3). -/
def nextSanded (s : State) (key ctl p : Nat) : Option Nat :=
  (s.mem.granules.filter (fun g => g.2.key == key && !g.2.filling)).foldl (fun (b : Option Nat) g =>
    match granSpan ctl g.1 with
    | some (lo, n) =>
      if lo + n ≤ p then b
      else match b with
        | none => some (max lo p)
        | some x => some (min x (max lo p))
    | none => b) none

/-- Controllers of the pass, in SWEEP order. -/
def passCtls : List Nat := (List.range 8) ++ (List.range 8).map (· + 16)

/-- The pass has gone past every line (R224 step 5). A write count that has reached SAND_AT meanwhile starts the next (R221). -/
def finishSanding (s : State) (key : Nat) : State :=
  let k := keyOf s key
  if passCtls.all (fun c => decide (ctlLines c ≤ tget 0 k.sweep (sweepNo c))) then
    let s := emptySlot s k.slotOld
    let s := setKey s key { k with state := .active, slotOld := 0, sweep := [], bad := 0 }
    let s := postEvent s (contextsOf s k.partition) 0x0004 true k.partition (key + k.gen % 2 ^ 32 * 2 ^ 32) k.bad
    if k.sandAt ≤ k.wCur then startSanding s key else s
  else s

/-- A request waits at a controller. -/
def waitsAt (s : State) (ctl : Nat) : Bool := s.mem.granules.any (fun g => g.2.waiting.any (fun q => ctlNo q.req.addr == ctl))
/-- Slots of the two of a pass's line that it takes ahead of a waiting request (R403): both where the model knows of one; whether
another waits the command does not tell, and the number is a free value. -/
def slotsAhead (s : State) (ctl : Nat) : Nat × State :=
  if waitsAt s ctl then (2, s) else ((drawFree s).1.toNat % 3, (drawFree s).2)
/-- SANDING_LINE_STEP: the pass re-encrypts its next line on a controller under the new generation, or finds no more there. Of its
two slots (R225) those taken ahead of a waiting request count as timing exceptions (R403). A line whose write would pass the budget is not taken (R222). -/
def execSandingLineStep (key controller : Nat) (first second : RawRead) (s : State) : Host.Outcome State Fault Refusal :=
  let k := keyOf s key
  let p := tget 0 k.sweep (sweepNo controller)
  if k.state ≠ .sanding ∨ !(passCtls.contains controller) ∨ ctlLines controller ≤ p ∨ s.pow.dustSheet
      ∨ (domOf s (ctlDomain controller)).state ≠ .on ∨ !budgetOk s key 1 0 then .next s
  else
    let moveTo := fun (s : State) (n : Nat) => setKey s key { keyOf s key with sweep := tins (keyOf s key).sweep (sweepNo controller) n }
    match nextSanded s key controller p with
    | none => .next (finishSanding (moveTo s (ctlLines controller)) key)
    | some n =>
      let a := lineAt controller n
      let (ahead, s) := slotsAhead s controller
      let s := match readLine (countMemExc (moveTo s n) ahead) 4096 key a (some 7) first second with
        | (.ok, plain, s) =>
          let s := { s with mem := { s.mem with lines := tins s.mem.lines a (sealedLine s key k.gen a plain) } }
          addWrites s key 1 0
        | (_, _, s) => setKey s key { keyOf s key with bad := (keyOf s key).bad + 1 }
      .next (finishSanding (moveTo s (n + 1)) key)

end Sys2Proof.Machine
end

