-- ==== Sys2Proof/Machine/Power.lean ====
section
/-! DEFINITION. Clocks, power domains and throttling (chapter 17): frequency ladders, clock gating, switching domains off and
on, POWER_SET, clock loss and the dust-sheet state, the safety loops, the brake, THROTTLE_OUT#. -/

namespace Sys2Proof.Machine
open Sys2Proof

/-- The clock of a cluster runs and its domain is ON. -/
def running (s : State) (n : Nat) : Bool := awake s n

/-! ## Performance loops (R427) -/

/-- DVFS_DECISION: a performance loop chooses N of a cluster within its bounds. -/
def execDvfsDecision (cluster n : Nat) (s : State) : Host.Outcome State Fault Refusal :=
  if enabled s cluster && !s.pow.dustSheet && (domOf s cluster).state == .on then .next (retarget s cluster (boundedN s cluster n))
  else .next s

/-! ## THROTTLE_OUT# (R430) -/

/-- Temperature of the hottest die sensor. -/
def hottest (s : State) : Nat := s.pow.temps.foldl (fun m (p : Nat × Nat) => max m p.2) 0
/-- A safety loop holds a cluster below its lower bound; cycle skipping halves its frequency. -/
def heldBelow (s : State) (n : Nat) : Bool :=
  let c := clusterOf s n
  running s n && decide ((if c.skip then c.n / 2 else c.n) < lowBound s n)
/-- A condition for THROTTLE_OUT# holds; the brake alone is none. -/
def throttleNow (s : State) : Bool :=
  s.pow.dustSheet || s.pow.brownOut || decide (105 ≤ hottest s)
    || (s.pow.overrides.any (· < 6) && allClusters.any (heldBelow s)) || s.pow.tripped
/-- Follows the conditions: assertion at once, the moment of the last clearing kept. -/
def updateThrottle (s : State) : State :=
  let p := s.pow
  if throttleNow s then
    { s with pow := { p with throttle := true, throttleAt := if p.throttle then p.throttleAt else s.ns, throttleClear := none } }
  else if p.throttle && p.throttleClear.isNone then { s with pow := { p with throttleClear := some s.ns } }
  else s

/-- THROTTLE_OUT_RELEASE: 100 µs after its last condition cleared and at least 1 ms after assertion. -/
def execThrottleOutRelease (s : State) : Host.Outcome State Fault Refusal :=
  match s.pow.throttleClear with
  | some c =>
    if s.pow.throttle && !throttleNow s && decide (c + 100000 ≤ s.ns) && decide (s.pow.throttleAt + 1000000 ≤ s.ns) then
      .next { s with pow := { s.pow with throttle := false, throttleClear := none } }
    else .next s
  | none => .next s

/-! ## Safety loops (R428, R429) -/

/-- A safety loop begins to override: SAFETY_OVR with its number, and monitor 8 for a current, voltage or temperature loop. -/
def beginOverride (s : State) (loop : Nat) : State :=
  if s.pow.overrides.contains loop then s
  else
    let s := { s with pow := { s.pow with overrides := loop :: s.pow.overrides } }
    let s := levelEvent s pgPower 0 true [(0, loop)]
    if loop < 6 then countMonitor s 8 else s
/-- A safety loop no longer overrides. -/
def endOverride (s : State) (loop : Nat) : State :=
  let l := s.pow.overrides.filter (· != loop)
  levelEvent { s with pow := { s.pow with overrides := l } } pgPower 0 (!l.isEmpty) [(0, l.headD 0)]

/-- The floor holds while loop 4 or 6 overrides: every cluster goes to N = 16. -/
def updateFloor (s : State) : State :=
  let on := s.pow.overrides.contains 4 || s.pow.overrides.contains 6
  restoreBounds (levelEvent { s with pow := { s.pow with floor := on } } pgPower 2 on [])

/-- Every cluster whose clock runs skips cycles exactly where loop 0 or 2 now says so. -/
def setSkip (s : State) : State :=
  forAll allClusters s (fun c s => if (clusterOf s c).clock then modCluster s c (fun k => { k with skip := skipNow s c }) else s)

/-- Lowers N of a running cluster by 1. On the ladder of R414, or while the step before is held for its 64 cycles (R413), the target
alone is lowered, and the clock gets there by its own steps. -/
def lowerN (s : State) (c : Nat) : State :=
  let k := clusterOf s c
  let v := clockOf s c
  if v.want != v.backup || v.ladder then setClock s c { v with target := max 16 (v.target - 1) }
  else if k.n ≤ 16 then s
  else
    let t := if v.moving then min v.target (k.n - 1) else k.n - 1
    if s.ns < v.heldAt + stepHold k.n then setClock s c { v with target := t, moving := true }
    else setCluster (setClock s c { v with target := t, moving := t != k.n - 1, heldAt := s.ns }) c { k with n := k.n - 1 }
/-- Loop 1 or 3 lowers N of every running cluster by 1, every 10 µs. -/
def lowerStep (s : State) (loop : Nat) : State :=
  if s.pow.overrides.contains loop && decide (s.ns < tget 0 s.pow.lowAt loop + 10000) then s
  else
    let s := beginOverride { s with pow := { s.pow with lowAt := tput 0 s.pow.lowAt loop s.ns } } loop
    updateThrottle (forAll allClusters s (fun c s => if running s c then lowerN s c else s))

/-- The module is powered and working. -/
def powered (s : State) : Bool := s.pow.state == .active && s.pow.resetDone

/-- FAST_CURRENT_OVERRIDE: loop 0 skips cycles on every cluster. -/
def execFastCurrentOverride (s : State) : Host.Outcome State Fault Refusal :=
  if powered s then .next (updateThrottle (setSkip (beginOverride s 0))) else .next s
/-- SUSTAINED_CURRENT_STEP: loop 1. -/
def execSustainedCurrentStep (s : State) : Host.Outcome State Fault Refusal :=
  if powered s then .next (lowerStep s 1) else .next s
/-- A die whose rail has drooped, as loop 2 keeps it. -/
def noteDroop (s : State) (die : Nat) : State :=
  { s with pow := { s.pow with droops := if s.pow.droops.contains die then s.pow.droops else die :: s.pow.droops } }
/-- VOLTAGE_DROOP: loop 2 skips cycles on the clusters of a die. -/
def execVoltageDroop (die : Nat) (s : State) : Host.Outcome State Fault Refusal :=
  if powered s && decide (die < 5) then .next (updateThrottle (setSkip (noteDroop (beginOverride s 2) die))) else .next s
/-- TEMPERATURE_THROTTLE_STEP: loop 3. -/
def execTemperatureThrottleStep (s : State) : Host.Outcome State Fault Refusal :=
  if powered s then .next (lowerStep s 3) else .next s
/-- TEMPERATURE_FLOOR: loop 4. -/
def execTemperatureFloor (s : State) : Host.Outcome State Fault Refusal :=
  if powered s then .next (updateThrottle (updateFloor (beginOverride s 4))) else .next s

/-- SAFETY_OVERRIDE_END: the measure of a loop is below its threshold again; loops 1 and 3 give way 1 ms later. The trip and
the brake end in their own ways. The command names no die: the end of loop 2 is that of every die's droop. -/
def execSafetyOverrideEnd (loop : Nat) (s : State) : Host.Outcome State Fault Refusal :=
  if !s.pow.overrides.contains loop || loop == 5 || loop == 6 then .next s
  else if (loop == 1 || loop == 3) && decide (s.ns < tget 0 s.pow.lowAt loop + 1000000) then .next s
  else
    let s := endOverride s loop
    let s := if loop = 2 then { s with pow := { s.pow with droops := [] } } else s
    .next (updateThrottle (updateFloor (if loop = 0 ∨ loop = 2 then setSkip s else s)))

/-! ## The brake (R429, R476) -/

/-- BRAKE_IN_TRIGGER: a trigger of the input filter; the first one asserts filtered BRAKE and the floor. -/
def execBrakeInTrigger (s : State) : Host.Outcome State Fault Refusal :=
  if s.pow.state == .off then .next s
  else if s.pow.brake then .next { s with pow := { s.pow with brakeTrig := s.ns } }
  else
    let s := { s with pow := { s.pow with brake := true, brakeTrig := s.ns, brakeAt := s.ns, brakePosts := 1 } }
    .next (updateThrottle (updateFloor (beginOverride (postEvent s [moduleRing] 0x0007 false 0 0 0) 6)))

/-- BRAKE_ASSERTED_REPEAT: posted again once every second. -/
def execBrakeAssertedRepeat (s : State) : Host.Outcome State Fault Refusal :=
  if s.pow.brake && decide (s.pow.brakeAt + s.pow.brakePosts * 1000000000 ≤ s.ns) then
    .next (postEvent { s with pow := { s.pow with brakePosts := s.pow.brakePosts + 1 } } [moduleRing] 0x0007 false 0 s.pow.brakePosts 0)
  else .next s

/-- BRAKE_RELEASE: 1 ms after the latest trigger. -/
def execBrakeRelease (s : State) : Host.Outcome State Fault Refusal :=
  if s.pow.brake && decide (s.pow.brakeTrig + 1000000 ≤ s.ns) then
    .next (updateThrottle (updateFloor (endOverride { s with pow := { s.pow with brake := false, brakePosts := 0 } } 6)))
  else .next s

/-! ## Idle clusters (R420) -/

/-- Starts the drain of a domain toward a low state. -/
def beginDrain (s : State) (d : Nat) (target : DState) : State :=
  setDom s d { domOf s d with state := .draining, target := target, since := s.ns }

/-- CLUSTER_CLOCK_STOP: 2 µs after it became idle, outside deterministic-timing mode (R406), a cluster's clock stops. -/
def execClusterClockStop (cluster : Nat) (s : State) : Host.Outcome State Fault Refusal :=
  let k := clusterOf s cluster
  match k.idleAt with
  | some t =>
    if k.clock && isIdle s cluster && decide (t + 2000 ≤ s.ns) && !(dtActive s && k.partition.isSome) then
      .next (setCluster s cluster { k with clock := false, stoppedAt := some s.ns })
    else .next s
  | none => .next s

/-- CLUSTER_OFF_DELAY: an idle cluster whose clock has been stopped for OFF_DELAY begins its switch-off. -/
def execClusterOffDelay (cluster : Nat) (s : State) : Host.Outcome State Fault Refusal :=
  let k := clusterOf s cluster
  let delay := match k.partition with | some p => (partOf s p).offDelay | none => 100
  match k.stoppedAt with
  | some t =>
    if !k.clock && isIdle s cluster && delay != 0 && decide (t + delay * 1000 ≤ s.ns) && (domOf s cluster).state == .on
        && !(dtActive s && k.partition.isSome) then .next (beginDrain s cluster .off)
    else .next s
  | none => .next s

/-! ## Domains (R416 to R418) -/

/-- Work that a draining domain has still accepted. -/
def domainBusy (s : State) (d : Nat) : Bool :=
  if d < 64 then !isIdle s d
  else if 80 ≤ d && d < 88 then (List.range 4).any (fun i =>
    ((portOf s (4 * (d - 80) + i)).retry ++ (portOf s (4 * (d - 80) + i)).waiting).any (fun f => f.pkt.dir == 0 && (tlook s.fab.pending f.pkt.xid).isSome))
  else if d = 92 then !s.fab.grouts.isEmpty
  else if 72 ≤ d && d < 80 then s.fab.trowel.isSome
  else false
/-- The bound of step 2 of Table 17.4. -/
def drainBound (d : Nat) : Nat :=
  if d < 64 || d = 92 then 2000000 else if d < 80 then 10000 else 100000

/-- Ends with ABORTED what a domain still has to do. -/
def abortDomain (s : State) (d : Nat) : State :=
  if d < 64 then (tasksOn s d).foldl (fun s t => if t.2.state = .running then beginStop s t.1 .aborted else squash s t.1 .blocked) s
  else if 80 ≤ d && d < 88 then (List.range 4).foldl (fun s i => abortPort s (4 * (d - 80) + i) .aborted) s
  else if d = 92 then s.fab.grouts.foldl (fun s g => groutFail s g .aborted) s
  else match s.fab.trowel with
    | some t => if 72 ≤ d && d < 80 then trowelAbort s t.task .aborted else s
    | none => s

/-- Stack or capacity controller of a memory domain. -/
def domainCtl (d : Nat) : Nat := if d < 72 then d - 64 else 16 + (d - 72)

/-- A cluster without power: nothing of it is kept but its place in a partition. -/
def darkCluster (s : State) (n : Nat) : State :=
  let k := clusterOf s n
  let s := (List.range 16).foldl (fun s l => setCore s (16 * n + l) {}) s
  let s := (List.range 17).foldl (fun s i => setPage s (pgCluster n + i) {}) s
  setCluster s n { partition := k.partition, n := k.n, removing := k.removing, idleAt := k.idleAt }

/-- Step 4 of Table 17.4: the domain is in its low state. -/
def switchOff (s : State) (d : Nat) (target : DState) : State :=
  let s := setDom s d { state := target, target := target, since := s.ns }
  if d < 64 then darkCluster s d
  else if d < 80 then
    if target = .retain then modCtl s (domainCtl d) (fun c => { c with selfRefresh := true })
    else
      let s := if d < 72 then primeWhere s (fun g => decide (g < 2 ^ 23) && g / 2 ^ 21 * 2 + g / 2 ^ 11 % 2 == d - 64) else s
      setCtl (setPage s (pgCtl (domainCtl d)) {}) (domainCtl d) {}
  else if 80 ≤ d && d < 88 then (List.range 4).foldl (fun s i =>
    let p := 4 * (d - 80) + i
    setPort (setPage (downPort s p) (pgPort p) {}) p { cable := (portOf s p).cable }) s
  else if d = 92 then
    let s := setPage s pgGrout {}
    { s with fab := { s.fab with credits := [] }, regs := { s.regs with grDone := 0, grAbortTx := 0, grAbortRx := 0, grLease := 0, grBusy := 0 } }
  else s

/-- A domain starts to wake. -/
def beginWake (s : State) (d : Nat) : State := setDom s d { domOf s d with state := .waking, target := .on, since := s.ns }

/-- Domains that STANDBY switches first, and those that follow (R422). -/
def standbyFirst : List Nat := (List.range 88) ++ [92]
def standbyLast : List Nat := [88, 89, 90, 91, 94, 95]
/-- The low state of a domain in STANDBY. -/
def standbyTarget (d : Nat) : DState := if d < 64 || (80 ≤ d && d < 88) || d = 92 then .off else .retain
/-- A domain rests in a low state. -/
def domainLow (s : State) (d : Nat) : Bool := (domOf s d).state == .off || (domOf s d).state == .retain

/-- The clocks that POWER_SET SUBOP 4 switches for a die: its other clocks, and its clusters where it is a compute die. -/
def sourceClocks (die : Nat) : List Nat := (64 + die) :: (if die < 4 then (List.range 16).map (fun i => 16 * die + i) else [])

/-- Moves the POWER_SET that a management queue runs on, if it can move (R421, R422). -/
def powerProgressOf (q : Nat) (s : State) : State :=
  match (queueOf s q).running with
  | none => s
  | some r =>
    if r.status.isSome || opcodeOf r.entry != 0x58 then s
    else
      let sub := bits (le r.entry 0x20 4) 2 0
      let w := le r.entry 0x34 4
      if sub = 0 then
        let d := bits (le r.entry 0x24 4) 6 0
        let want : DState := match bits (le r.entry 0x24 4) 9 8 with | 0 => .on | 1 => .retain | _ => .off
        if (domOf s d).state = want then finishCommand s q .ok 0 0 0 else s
      else if sub = 3 then
        if bit w 0 then
          if r.phase = 0 then
            if standbyFirst.all (domainLow s) then
              let s := standbyLast.foldl (fun s d => beginDrain s d .retain) s
              modQueue s q (fun v => { v with running := v.running.map (fun r => { r with phase := 1 }) })
            else s
          else if standbyLast.all (domainLow s) then
            finishCommand { s with pow := { s.pow with state := .standby } } q .ok 0 0 0
          else s
        else if s.pow.domains.all (fun d => d.2.state != .waking && d.2.state != .retain) then
          finishCommand { s with pow := { s.pow with state := .active } } q .ok 0 0 0
        else s
      else if sub = 4 then
        let die := bits w 3 1
        if (sourceClocks die).all (fun n => let k := clockOf s n; k.want == k.backup && !k.ladder) then
          finishCommand s q .ok 0 0 0
        else s
      else s
/-- The management commands that wait for a domain or a clock. -/
def powerProgress (s : State) : State := powerProgressOf mgmtQueue (powerProgressOf 0 s)

/-- DOMAIN_DRAIN_END: the work of a draining domain has ended or its bound has expired; it is sealed and switched to its low
state. A wake asked for in the meantime follows. Transitions pause in the dust-sheet state (Table 17.6). -/
def execDomainDrainEnd (domain : Nat) (s : State) : Host.Outcome State Fault Refusal :=
  let d := domOf s domain
  if d.state ≠ .draining ∨ s.pow.dustSheet = true then .next s
  else if domainBusy s domain && decide (s.ns < d.since + drainBound domain) then .next s
  else
    let s := if domainBusy s domain then abortDomain s domain else s
    let s := setDom s domain { domOf s domain with state := .sealed }
    let s := d.reqs.foldl (fun s q => sealRequest s q.req) s
    let s := switchOff s domain d.target
    .next (powerProgress (progress (releaseLink (refreshClusters s))))

/-- DOMAIN_WAKE_COMPLETE: the domain is ON, with the contents Table 17.3 gives it. -/
def execDomainWakeComplete (domain : Nat) (s : State) : Host.Outcome State Fault Refusal :=
  let d := domOf s domain
  if d.state ≠ .waking ∨ s.pow.dustSheet = true then .next s
  else
    let s := setDom s domain { d with state := .on, target := .on, since := s.ns }
    let s :=
      if domain < 64 then
        if enabled s domain then passReserved (refreshClusters (startClock s domain)) domain else s
      else if domain < 80 then releaseHeld (modCtl s (domainCtl domain) (fun c => { c with selfRefresh := false })) domain
      else if domain < 88 then (List.range 4).foldl (fun s i => trainPort s (4 * (domain - 80) + i)) s
      else s
    let s := if d.target ≠ .on then beginDrain s domain d.target else s
    .next (powerProgress (progress (pumpEverything s)))

/-! ## POWER_SET (R421, R422, Table 17.5) -/

/-- Domains whose low states include a target. -/
def lowState (d target : Nat) : Bool :=
  target = 0 || (if d < 64 then target = 2 else if d < 80 then true else if d < 88 then target = 2 else false)
/-- A memory domain has a granule outside the free pool: a partition's slice reaches it, or the reserved region does. -/
def memoryInUse (s : State) (d : Nat) : Bool :=
  if d < 72 then d = 64 || d = 69 || s.parts.any (fun p => p.2.live) else s.parts.any (fun p => p.2.live && p.2.capLen != 0)
/-- A cluster is held by a partition. -/
def clusterHeld (s : State) (n : Nat) : Bool := (clusterOf s n).partition.isSome
/-- The backup PLL of a die is locked: its own lock, and the crystal. -/
def backupReady (s : State) (die : Nat) : Bool := s.pow.crystalOk && tget true s.pow.backupOk die

/-- The checks of R421 in order, then the effect; `entry` is the queue's command. -/
def powerSet (s : State) (q : Nat) (entry : Bytes) : State :=
  let sub := bits (le entry 0x20 4) 2 0
  let d := bits (le entry 0x24 4) 6 0
  let tgt := bits (le entry 0x24 4) 9 8
  let w28 := le entry 0x28 4
  let (part, fmin, fmax, pin) := (bits w28 4 0, bits w28 14 8, bits w28 22 16, bit w28 24)
  let off := bits (le entry 0x2C 4) 19 0
  let cap := bits (le entry 0x30 4) 11 0
  let w34 := le entry 0x34 4
  let die := bits w34 3 1
  let src := bit w34 4
  let rsvd := decide (le entry 0x20 4 / 2 ^ 3 ≠ 0) || decide (le entry 0x24 4 / 2 ^ 10 ≠ 0) || bit (le entry 0x24 4) 7
    || decide (bits w28 7 5 ≠ 0) || bit w28 15 || bit w28 23 || decide (w28 / 2 ^ 25 ≠ 0) || decide (le entry 0x2C 4 / 2 ^ 20 ≠ 0)
    || decide (le entry 0x30 4 / 2 ^ 12 ≠ 0) || decide (w34 / 2 ^ 5 ≠ 0) || decide (sub > 4)
  let dom := domOf s d
  let settled := dom.state == .on || dom.state == .retain || dom.state == .off
  let fail := fun (st : Status) => finishCommand s q st 0 0 0
  if rsvd then fail .descInvalid
  else if sub = 0 && (decide (88 ≤ d) || tgt == 3 || !lowState d tgt) then fail .descInvalid
  else if sub = 1 && (decide (fmin < 16) || decide (66 < fmin) || decide (fmax < 16) || decide (66 < fmax) || decide (fmax < fmin)
      || !(partOf s part).live) then fail .descInvalid
  else if sub = 2 && (decide (cap < 1000) || decide (2800 < cap)) then fail .descInvalid
  else if sub = 4 && decide (4 < die) then fail .descInvalid
  else if sub = 0 && ((tgt == 2 && decide (64 ≤ d) && decide (d < 80) && memoryInUse s d) || (tgt != 0 && decide (d < 64) && clusterHeld s d)) then
    -- a refusal of R159 is entered in the log
    finishCommand (logIt s 2 (statusCode .policyDenied) 0 0 0x58 d) q .policyDenied 0 0 0
  else if sub = 0 && !settled && !(tgt == 0 && dom.state != .waking) then fail .busy
  else if sub = 3 && bit w34 0 && !s.plans.isEmpty then fail .busy
  else if sub = 4 && src && !backupReady s die then fail .notReady
  else
    let s := match sub with
      | 0 =>
        match tgt, dom.state with
        | 0, .draining => releaseLink (releaseHeld (setDom s d { dom with state := .on, target := .on }) d)
        | 0, .sealed => setDom s d { dom with target := .on }
        | 0, .on => s
        | 0, _ => beginWake s d
        | t, .on => beginDrain s d (if t = 1 then .retain else .off)
        | t, .retain => if t = 1 then s else switchOff s d .off
        | t, .off => if t = 2 then s else switchOff s d .retain
        | _, _ => s
      | 1 => modPart s part (fun p => { p with fmin := fmin, fmax := fmax, pin := pin, offDelay := off })
      | 2 => { s with pow := { s.pow with pcap := cap } }
      | 3 =>
        if bit w34 0 then standbyFirst.foldl (fun s d =>
          if (domOf s d).state = .on then beginDrain s d (standbyTarget d)
          else if (domOf s d).state = .waking then setDom s d { domOf s d with target := standbyTarget d } else s) s
        else ((List.range 96).filter (fun d => (domOf s d).state == .retain)).foldl beginWake s
      | _ =>
        let s := setClock s (64 + die) { clockOf s (64 + die) with want := src, moving := true }
        ((sourceClocks die).drop 1).foldl (fun s c =>
          let k := clockOf s c
          if (clusterOf s c).clock then
            setClock s c { k with want := src, moving := true, target := if k.moving then k.target else (clusterOf s c).n }
          else setClock s c { k with want := src, backup := src }) s
    if sub = 1 || sub = 2 then finishCommand s q .ok 0 0 0 else powerProgress s

/-- CLOCK_LADDER_STEP: a moving clock has held its step for 64 cycles and takes the next one; at /16 it changes its source. DESIGN
CHOICE (log entry 26): the other clocks of a die (64 + d), whose frequencies the spec does not state, are one clock that stands at
VCO/4 and goes down and up the same ladder. -/
def execClockLadderStep (clock : Nat) (s : State) : Host.Outcome State Fault Refusal :=
  let k := clockOf s clock
  if s.pow.dustSheet || !k.moving then .next s
  else if 64 ≤ clock then
    if s.ns < k.heldAt + stepHold k.step then .next s
    else
      let (k, n) := clockMove k k.step
      .next (powerProgress (setClock s clock { k with step := n, heldAt := s.ns }))
  else
    let c := clusterOf s clock
    if !c.clock then
      .next (powerProgress (setCluster (setClock s clock { k with backup := k.want, ladder := false, moving := false }) clock { c with n := k.target }))
    else if s.ns < k.heldAt + stepHold c.n then .next s
    else
      let (k, n) := clockMove k c.n
      .next (updateThrottle (powerProgress (setCluster (setClock s clock { k with heldAt := s.ns }) clock { c with n := n })))

/-! ## Clock gating (R415, Table 17.2) -/

/-- Blocks of the CLKGATE page: 0 to 63 clusters, 64 to 95 Lath ports, 96 to 103 HBM controllers, 104 to 111 capacity
controllers, 112 to 119 Trowel units, 120 Grout, 121 trace, 122 performance counters. The enable bit of a block. -/
def gateBit (s : State) (b : Nat) : Bool :=
  let p := s.pow
  if b < 64 then bit p.cgCluster.toNat b && enabled s b
  else if b < 96 then bit p.cgLath.toNat (b - 64)
  else if b < 104 then bit p.cgHbm.toNat (b - 96)
  else if b < 112 then bit p.cgCap.toNat (b - 104)
  else if b < 120 then bit p.cgTrowel.toNat (b - 112)
  else bit p.cgHub.toNat (b - 120)
/-- A bit of a number set or cleared. -/
def withBit (v i : Nat) (on : Bool) : Nat := if on then v ||| 2 ^ i else (v ||| 2 ^ i) ^^^ 2 ^ i
/-- Writes the enable bit of a block. -/
def setGate (s : State) (b : Nat) (on : Bool) : State :=
  let p := s.pow
  let p :=
    if b < 64 then { p with cgCluster := BitVec.ofNat 64 (withBit p.cgCluster.toNat b on) }
    else if b < 96 then { p with cgLath := BitVec.ofNat 32 (withBit p.cgLath.toNat (b - 64) on) }
    else if b < 104 then { p with cgHbm := BitVec.ofNat 8 (withBit p.cgHbm.toNat (b - 96) on) }
    else if b < 112 then { p with cgCap := BitVec.ofNat 8 (withBit p.cgCap.toNat (b - 104) on) }
    else if b < 120 then { p with cgTrowel := BitVec.ofNat 8 (withBit p.cgTrowel.toNat (b - 112) on) }
    else { p with cgHub := BitVec.ofNat 3 (withBit p.cgHub.toNat (b - 120) on) }
  { s with pow := p }

/-- A write to the bit of a block is ignored: a disabled cluster; a 0 for a cluster held by a partition or a memory
controller with a granule outside the free pool. -/
def gateIgnored (s : State) (b : Nat) (on : Bool) : Bool :=
  if b < 64 then !enabled s b || (!on && clusterHeld s b)
  else if b < 96 then false
  else if b < 112 then !on && memoryInUse s (b - 96 + 64)
  else false

/-- Brings a block back in its reset state. -/
def resetBlock (s : State) (b : Nat) : State :=
  if b < 64 then
    let k := clusterOf s b
    let s := modCluster (darkCluster s b) b (fun v => { v with stoppedAt := k.stoppedAt, idleAt := some s.ns })
    if (domOf s b).state = .on ∧ k.stoppedAt.isNone then startClock s b else s
  else if b < 96 then freshPort s (b - 64)
  else if b < 112 then
    let ctl := if b < 104 then b - 96 else b - 104 + 16
    setCtl (setPage s (pgCtl ctl) {}) ctl {}
  else if b < 120 then
    if s.pow.cgTrowel = 0xFF#8 then
      let s := setPage s pgTrowel {}
      { s with regs := { s.regs with twDone := 0, twSkipped := 0, twDirty := 0 } }
    else s
  else if b = 120 then
    let s := setPage s pgGrout {}
    { s with regs := { s.regs with grDone := 0, grAbortTx := 0, grAbortRx := 0, grLease := 0, grBusy := 0 } }
  else s

/-- Applies a written bit to a block; a memory controller that opens takes what it has kept waiting. -/
def writeGate (s : State) (b : Nat) (on : Bool) : State :=
  if gateIgnored s b on || gateBit s b == on then s
  else if on then
    let s := resetBlock (setGate { s with pow := { s.pow with cgPend := s.pow.cgPend.filter (· != b) } } b true) b
    if 96 ≤ b ∧ b < 112 then releaseHeld s (b - 32) else s
  else
    let s := setGate s b false
    if b < 121 then { s with pow := { s.pow with cgPend := s.pow.cgPend ++ [b] } } else s

/-- The blocks whose bits a CLKGATE register holds, from its bit 0 on. -/
def gateBlocks (offset : Nat) : List Nat :=
  match offset with
  | 0x040 => List.range 32
  | 0x044 => (List.range 32).map (· + 32)
  | 0x048 => (List.range 32).map (· + 64)
  | 0x04C => (List.range 24).map (· + 96)
  | 0x050 => (List.range 3).map (· + 120)
  | _ => []

/-- The host reaches the pages that no block's gate covers: out of reset, in ACTIVE or STANDBY (R422, R450). -/
def hostServed (s : State) : Bool := s.pow.resetDone && (s.pow.state == .active || s.pow.state == .standby)

/-- A write of a register of the CLKGATE page; in LOCAL mode BAR0 writes are dropped (R456). -/
def clkgateWrite (s : State) (offset value : Nat) : State :=
  if s.sp.authority = 0 then s
  else
    let bs := gateBlocks offset
    ((List.range bs.length).zip bs).foldl (fun s (x : Nat × Nat) => writeGate s x.2 (bit value x.1)) s

/-- CLKGATE_WRITE: the host writes a register of the CLKGATE page. -/
def execClkgateWrite (offset : Nat) (value : Word) (s : State) : Host.Outcome State Fault Refusal :=
  if hostServed s then .next (clkgateWrite s offset value.toNat) else .next s

/-- CLKGATE_TAKE_EFFECT: what a cleared block still had in flight is aborted and its gate takes effect. -/
def execClkgateTakeEffect (block : Nat) (s : State) : Host.Outcome State Fault Refusal :=
  if !s.pow.cgPend.contains block then .next s
  else
    let s :=
      if 64 ≤ block && block < 96 then downPort (abortPort s (block - 64) .aborted) (block - 64)
      else if 112 ≤ block && block < 120 then
        match s.fab.trowel with | some t => trowelAbort s t.task .aborted | none => s
      else if block = 120 then s.fab.grouts.foldl (fun s g => groutFail s g .aborted) s
      else if block < 64 then modCluster s block (fun k => { k with clock := false })
      else s
    .next (progress { s with pow := { s.pow with cgPend := s.pow.cgPend.filter (· != block) } })

/-! ## Clock loss and the dust-sheet state (R424 to R426) -/

/-- CLOCK_LOST to every context's ring and the module ring, and to the log. -/
def postClockLost (s : State) (src : Nat) : State := postEvent s (allContexts s ++ [moduleRing]) 0x0006 true 0 src 0

/-- The other clocks of a die whose main source has failed: VCO/16 at once, of the backup PLL where it is locked. -/
def failOverDie (s : State) (die : Nat) : State :=
  let k := clockOf s (64 + die)
  if k.backup then s else setClock s (64 + die) { k with backup := backupReady s die, want := false, ladder := true, moving := true, target := 60, heldAt := s.ns, step := 15 }
/-- A cluster whose main source has failed: VCO/16 of the backup PLL at once, or no clock where no backup is locked. -/
def failOver (s : State) (n : Nat) : State :=
  let c := clusterOf s n
  let k := clockOf s n
  if !c.clock || k.backup then s
  else
    let target := if k.moving then k.target else c.n
    if backupReady s (dieOf n) then
      setCluster (setClock s n { k with backup := true, want := false, ladder := true, moving := true, target := target, heldAt := s.ns }) n { c with n := 15 }
    else setCluster (setClock s n { k with backup := false, want := false, ladder := true, moving := true, target := target, heldAt := s.ns }) n { c with n := 15, clock := false }

/-- Entry into the dust-sheet state (Table 17.7). -/
def enterDust (s : State) (src : Nat) : State :=
  let s := { s with pow := { s.pow with dustSheet := true, dustAt := s.ns, dustSrc := src } }
  let s := forAll allClusters s (fun n s => failOver s n)
  let s := forAll (List.range 5) s (fun d s => failOverDie s d)
  let s := updateThrottle s
  let s := forAll (List.range 32) s (fun p s => if (portOf s p).state = .up then movePort s p .training else s)
  let s := forAll passCtls s (fun c s => modCtl s c (fun v => { v with selfRefresh := true }))
  postClockLost (levelEvent s pgPower 1 true [(1, src)]) src

/-- The module is up, in ACTIVE or STANDBY, so that losing a main source means the dust-sheet state (R424). -/
def sheetable (s : State) : Bool := (s.pow.state == .active || s.pow.state == .standby) && s.pow.resetDone && !s.pow.dustSheet
/-- CLOCK_LOSS: a monitor declares a source lost. Before RESET_DONE, power-up waits for the source (Table 20.12). -/
def execClockLoss (source : ClockSource) (s : State) : Host.Outcome State Fault Refusal :=
  if s.pow.state == .off then .next s
  else match source with
  | .crystal =>
    if !s.pow.crystalOk then .next s
    else
      let s := levelEvent { s with pow := { s.pow with crystalOk := false } } pgPower 3 true []
      let s := if s.pow.dustSheet then
          forAll allClusters s (fun n s => if (clockOf s n).backup && (clusterOf s n).clock then modCluster s n (fun k => { k with clock := false }) else s)
        else s
      .next (postClockLost s 1)
  | .backupPll d => .next (if d < 5 then { s with pow := { s.pow with backupOk := tput true s.pow.backupOk d false } } else s)
  | .refclk =>
    let s := { s with pow := { s.pow with refclkOk := false } }
    .next (if sheetable s then enterDust s 0 else s)
  | .mainPll d =>
    if 5 ≤ d then .next s
    else
      let s := { s with pow := { s.pow with mainOk := tput true s.pow.mainOk d false } }
      .next (if sheetable s then enterDust s (2 + d) else s)

/-- CRYSTAL_RETURN: the island leaves its internal oscillator and the backup PLLs are available again. -/
def execCrystalReturn (s : State) : Host.Outcome State Fault Refusal :=
  .next (levelEvent { s with pow := { s.pow with crystalOk := true, backupOk := [] } } pgPower 3 false [])

/-- Timers that the dust-sheet state paused since `at'` go on where they stood, and one that started meanwhile starts now (R426); so do
the drains and wakes that it paused (Table 17.6). -/
def shiftTimers (s : State) (at' : Nat) : State :=
  let go := fun (t : Nat) => if t ≤ at' then t + (s.ns - at') else s.ns
  { s with
    plans := s.plans.map (fun (p : Nat × Plan) => (p.1, { p.2 with tasks := p.2.tasks.map (fun t =>
      { t with runSince := go t.runSince, resolved := t.resolved.map go }) }))
    fab := { s.fab with pending := s.fab.pending.map (fun (q : Nat × Pending) => (q.1, { q.2 with sentAt := go q.2.sentAt })) }
    pow := { s.pow with domains := s.pow.domains.map (fun (d : Nat × Domain) =>
      (d.1, if d.2.state = .draining ∨ d.2.state = .waking then { d.2 with since := go d.2.since } else d.2)) } }

/-- Every Lath operation that was pending at entry, of a core, of Trowel or of a checkpoint, ends with CLOCK_INTERRUPTED. -/
def interruptLath (s : State) : State :=
  let ops := s.cores.flatMap (fun c => (c.2.dma.filter (fun o => decide (3 ≤ o.op) && decide (o.issuedNs ≤ s.pow.dustAt))).map (fun o => (c.1, o.token)))
  let s := ops.foldl (fun s x => endLath s x.1 x.2 .clockInterrupted) s
  let s := match s.fab.trowel with
    | some t => t.xids.foldl (fun s x => answerRequest s x .clockInterrupted) s
    | none => s
  let images := (s.fab.pending.filter (fun q => match q.2.by' with | .ckpt _ => true | _ => false)).map (·.1)
  let s := images.foldl (fun s x => answerRequest s x .clockInterrupted) s
  let rest := (s.fab.pending.filter (fun q => q.2.by' == .module || (match q.2.by' with | .level _ => true | _ => false))).map (·.1)
  rest.foldl dropPending s

/-- CLOCK_RECOVERY: the lost source has been within 300 ppm for 1 ms: the recovery of Table 17.8 runs. -/
def clockRecover (s : State) : State :=
  let old := s.pow.dustAt
  let s := { s with pow := { s.pow with refclkOk := true, mainOk := [], dustSheet := false } }
  let s := forAll passCtls s (fun c s => if (domOf s (ctlDomain c)).state = .on then modCtl s c (fun v => { v with selfRefresh := false }) else s)
  let s := forAll ((List.range 16).map (· + 64)) s (fun d s => if (domOf s d).state = .on then releaseHeld s d else s)
  let s := forAll allClusters s (fun n s =>
    let c := clusterOf s n
    if (clockOf s n).ladder then
      let s := setClock s n { clockOf s n with heldAt := s.ns }
      if (domOf s n).state = .on ∧ c.stoppedAt.isNone ∧ !gatedCluster s n then setCluster s n { c with clock := true } else s
    else s)
  let s := forAll (List.range 5) s (fun d s => setClock s (64 + d) { clockOf s (64 + d) with heldAt := s.ns })
  let s := forAll (List.range 32) s (fun p s => if (portOf s p).state = .training && mayTrain s p then movePort s p .up else s)
  let s := shiftTimers s old
  let s := interruptLath { s with pow := { s.pow with dustAt := old } }
  let s := s.fab.grouts.foldl (fun s g => groutFail s g .clockInterrupted) s
  let s := levelEvent (countMonitor s 9) pgPower 1 false []
  -- dispatch resumes
  let s := forAll allClusters (updateThrottle s) (fun n s => passReserved s n)
  progress (pumpEverything s)

end Sys2Proof.Machine
end

