-- ==== Sys2Proof/Machine/Links.lean ====
section
/-! DEFINITION. The die-to-die links (R229): key phases, frames, replay, retrains, and their first start. -/

namespace Sys2Proof.Machine
open Sys2Proof

/-- Key slot of a phase of a link direction: 0xD8 to 0xF7 (R357). -/
def linkSlot (link dir phase : Nat) : Nat := 0xD8 + link * 4 + dir * 2 + phase
/-- A direction of a link. -/
def linkDir (s : State) (link dir : Nat) : D2dDir := tget {} (d2dOf s link).dirs dir
/-- Changes a direction of a link. -/
def setLinkDir (s : State) (link dir : Nat) (v : D2dDir) : State :=
  setD2d s link { d2dOf s link with dirs := tput {} (d2dOf s link).dirs dir v }
/-- Installs a fresh key in a phase of a direction: its counter restarts. -/
def keyPhase (s : State) (link dir phase : Nat) : State :=
  let (r, s) := draw s
  let s := loadSlot s (linkSlot link dir phase) 6 (r.truncate 256) 0 0 0 0 (2 ^ 48 - 1)
  let v := linkDir s link dir
  setLinkDir s link dir { v with keys := v.keys ||| 2 ^ phase, fresh := v.fresh ||| 2 ^ phase, ctr := tdel v.ctr phase }

/-- A retrain of a link begins: counted, monitor 5, a timing exception. -/
def retrainLink (s : State) (link : Nat) : State :=
  let v := d2dOf s link
  let s := setD2d s link { v with state := .training, retrains := satAdd 32 v.retrains 1,
                                  dirs := v.dirs.map (fun (d : Nat × D2dDir) => (d.1, { d.2 with fails := 0 })) }
  let s := if link < 4 then { s with regs := { s.regs with hubRetrain := satAdd 32 s.regs.hubRetrain 1 } } else s
  countMonitor { s with pow := { s.pow with linkExc := satAdd 16 s.pow.linkExc 1 } } 5

/-- A frame crosses (R12, R13, R229): its 8-byte header in clear and authenticated, its payload encrypted under the key of the phase,
its tag. What the header says is not stated: a free value. -/
def putFrame (s : State) (link dir phase ctr : Nat) (payload : Bytes) : State :=
  let (f, s) := drawFree s
  let h := leBytes 8 f.toNat
  let (c, t) := gcm (slotKey (slotOf s (linkSlot link dir phase))) (d2dIv link dir phase ctr) h payload
  let v := linkDir s link dir
  setLinkDir s link dir { v with phase := phase, ctr := tins v.ctr phase (ctr + 1), fresh := if bit v.fresh phase then v.fresh - 2 ^ phase else v.fresh,
                                 last := payload, wire := h ++ c ++ t }

/-- Sends a frame under the active phase; at 2^36 frames the sender switches to a fresh idle phase, or holds its frames. -/
def sendFrame (s : State) (link dir : Nat) (payload : Bytes) : State :=
  let v := linkDir s link dir
  let c := tget 0 v.ctr v.phase
  let idle := 1 - v.phase
  if v.heldAt.isSome then setLinkDir s link dir { v with held := v.held ++ [payload] }
  else if !bit v.keys v.phase then s
  else if c < 2 ^ 36 then putFrame s link dir v.phase c payload
  else if bit v.fresh idle then putFrame s link dir idle 0 payload
  else setLinkDir s link dir { v with heldAt := some s.ns, held := v.held ++ [payload] }
/-- The frames that waited go, in their order. -/
def sendHeld (s : State) (link dir : Nat) : State :=
  (linkDir s link dir).held.foldl (fun s b => sendFrame s link dir b) (setLinkDir s link dir { linkDir s link dir with heldAt := none, held := [] })
/-- A link is down: what waited for it, served now, gets LINK_DOWN. -/
def dropLink (s : State) (link : Nat) : State :=
  let v := d2dOf s link
  setD2d s link { v with state := .down, trains := 0, dirs := v.dirs.map (fun (d : Nat × D2dDir) => (d.1, { d.2 with held := [] })) }

/-- D2D_FRAME_SEND: a frame of up to 256 bytes of payload leaves on a link, or waits for the end of its training. -/
def execD2dFrameSend (link dir : Nat) (payload : Bytes) (s : State) : Host.Outcome State Fault Refusal :=
  if 8 ≤ link || 2 ≤ dir || 256 < payload.length then .next s
  else match (d2dOf s link).state with
    | .up => .next (sendFrame s link dir payload)
    | .training => .next (setLinkDir s link dir { linkDir s link dir with held := (linkDir s link dir).held ++ [payload] })
    | _ => .next s

/-- D2D_FRAME_RECEIVE: a frame that fails its tag is discarded and resent under a new counter; eight in a row retrain the link. -/
def execD2dFrameReceive (link dir : Nat) (tagOk : Bool) (s : State) : Host.Outcome State Fault Refusal :=
  if 8 ≤ link || 2 ≤ dir || (d2dOf s link).state != .up then .next s
  else
    let v := linkDir s link dir
    if tagOk then .next (setLinkDir s link dir { v with fails := 0 })
    else
      let s := setLinkDir s link dir { v with fails := v.fails + 1 }
      let s := setD2d s link { d2dOf s link with replays := satAdd 32 (d2dOf s link).replays 1 }
      let s := if link < 4 then { s with regs := { s.regs with hubReplay := satAdd 32 s.regs.hubReplay 1 } } else s
      let s := sendFrame { s with pow := { s.pow with linkExc := satAdd 16 s.pow.linkExc 1 } } link dir v.last
      .next (if 8 ≤ v.fails + 1 then retrainLink s link else s)

/-- LINK_KEY_INSTALL: a fresh key in a phase that has none, or in the idle phase once the active counter has passed 2^35. Held
frames go on under it; a link that was down for want of a key retrains. -/
def execLinkKeyInstall (link dir : Nat) (s : State) : Host.Outcome State Fault Refusal :=
  if 8 ≤ link || 2 ≤ dir || !drbgOk s then .next s
  else
    let v := linkDir s link dir
    let idle := 1 - v.phase
    if !bit v.keys v.phase then .next (keyPhase s link dir v.phase)
    else if !bit v.keys idle || (decide (2 ^ 35 < tget 0 v.ctr v.phase) && !bit v.fresh idle) then
      let s := keyPhase s link dir idle
      match v.heldAt with
      | none => .next s
      | some _ =>
        .next (releaseLink (if (d2dOf s link).state = .up then sendHeld s link dir
          else
            let s := setLinkDir s link dir { linkDir s link dir with heldAt := none }
            if (d2dOf s link).state = .down then retrainLink s link else s))
    else .next s

/-- LINK_KEY_TIMEOUT: no key within 10 ms of the hold: the link is down. -/
def execLinkKeyTimeout (link dir : Nat) (s : State) : Host.Outcome State Fault Refusal :=
  match (linkDir s link dir).heldAt with
  | some t => if t + 10000000 ≤ s.ns then .next (releaseLink (dropLink s link)) else .next s
  | none => .next s

/-- D2D_LINK_TRAINING_COMPLETE: training ends, and what waited goes; the third failure in a row leaves the link down. -/
def execD2dLinkTrainingComplete (link : Nat) (ok : Bool) (s : State) : Host.Outcome State Fault Refusal :=
  let v := d2dOf s link
  if v.state ≠ .training then .next s
  else if ok then .next (releaseLink ([0, 1].foldl (fun s d => if (linkDir s link d).heldAt.isSome then s else sendHeld s link d)
    (setD2d s link { v with state := .up, trains := 0 })))
  else if 2 ≤ v.trains then .next (releaseLink (dropLink s link))
  else .next (setD2d s link { v with trains := v.trains + 1 })

/-- Every link is keyed in both phases of both directions, trained and up (step 6 of Table 20.5). -/
def startLinks (s : State) : State :=
  (List.range 8).foldl (fun s l =>
    let s := [0, 1].foldl (fun s d => keyPhase (keyPhase s l d 0) l d 1) s
    setD2d s l { d2dOf s l with state := .up }) s

end Sys2Proof.Machine
end

