-- ==== Sys2Proof/Machine/Reset.lean ====
section
/-! DEFINITION. Power-up, module reset, loss of power, and the other events on the module's connectors (chapter 20). -/

namespace Sys2Proof.Machine
open Sys2Proof

/-! ## Module reset (R180, R450, R471, R472) -/

/-- The security processor after a module reset: the island, its OTP and any programming of it (R388), DRBG, log, firmware and
secured sessions stay; key slots, key contexts, sessions, nonce and debug session end, and local identifiers count from 1
again. -/
def resetSp (p : Sp) : Sp :=
  { p with
    stopped := false
    startFails := 0
    nonce := none
    debugOpen := none
    hubHalt := false
    debugged := false
    testAccess := false
    fwWait := false
    slots := p.slots.filterMap (fun (x : Nat × Slot) => if x.2.sgen = 0 then none else some (x.1, { sgen := x.2.sgen }))
    keyCtxs := []
    sessions := []
    nextSession := 1
    endedIds := [] }

/-- Power state after a module reset: what the platform drives and what the island holds stay; PWR_INPUT and PWR_TEMP read 0 until
the next SENSOR_REFRESH (R450, Table 19.6). -/
def resetPower (p : Power) : Power :=
  { state := p.state, mv := p.mv, inlet := p.inlet, outlet := p.outlet, perst := p.perst,
    slotId := p.slotId, tripped := p.tripped, cooling := p.cooling, brownOut := p.brownOut, refclkOk := p.refclkOk,
    crystalOk := p.crystalOk, mainOk := p.mainOk, backupOk := p.backupOk, brake := p.brake, brakeTrig := p.brakeTrig,
    brakeAt := p.brakeAt, brakePosts := p.brakePosts, throttle := p.throttle, throttleAt := p.throttleAt,
    throttleClear := p.throttleClear, overrides := if p.brake then [6] else [], floor := p.brake, eids := p.eids,
    smbusUp := p.smbusUp, stuckCount := p.stuckCount, mctpMsg := p.mctpMsg }

/-- Levels that outlast a reset show in the power page again. -/
def relevel (s : State) : State :=
  let s := if s.pow.brake then levelEvent (levelEvent s pgPower 0 true [(0, 6)]) pgPower 2 true [] else s
  if s.pow.crystalOk then s else levelEvent s pgPower 3 true []

/-- Every partition, context, queue, session and plan ends, every key context is zeroized, every granule is primed, the
reserved region is reinitialised, every register takes its reset value; no completion entry is written. The level of
watermark source 12 follows the log, which survives (R438, R440). -/
def moduleReset (s : State) : State :=
  let cables := s.fab.ports.filterMap (fun (p : Nat × Port) => if p.2.cable then some (p.1, ({ cable := true } : Port)) else none)
  let s : State :=
    { ns := s.ns
      fresh := s.fresh
      fab := { ports := cables, member := { phys := s.fab.member.phys } }
      sp := resetSp s.sp
      pow := resetPower s.pow
      regs := { hostMem := s.regs.hostMem, msixSent := s.regs.msixSent, monitors := if s.ns = 0 then [] else (List.range 11).map (fun m => (m, { since := s.ns })) }
      pending := s.pending }
  (markMove (updateThrottle (relevel s)) 12 (logUnread s)).1

/-! ## Power-up (Table 20.5) -/

/-- A life-cycle state in which the module only halts (R383, Table 15.5). -/
def lcHalted (s : State) : Bool := lcState s.sp.lcWord == 5 || lcState s.sp.lcWord == 7
/-- The internal reset is held (R471): a trip, a sensor above 95 °C after one, or REFCLK missing. -/
def resetHeld (s : State) : Bool := s.pow.tripped || s.pow.cooling || !s.pow.refclkOk || !s.pow.mainOk.isEmpty

/-- Steps 5 to 10: domains 64 to 95 are ON, the links keyed and trained, RESET_DONE set, cabled ports start training. -/
def powerUp (s : State) : State :=
  let s := forAll ((List.range 32).map (· + 64)) s (fun d s => setDom s d { state := .on, target := .on, since := s.ns })
  let s := startLinks s
  let s := forAll (List.range 11) s (fun m s => setMon s m { since := s.ns })
  let s := { s with pow := { s.pow with state := .active, resetDone := true } }
  forAll (List.range 32) s (fun p s => trainPort s p)

/-- HALTED: the island and the host interface, domain 93, have power (Table 20.4). -/
def halt (s : State) : State :=
  setDom { s with pow := { s.pow with state := .halted } } 93 { state := .on, target := .on, since := s.ns }
/-- Cause under which the log enters an INVALID life cycle (R444). DESIGN CHOICE. -/
def invalidCause : Nat := 7

/-- Power-up goes as far as it can: waiting for the end of life-cycle programming, halted by the life cycle (an INVALID one is
logged, R444), held, waiting for the DRBG with the host interface at work (R229), or to its end. -/
def tryPowerUp (s : State) : State :=
  if s.pow.perst || s.pow.state == .off || s.pow.resetDone || s.sp.programming.isSome then s
  else if lcHalted s then
    let s := if lcState s.sp.lcWord = 7 ∧ s.pow.state ≠ .halted then logIt s 0 0 0 0 invalidCause 0 else s
    halt s
  else if s.pow.tripped || s.pow.cooling then halt s
  else if resetHeld s then s
  else if drbgOk s then powerUp s
  else { s with pow := { s.pow with state := .active } }

/-- PERST_ASSERT: module reset; the module is in ISLAND, and a trip no longer holds it. -/
def execPerstAssert (s : State) : Host.Outcome State Fault Refusal :=
  if s.pow.state == .off then .next { s with pow := { s.pow with perst := true } }
  else .next (moduleReset { s with pow := { s.pow with perst := true, state := .island, tripped := false } })

/-- PERST_DEASSERT: SLOT_ID is sampled and power-up runs from step 4. -/
def execPerstDeassert (slotId : Nat) (s : State) : Host.Outcome State Fault Refusal :=
  if !s.pow.perst then .next s
  else .next (tryPowerUp { s with pow := { s.pow with perst := false, slotId := if s.pow.state == .off then s.pow.slotId else slotId % 64 } })

/-! ## The 48 V input (R469, Table 20.3) -/

/-- What outlasts the loss of all power: OTP, the stored firmware and certificate chain, the cables, the pins, the host. Life-cycle
programming stops where it stands (R388). -/
def losePower (s : State) (mv : Nat) : State :=
  let p := s.sp
  let cables := s.fab.ports.filterMap (fun (q : Nat × Port) => if q.2.cable then some (q.1, ({ cable := true } : Port)) else none)
  { ns := s.ns
    fresh := s.fresh
    fab := { ports := cables }
    sp := { draws := p.draws, lcWord := p.lcWord, debugKill := p.debugKill, bankA := p.bankA, bankB := p.bankB, part := p.part,
            mask := p.mask, authority := p.authority, platform := p.platform, certStored := p.certStored, fwSp := p.fwSp,
            fwHub := p.fwHub, verSp := p.verSp, verHub := p.verHub }
    pow := { state := .off, mv := mv, perst := s.pow.perst, refclkOk := s.pow.refclkOk, crystalOk := s.pow.crystalOk }
    regs := { hostMem := s.regs.hostMem, msixSent := s.regs.msixSent }
    pending := s.pending }

/-- The ROM completes the destruction of the root secret at every start in RMA or SCRAP (R389). -/
def destroyRoot (s : State) : State :=
  { s with sp := { s.sp with bankA := BitVec.allOnes 264, bankB := BitVec.allOnes 264 } }

/-! ## Life-cycle programming (R388, R389, Table 15.5) -/

/-- The next bit to set on the way to a state: the lowest one of its code that still reads 0. -/
def nextBit (s : State) (target : Nat) : Option Nat :=
  (List.range 64).find? (fun i => bit (lcCode target).toNat i && !bit s.sp.lcWord.toNat i)
/-- Every bit reads 1: for RMA and SCRAP the root secret is destroyed; LC_ADVANCE completes; RMA is followed by an internal module
reset, SCRAP by a halt. A power-up that waited goes on. -/
def endProgramming (s : State) (target : Nat) : State :=
  let s := { s with sp := { s.sp with programming := none, testAccess := s.sp.testAccess && (target == 1 || target == 4) } }
  let s := answerSp (if 4 ≤ target then destroyRoot s else s) .ok [] []
  if target = 4 then tryPowerUp (moduleReset s)
  else if target = 5 then halt (moduleReset s)
  else tryPowerUp s
/-- The programming that is under way, brought to its end: a request that meets it waits for it (R350, Table 15.7), and no rule
gives a bit a least time. -/
def settleProgramming (s : State) : State :=
  match s.sp.programming with
  | none => s
  | some (t, _) => endProgramming { s with sp := { s.sp with lcWord := lcSettled s.sp } } t
/-- Programming as time passes: one bit every 10 µs, the bound of R388, in ascending order. DESIGN CHOICE: each bit takes it all. -/
def programTick (s : State) : State :=
  match s.sp.programming with
  | none => s
  | some (t, at') =>
    if s.ns < at' + 10000 then s
    else match nextBit s t with
      | some i => { s with sp := { s.sp with programming := some (t, s.ns), lcWord := s.sp.lcWord ||| BitVec.ofNat 64 (2 ^ i) } }
      | none => endProgramming s t

/-- Steps 1 and 2 of Table 20.5: island power-good, SLOT_ID sampled (R468; its pins are a free value here), the life-cycle word
read. -/
def islandStart (s : State) (mv : Nat) : State :=
  let (r, s) := drawFree s
  let s := { s with pow := { s.pow with state := .island, mv := mv, slotId := r.toNat % 64 }, sp := { s.sp with powerGood := s.ns } }
  let s := if lcState s.sp.lcWord = 4 ∨ lcState s.sp.lcWord = 5 then destroyRoot s else s
  tryPowerUp s

/-- INPUT_POWER_UP: the input rises through 39 V. -/
def execInputPowerUp (millivolts : Nat) (s : State) : Host.Outcome State Fault Refusal :=
  if s.pow.state == .off && 39000 ≤ millivolts && millivolts ≤ 62000 then .next (islandStart s millivolts) else .next s

/-- INPUT_BROWN_OUT: the input falls into 37 to 40 V: the 1,000 W cap, THROTTLE_OUT# asserted. -/
def execInputBrownOut (millivolts : Nat) (s : State) : Host.Outcome State Fault Refusal :=
  if s.pow.state != .off && 37000 ≤ millivolts && millivolts < 40000 then
    .next (updateThrottle { s with pow := { s.pow with mv := millivolts, brownOut := true } })
  else .next s

/-- BROWN_OUT_RECOVERY: the input is back above 40 V. -/
def execBrownOutRecovery (millivolts : Nat) (s : State) : Host.Outcome State Fault Refusal :=
  if s.pow.brownOut && 40000 ≤ millivolts then
    .next (updateThrottle { s with pow := { s.pow with mv := millivolts, brownOut := false } })
  else .next s

/-- INPUT_LOCKOUT: below 37 V for more than 10 µs. -/
def execInputLockout (millivolts : Nat) (s : State) : Host.Outcome State Fault Refusal :=
  if s.pow.state != .off && millivolts < 37000 then .next (losePower s millivolts) else .next s

/-- INPUT_OVERVOLTAGE: above 62 V for more than 10 µs. -/
def execInputOvervoltage (millivolts : Nat) (s : State) : Host.Outcome State Fault Refusal :=
  if s.pow.state != .off && 62000 < millivolts then .next (losePower s millivolts) else .next s

/-- OVERVOLTAGE_RECOVERY: the input falls below 60 V and power-up restarts. -/
def execOvervoltageRecovery (millivolts : Nat) (s : State) : Host.Outcome State Fault Refusal :=
  if s.pow.state == .off && 62000 < s.pow.mv && 39000 ≤ millivolts && millivolts < 60000 then .next (islandStart s millivolts) else .next s

/-! ## Temperature trip (loop 5) and clock recovery -/

/-- TEMPERATURE_TRIP: every domain loses its power and its contents; the module is HALTED until PERST#, and the trip is logged. -/
def execTemperatureTrip (s : State) : Host.Outcome State Fault Refusal :=
  if s.pow.state == .active || s.pow.state == .standby then
    let s := moduleReset { s with pow := { s.pow with state := .halted, tripped := true, cooling := true } }
    .next (logIt (halt s) 0 0 0 0 5 0)
  else .next s

/-- TRIP_COOLDOWN_RELEASE: the hottest sensor reads 95 °C or less. -/
def execTripCooldownRelease (s : State) : Host.Outcome State Fault Refusal :=
  if s.pow.cooling then .next (tryPowerUp { s with pow := { s.pow with cooling := false } }) else .next s

/-- CLOCK_RECOVERY: the lost source has been good for 1 ms; before RESET_DONE, power-up goes on (Table 20.12). -/
def execClockRecovery (s : State) : Host.Outcome State Fault Refusal :=
  if s.pow.dustSheet then
    if s.pow.dustAt + 1000000 ≤ s.ns then .next (clockRecover s) else .next s
  else if !s.pow.refclkOk || !s.pow.mainOk.isEmpty then
    .next (tryPowerUp { s with pow := { s.pow with refclkOk := true, mainOk := [] } })
  else .next s

/-! ## Cables (R483) -/

/-- The eight ports of a connector. -/
def portsOf (connector : Nat) : List Nat := (List.range 8).map (· + 8 * connector)

/-- CABLE_INSERT: the connector's eight ports start training. -/
def execCableInsert (connector : Nat) (s : State) : Host.Outcome State Fault Refusal :=
  if 4 ≤ connector then .next s
  else .next (forAll (portsOf connector) s (fun p s => trainPort (modPort s p (fun v => { v with cable := true })) p))

/-- CABLE_REMOVE: its eight ports go DOWN without counting a retrain. -/
def execCableRemove (connector : Nat) (s : State) : Host.Outcome State Fault Refusal :=
  if 4 ≤ connector then .next s
  else .next (forAll (portsOf connector) s (fun p s => modPort (downPort s p) p (fun v => { v with cable := false })))

/-! ## Management bus and sensors (R477 to R481) -/

/-- ALERT# (R477): a message waits for the SMBus owner, or a module-scope failure holds. -/
def alertPin (s : State) : Bool :=
  s.pow.mctpMsg || s.pow.failed || s.pow.tripped || (lcState s.sp.lcWord == 7 && s.sp.programming.isNone)
/-- MCTP and PLDM commands are answered: not without power, and not in SCRAP, where only LC_GET is (R389). -/
def mctpServed (s : State) : Bool := s.pow.state != .off && lcState s.sp.lcWord != 5

/-- SMBUS_STUCK: SCL or SDA low for 35 ms: the interface is reset, its messages are lost, the episode is posted, counted and
logged; with PERST# asserted it is logged only. -/
def execSmbusStuck (scl sda : Bool) (s : State) : Host.Outcome State Fault Refusal :=
  if s.pow.state == .off || !(scl || sda) || !s.pow.smbusUp then .next s
  else
    let s := { s with pow := { s.pow with smbusUp := false, stuckCount := satAdd 32 s.pow.stuckCount 1, mctpMsg := false } }
    .next (postEvent s (if s.pow.perst then [] else [moduleRing]) 0x0008 true 0 (if scl then 0 else 1) 0)

/-- SMBUS_RESUME: both lines have been high for 10 ms. -/
def execSmbusResume (s : State) : Host.Outcome State Fault Refusal := .next { s with pow := { s.pow with smbusUp := true } }

/-- SMBUS_ALERT_RESPONSE: the owner's Alert Response Address read clears a message-pending ALERT#. -/
def execSmbusAlertResponse (s : State) : Host.Outcome State Fault Refusal :=
  if s.pow.smbusUp then .next { s with pow := { s.pow with mctpMsg := false } } else .next s

/-- MCTP_CONTROL_MESSAGE: a bus owner assigns the endpoint ID of its binding (0 SMBus, 1 PCI Express); an answer on SMBus waits
for the owner. -/
def execMctpControlMessage (binding eid : Nat) (s : State) : Host.Outcome State Fault Refusal :=
  let reach := if binding = 0 then s.pow.smbusUp else !s.pow.perst
  if !mctpServed s || 2 ≤ binding || !reach || eid < 8 || 254 < eid then .next s
  else
    let s := { s with pow := { s.pow with eids := tput 0 s.pow.eids binding eid, mctpMsg := s.pow.mctpMsg || binding == 0 } }
    .next (answerSp s .ok [eid] [])

/-- PLDM_SENSOR_READ: a reading of Table 20.7. -/
def execPldmSensorRead (sensor : Nat) (s : State) : Host.Outcome State Fault Refusal :=
  let p := s.pow
  if !mctpServed s then .next s
  else if sensor = 0 || 13 < sensor then .next (answerSp s .unsupported [] [])
  else
    let v :=
      if sensor = 1 then p.mvRead
      else if sensor = 2 then p.watts
      else if sensor = 3 then hottest s
      else if sensor ≤ 8 then tget 0 p.temps (sensor - 4)
      else if sensor = 9 then p.inlet
      else if sensor = 10 then p.outlet
      else if sensor = 11 then s.fab.plumb.ppsDrop
      else if sensor = 12 then p.stuckCount
      else b2n p.brake + 2 * b2n p.throttle + 4 * b2n p.dustSheet
    .next (answerSp s .ok [v] [])

/-- PLDM_FRU_READ: part, slot, firmware versions, and the serial number (Table 20.8). -/
def execPldmFruRead (s : State) : Host.Outcome State Fault Refusal :=
  if !mctpServed s then .next s
  else .next (answerSp s .ok [s.sp.part, s.pow.slotId, s.sp.verSp, s.sp.verHub] (leBytes 16 Config.serial.toNat))

/-- SENSOR_REFRESH: the readings, every 100 ms; die sensors CD0 to CD3 and HD in order. -/
def execSensorRefresh (millivolts watts : Nat) (temps : List Nat) (inlet outlet : Nat) (s : State) : Host.Outcome State Fault Refusal :=
  if s.pow.state == .off then .next s
  else
    let t := (List.range 5).foldl (fun (t : Tab Nat) i => tput 0 t i (nth temps i)) []
    .next (updateThrottle { s with pow := { s.pow with mv := millivolts, mvRead := millivolts, watts := watts, temps := t, inlet := inlet, outlet := outlet } })

end Sys2Proof.Machine
end

