-- ==== Sys2Proof/Machine/Mapping.lean ====
section
/-! DEFINITION. The data commands on memory objects: tensor-table entries (R112 to R114), PRIME (R206), MAP and UNMAP (R198 to
R204). Each answers the status, the fault address or INFO0, and the state. -/

namespace Sys2Proof.Machine
open Sys2Proof

/-! ## Tensor table -/

/-- The entry that TENSOR_CREATE carries (Table 7.9, Table 5.3). -/
def decodeTensor (e : Bytes) : Tensor :=
  let w0 := le e 0x24 4
  ⟨bits w0 3 0, bit w0 4, bits w0 6 5, bits w0 15 8, le e 0x28 8, (List.range 4).map (fun i => le e (0x30 + 4 * i) 4),
   (List.range 3).map (fun i => le e (0x40 + 8 * i) 8)⟩

/-- A key index selects a key context of a context's partition and session (R113, R172). -/
def keyIn (s : State) (ctx key : Nat) : Bool :=
  (keyOf s key).state != .free && (keyOf s key).partition == (ctxOf s ctx).partition && (keyOf s key).session == (ctxOf s ctx).session

/-- TENSOR_CREATE: the checks of R113 in order, then the entry with LIVE = 1. The check of the mapping walks the object's pages
(R202). -/
def tensorCreate (s : State) (ctx : Nat) (e : Bytes) : Status × State :=
  let h := le e 0x20 2
  let t := decodeTensor e
  let w0 := le e 0x24 4
  let c := ctxOf s ctx
  let (base, len) := (le e 0x58 8, le e 0x60 8)
  if c.tensors ≤ h ∨ 2 ^ 48 ≤ base then (.descInvalid, s)
  else if (tlook c.table h).isSome then (.busy, s)
  else if !fmtNamed t.fmt || t.fmt == 0xA || (t.scaled && !fmtScalable t.fmt) || bit w0 7 || bits w0 30 16 != 0 || decide (2 ^ 48 ≤ t.base)
      || t.ext.any (· == 0) || decide (2 ^ 48 < volume t.ext) || !t.lay.aligned then (.descInvalid, s)
  else if !t.lay.nonOverlap then (.descInvalid, s)
  else if t.base < base || base + len < t.base + t.lay.footprint then (.descRange, s)
  else
  let mapped := rangeMapped s ctx base len
  let s := walkRange s ctx base len
  let c := ctxOf s ctx
  if !mapped then (.descRange, s)
  else if !keyIn s ctx t.key then (.policyDenied, s)
  else (.ok, writeOwnLine (setCtx s ctx { c with table := tins c.table h t }) (c.ttBase + 64 * h) (tensorEntry t true))

/-- TENSOR_DESTROY: a handle that is not LIVE gives DESC_INVALID. -/
def tensorDestroy (s : State) (ctx : Nat) (e : Bytes) : Status × State :=
  let c := ctxOf s ctx
  let h := le e 0x20 2
  match tlook c.table h with
  | some t => (.ok, writeOwnLine (setCtx s ctx { c with table := tdel c.table h }) (c.ttBase + 64 * h) (tensorEntry t false))
  | none => (.descInvalid, s)

/-! ## PRIME -/

/-- The pieces make up whole granules: 512 KiB blocks in the interleaved view, 64 KiB elsewhere (R206). -/
def wholeGranules (phys : List Nat) : Bool :=
  phys.all (fun pa => pa % 65536 == 0 && ((dieLocal pa).isSome || isCap pa
    || (List.range 8).all (fun i => phys.contains (pa / 524288 * 524288 + 65536 * i))))

/-- PRIME: DESC_INVALID for an address of more than 48 bits (R197), PAGE_FAULT, then DESC_INVALID; otherwise the granules whose bits are to be set. -/
def primeCheck (s : State) (ctx : Nat) (e : Bytes) : Status × Option Nat × List Nat :=
  let (va, n) := (le e 0x20 8, le e 0x28 8)
  let spots := (pieces (va / 65536 * 65536) (va % 65536 + min n (2 ^ 48 - va))).map (fun v => (v, physOf s ctx v))
  if 2 ^ 48 ≤ va then (.descInvalid, none, [])
  else match spots.find? (fun (x : Nat × Option (Nat × Bool)) => match x.2 with | some (_, w) => !w | none => true) with
  | some (v, _) => (.pageFault, some (max v va), [])
  | none =>
    if 2 ^ 48 < va + n then (.pageFault, some (2 ^ 48), []) else
    let phys := spots.filterMap (fun (x : Nat × Option (Nat × Bool)) => x.2.map (·.1))
    if va % 65536 ≠ 0 ∨ n % 65536 ≠ 0 ∨ !wholeGranules phys then (.descInvalid, none, [])
    else (.ok, none, (phys.flatMap (fun pa => match dieLocal pa with
      | some _ => physGrans pa 65536
      | none => if isCap pa then [granOf pa] else if pa % 524288 = 0 then rangeGrans pa 524288 else [])))

/-! ## MAP -/

/-- A table holds no valid entry that reads. -/
def tableEmpty (s : State) (table : Nat) : Bool := (tableEntries s table).isEmpty
/-- The first line of a table that fails R192. -/
def tableBroken (s : State) (table : Nat) : Option Nat :=
  ((List.range 64).map (fun i => table + 64 * i)).find? (fun a => (pteAt s a).isNone)

/-- Where a MAP stands for one page: the entry to write, the tables it still needs, or a page in the way. -/
inductive Slot64 where
  | entry (ea : Nat) (replaced : Bool)
  | needs (lvl : Nat)                  -- the highest missing table
  | taken
  | broken (ea : Nat)                  -- the line of this entry fails R192
  deriving DecidableEq, Repr, Inhabited

/-- Follows the tables of a virtual address from level `lvl` down to the level of the leaf. -/
def slotFor (s : State) (va leaf : Nat) : Nat → Nat → Slot64
  | 0, table =>
    let ea := table + 8 * vaIndex 0 va
    match pteAt s ea with
    | none => .broken ea
    | some e => if bit e 0 then .taken else .entry ea false
  | lvl + 1, table =>
    let ea := table + 8 * vaIndex (lvl + 1) va
    match pteAt s ea with
    | none => .broken ea
    | some e =>
      if lvl + 1 = leaf then
        if !bit e 0 then .entry ea false
        else if bit e 1 then .taken
        else if !tableEmpty s (bits e 47 12 * 4096) then .taken
        else match tableBroken s (bits e 47 12 * 4096) with
          | some a => .broken a
          | none => .entry ea true
      else if !bit e 0 then .needs lvl
      else if bit e 1 then .taken
      else slotFor s va leaf lvl (bits e 47 12 * 4096)

/-- Adds a number once. -/
def insOnce (l : List Nat) (x : Nat) : List Nat := if l.contains x then l else l ++ [x]

/-- The new tables that a range needs per level (2, 1, 0): the indices of what each of them covers. -/
def tablesNeeded (s : State) (root leaf : Nat) (vas : List Nat) : List Nat × List Nat × List Nat :=
  vas.foldl (fun (t : List Nat × List Nat × List Nat) va =>
    match slotFor s va leaf 3 root with
    | .needs top =>
      ( if 2 ≤ top then insOnce t.1 (va / 2 ^ 39) else t.1
      , if 1 ≤ top && leaf ≤ 1 then insOnce t.2.1 (va / 2 ^ 30) else t.2.1
      , if leaf = 0 then insOnce t.2.2 (va / 2 ^ 21) else t.2.2 )
    | _ => t) ([], [], [])

/-- A granule lies behind a mapped page of some context. -/
def granMapped (s : State) (g : Nat) : Bool :=
  ((s.contexts.filter (fun c => c.2.live)).map (·.1)).any (fun c =>
    (ctxLeaves s c).any (fun l => (physGrans (leafPhys l.1 l.2.1) (leafBytes l.1)).contains g))
/-- A granule is marked in a table bitmap. -/
def granMarked (s : State) (g : Nat) : Bool := s.mem.marked.any (fun m => m.2 == g)
/-- Marks the whole 512 KiB blocks behind an interleaved range, or its granules in the capacity tier, for a context (R199). -/
def markTable (s : State) (ctx pa n : Nat) : State :=
  let gs := if isCap pa then rangeGrans pa n else rangeGrans (pa / 524288 * 524288) (ceilDiv (pa % 524288 + n) 524288 * 524288)
  { s with mem := { s.mem with marked := gs.foldl (fun l g => if l.contains (ctx, g) then l else (ctx, g) :: l) s.mem.marked } }

/-- A physical range lies in a partition's slices (R182, R185). -/
def inSlices (p : Partition) (pa n : Nat) : Bool :=
  match dieLocal pa with
  | some (_, l) => l + n ≤ 0x17F0000000 && p.hbmBase / 4 ≤ l && l + n ≤ (p.hbmBase + p.hbmLen) / 4
  | none =>
    if isCap pa then p.capBase ≤ pa && pa + n ≤ p.capBase + p.capLen
    else isMem pa && pa + n ≤ reservedBase && p.hbmBase ≤ pa && pa + n ≤ p.hbmBase + p.hbmLen

/-- A page may take the locks of the regions it reaches (R186). -/
def lockFree (s : State) (pa n : Nat) : Bool :=
  let (view, regions) := pageRegions pa n
  regions.all (fun r => let v := (tget (0, 0) s.mem.locks r).1; v == 0 || v == view)

/-- Links a new table below its parent: the table is zero-filled, and the entry then points to it (R203). -/
def linkTable (s : State) (ea next : Nat) : State := writePte (zeroTable s next) ea (1 + next)

/-- The table lines of a range that fail R192 are read, with the effects of Table 8.3: the first of them, and the state. -/
def readBroken (s : State) (ctx : Nat) (slots : List Slot64) : Option Nat × State :=
  let bad := slots.filterMap (fun x => match x with | .broken ea => some (lineBase ea) | _ => none)
  (bad.head?, (bad.foldl insOnce []).foldl (fun s a => (readLine s ctx 0 a none [] []).2.2) s)

/-- The entry address of a level in the tables of a virtual address, with the tables above it present. -/
def entryAt (s : State) (va want : Nat) : Nat → Nat → Nat
  | 0, table => table + 8 * vaIndex 0 va
  | lvl + 1, table =>
    let ea := table + 8 * vaIndex (lvl + 1) va
    if lvl + 1 = want then ea else entryAt s va want lvl (bits ((pteAt s ea).getD 0) 47 12 * 4096)

/-- MAP: the checks of R203 in order, then new tables and leaves. Answers status, INFO0 and the state. DESIGN CHOICE (log entry 30):
memory that an accepted PARTITION_RESIZE is removing stays in its partition's slices, and so may still be mapped, until the resize
completes; a leaf made meanwhile outlives the memory's entry into the free pool, since R162 gives it no end. -/
def mapPages (s : State) (ctx : Nat) (e : Bytes) : Status × Nat × State :=
  let (va, pa, n) := (le e 0x20 8, le e 0x28 8, le e 0x30 8)
  let w := le e 0x38 4
  let leaf := bits w 1 0
  let key := bits w 15 8
  let (next2, next1, next0) := (le e 0x40 8, le e 0x48 8, le e 0x50 8)
  let c := ctxOf s ctx
  let p := partOf s c.partition
  let size := leafBytes leaf
  let inter := isMem pa && !isCap pa
  if decide (2 ^ 48 ≤ va) || bits w 7 5 != 0 || w / 65536 != 0 || leaf == 3 then (.descInvalid, 0, s)
  else if va % size ≠ 0 ∨ pa % size ≠ 0 ∨ n % size ≠ 0 ∨ n = 0 ∨ 2 ^ 40 < n ∨ 2 ^ 48 < va + n
      ∨ (inter ∧ (pa % 524288 ≠ 0 ∨ n % 524288 ≠ 0)) then (.descInvalid, 0, s)
  else
    let vas := (List.range (n / size)).map (fun i => va + size * i)
    let slots := vas.map (fun v => slotFor s v leaf 3 c.ptRoot)
    let (t2, t1, t0) := tablesNeeded s c.ptRoot leaf vas
    let nextBad := fun (t : List Nat) (next : Nat) => !t.isEmpty && (next == 0 || next % 4096 != 0 || (dieLocal next).isSome || isCap next || !inSlices p next 4096)
    let nextUsed := fun (t : List Nat) (next : Nat) => !t.isEmpty && (rangeGrans next 4096).any (fun g => granMapped s g || granMarked s g)
    if nextBad t2 next2 || nextBad t1 next1 || nextBad t0 next0 || decide (1 < t2.length) || decide (1 < t1.length) || decide (1 < t0.length) then
      (.descInvalid, 0, s)
    else if !inSlices p pa n || key == 0 || decide (key < p.keyFirst) || decide (p.keyFirst + p.keyCount ≤ key)
        || ((keyOf s key).state != .free && (keyOf s key).session != c.session)
        || (List.range (n / size)).any (fun i => !lockFree s (pa + size * i) size)
        || (physGrans pa n).any (granMarked s) || nextUsed t2 next2 || nextUsed t1 next1 || nextUsed t0 next0 then (.policyDenied, 0, s)
    else if slots.any (· == .taken) then (.busy, 0, s)
    else if (readBroken s ctx slots).1.isSome then (.tagMismatch, 0, (readBroken s ctx slots).2)
    else
      let add := fun (s : State) (t : List Nat) (next lvl shift : Nat) => match t with
        | [] => s
        | x :: _ => linkTable (markTable s ctx next 4096) (entryAt s (x * 2 ^ shift) (lvl + 1) 3 c.ptRoot) next
      let s := add (add (add s t2 next2 2 39) t1 next1 1 30) t0 next0 0 21
      let flags := 1 + 2 + (bits w 4 2) * 4 + key * 2 ^ 48
      let s := (List.range (n / size)).foldl (fun (s : State) i =>
        let v := va + size * i
        let ea := entryAt s v leaf 3 c.ptRoot
        let s := lockPage s (pa + size * i) size true
        dropCached (writePte s ea (flags + (pa + size * i))) (· == (ctx, ea))) s
      (.ok, b2n (!t0.isEmpty) + 2 * b2n (!t1.isEmpty) + 4 * b2n (!t2.isEmpty), s)

/-! ## UNMAP -/

/-- Virtual range of each leaf of a context: leaf level, entry, entry address, first virtual address. -/
def leafVas (s : State) : Nat → Nat → Nat → List (Nat × Nat × Nat × Nat)
  | 0, table, base => ((tableEntries s table).filter (fun p => pteOk 0 p.2)).map (fun p => (0, p.2, p.1, base + (p.1 - table) / 8 * 2 ^ 16))
  | lvl + 1, table, base => (tableEntries s table).flatMap (fun p =>
      let here := base + (p.1 - table) / 8 * (if lvl + 1 = 3 then 2 ^ 39 else leafBytes (lvl + 1))
      if !pteOk (lvl + 1) p.2 then []
      else if bit p.2 1 then [(lvl + 1, p.2, p.1, here)]
      else leafVas s lvl (bits p.2 47 12 * 4096) here)

/-- What the tables on the way to the pages of a range hold. -/
def tableSlots (s : State) (root va n : Nat) : List Slot64 := (pieces va n).map (fun v => slotFor s v 0 3 root)

/-- Requests that wait at a boundary router or for a zero-fill. -/
def heldRequests (s : State) : List MemReq :=
  s.pow.domains.flatMap (fun d => d.2.reqs.map (·.req)) ++ s.mem.granules.flatMap (fun g => g.2.waiting.map (·.req))

/-- UNMAP (R204): the leaves are cleared, view locks lowered, cached copies invalidated; accesses that translated through the old
leaves and still wait are noted. Answers the status, those accesses, and the state. DESIGN CHOICE (log entry 30): a range of no bytes
whose address lies strictly inside a larger leaf is taken to cover a part of that leaf, which gives DESC_INVALID. -/
def unmapPages (s : State) (ctx : Nat) (e : Bytes) : Status × List MemReq × State :=
  let (va, n) := (le e 0x20 8, le e 0x28 8)
  let root := (ctxOf s ctx).ptRoot
  if decide (2 ^ 48 ≤ va) || va % 65536 != 0 || n % 65536 != 0 then (.descInvalid, [], s)
  else
    let touched := (leafVas s 3 root 0).filter (fun l => decide (l.2.2.2 < va + n) && decide (va < l.2.2.2 + leafBytes l.1))
    if touched.any (fun l => decide (l.2.2.2 < va) || decide (va + n < l.2.2.2 + leafBytes l.1)) then (.descInvalid, [], s)
    else if (readBroken s ctx (tableSlots s root va n)).1.isSome then (.tagMismatch, [], (readBroken s ctx (tableSlots s root va n)).2)
    else
      let grans := touched.flatMap (fun l => physGrans (leafPhys l.1 l.2.1) (leafBytes l.1))
      let out := (heldRequests s).filter (fun r => r.ctx == ctx && grans.contains (granOf r.addr))
      let s := touched.foldl (fun (s : State) l =>
        let s := lockPage s (leafPhys l.1 l.2.1) (leafBytes l.1) false
        dropCached (writePte s l.2.2.1 0) (· == (ctx, l.2.2.1))) s
      (.ok, out, if touched.isEmpty then s else ckptUnmapped s ctx va n)

end Sys2Proof.Machine
end

