-- ==== Sys2Proof/Machine/Bounce.lean ====
section
/-! DEFINITION. Bounce buffers: COPY_IN and COPY_OUT with the bounce counters (R173 to R175), measured loads (R174, R376), and the
release rules (R377, R378). Each starts with its checks and binds a use of a key slot, and moves its data when it completes; an
end answers the status, the fault address and the state. -/

namespace Sys2Proof.Machine
open Sys2Proof

/-- The slot of a session that holds its bounce key. -/
def bounceSlot (s : State) (ses : Nat) : Option Nat :=
  (s.sp.slots.find? (fun x => x.2.cls == 2 && x.2.session == ses && x.2.state == .loaded)).map (·.1)

/-- The role of a key index in its session's manifest. -/
def roleOf (s : State) (key : Nat) : Option Role :=
  (sesOf s (keyOf s key).session).bind (fun v => v.manifest.roles[(keyOf s key).role]?)

/-- The body authenticates under a slot, for this queue, sequence and entry. -/
def bodyOk (body : Option Body) (slot queue seq len : Nat) (entry : Bytes) : Bool :=
  match body with
  | some b => b.sealedBy == some slot && b.queue == queue && b.seq == seq && b.aad == entry && b.plain.length == len
  | none => false

/-- A use of a slot starts and is bound until its command completes (R359, R360). -/
def bindUse (s : State) (slot cls ses : Nat) : Status × State :=
  match useSlot s slot cls ses with
  | (.ok, s) => (.ok, modSlot s slot (fun v => { v with bound := v.bound + 1 }))
  | r => r
/-- The uses bound to a slot are aborted with KEY_REVOKED: the slot is erased with IMMEDIATE (R360, Table 14.6). -/
def dropUses (s : State) (slot : Nat) : State :=
  let mine := fun (q : Nat × Queue) => q.2.running.any (fun r => r.status.isNone && r.use.any (fun u => u.slot == slot))
  ((s.queues.filter mine).map (·.1)).foldl (fun s q =>
    finishCommand (modQueue s q (fun v => { v with running := v.running.map (fun r => { r with use := none }) })) q .keyRevoked 0 0 0) s
/-- A slot is erased with IMMEDIATE. -/
def abortSlot (s : State) (slot : Nat) : State := emptySlot (dropUses s slot) slot

/-- COPY_IN starts (R174, R359): its checks, and the use that it binds; it ends with `copyInEnd`. -/
def copyIn (s : State) (q ctx : Nat) (e : Bytes) (body : Option Body) : Status × Option CopyUse × State :=
  let (va, n) := (le e 0x20 8, le e 0x28 8)
  let w := le e 0x30 4
  let key := bits w 7 0
  let slotNo := bits w 15 8
  let owned := bit w 16
  let ses := (ctxOf s ctx).session
  let ro := (keyOf s key).cls == 1
  if n ≠ le e 0x10 3 ∨ 2 ^ 48 ≤ va then (.descInvalid, none, s)
  else if !commandKeyOk s ctx key then (.policyDenied, none, s)
  else if ro && !owned then (.policyDenied, none, s)
  else
    let slot := if owned then some slotNo else bounceSlot s ses
    match slot with
    | none => (.policyDenied, none, s)
    | some slot =>
      let wrongOwner := ro && (roleOf s key).map (·.owner) != some (slotOf s slot).owner
      if wrongOwner then (.policyDenied, none, s)
      else match bindUse s slot (if owned then 3 else 2) ses with
        | (.ok, s) =>
          (.ok, some { slot := slot, key := slotKey (slotOf s slot), mkey := key, ses := ses, role := (keyOf s key).role, ro := ro,
                       data := (match body with | some b => b.plain | none => []), tagOk := bodyOk body slot q (le e 0x18 8) n e,
                       clear := false, ticket := none, busError := false }, s)
        | (st, s) => (st, none, s)

/-- COPY_IN ends: the body's tag, the measurement of a load into a MEM_RO role, the write (R174, R376). -/
def copyInEnd (s : State) (ctx : Nat) (e : Bytes) (u : CopyUse) : Status × Option Nat × State :=
  let (va, n) := (le e 0x20 8, le e 0x28 8)
  if !u.tagOk then (.tagMismatch, none, s)
  else
    let noted := if u.ro then measAdd s (ctxOf s ctx).partition 2 ctx (u.mkey % 256) u.role u.ses n (Config.sha384 u.data) else some s
    match noted with
    | none => (.busy, none, s)
    | some s =>
      let (st, s) := vwrite s ctx u.mkey va u.data u.ro
      (st, if st = .ok then none else faultIn s ctx u.mkey va n .write u.ro, s)

/-! ## COPY_OUT -/

/-- Bytes of a piece of a release (R378). -/
def pieceBytes : Nat := 8388608
/-- How a COPY_OUT may leave: in clear, under a slot, or under a ticket's RELEASE slot. -/
inductive OutForm where
  | clear
  | sealed (slot : Nat)
  | ticket (id slot : Nat)
  deriving DecidableEq, Repr, Inhabited

/-- A rule's destination is the one that a COPY_OUT names, and the slot that seals for it. -/
def ruleSlot (s : State) (ses : Nat) (r : Rule) (owned : Bool) (slotNo : Nat) : Option Nat :=
  if owned then
    let v := slotOf s slotNo
    if r.dest = 1 ∧ v.cls = 4 ∧ v.session = ses ∧ v.owner = r.destOwner ∧ v.state ≠ .empty then some slotNo else none
  else if r.dest = 0 then bounceSlot s ses
  else none

/-- An armed ticket of a rule covers whole pieces of the source that have not been sent. -/
def ticketFor (v : Session) (rule ctx key va n : Nat) : Option Ticket :=
  v.tickets.find? (fun t => t.armed && !t.complete && t.rule == rule && t.context == ctx && t.key == key
    && decide (t.addr ≤ va) && decide (va + n ≤ t.addr + t.len) && (va - t.addr) % pieceBytes == 0 && n != 0
    && (n % pieceBytes == 0 || va + n == t.addr + t.len))

/-- The form in which R377 permits a COPY_OUT, its three forms tried in order. -/
def outForm (s : State) (ctx key va n : Nat) (owned : Bool) (slotNo : Nat) : Option OutForm :=
  let ses := (ctxOf s ctx).session
  match sesOf s ses with
  | none => none
  | some v =>
    let role := (keyOf s key).role
    if !owned && v.manifest.declass.any (fun d => d.1 == role && decide (n ≤ d.2)) then some .clear
    else
      let rules := ((List.range v.manifest.rules.length).zip v.manifest.rules).filter (fun r =>
        r.2.role == role && (ruleSlot s ses r.2 owned slotNo).isSome && (r.2.maxLen == 0 || decide (n ≤ r.2.maxLen * 4096)))
      match rules.find? (fun r => r.2.k == 0) with
      | some r => (ruleSlot s ses r.2 owned slotNo).map .sealed
      | none => rules.findSome? (fun r => (ticketFor v r.1 ctx key va n).map (fun t => .ticket t.id t.slot))

/-- What the host receives (R173): ciphertext and tag, or in clear the plaintext and the tag over an empty message. -/
def sealOut (q : Nat) (e plain : Bytes) (key : BitVec 256) (clear : Bool) : Bytes :=
  let iv := bounceIv q 1 (le e 0x18 8)
  if clear then plain ++ (gcm key iv (e ++ plain) []).2
  else let (c, t) := gcm key iv e plain; c ++ t

/-- Takes the pieces of a COPY_OUT out of a ticket: their digests are compared, and a mismatch voids it (R378 steps 4 to 6). -/
def sendPieces (s : State) (ses id va : Nat) (plain : Bytes) : Bool × State :=
  match sesOf s ses with
  | none => (false, s)
  | some v =>
    match v.tickets.find? (fun t => t.id == id) with
    | none => (false, s)
    | some t =>
      let first := (va - t.addr) / pieceBytes
      let l := List.range (ceilDiv plain.length pieceBytes)
      let good := l.all (fun i => t.pieces[first + i]? == some (Config.sha384 ((plain.drop (i * pieceBytes)).take pieceBytes)))
      if good then
        let sent := l.foldl (fun m i => if m.contains (first + i) then m else (first + i) :: m) t.sent
        let t' := { t with sent := sent, complete := sent.length == t.pieces.length }
        (true, setSes s ses { v with tickets := v.tickets.map (fun x => if x.id = id then t' else x) })
      else (false, setSes (abortSlot s t.slot) ses { v with tickets := v.tickets.filter (fun x => x.id != id) })

/-- COPY_OUT starts (R175, R359, R376, R377): its checks, and the use that it binds; it ends with `copyOutEnd`. -/
def copyOut (s : State) (ctx : Nat) (e : Bytes) (busError : Bool) : Status × Option CopyUse × State :=
  let (va, n) := (le e 0x20 8, le e 0x28 8)
  let w := le e 0x30 4
  let key := bits w 7 0
  let slotNo := bits w 15 8
  let owned := bit w 16
  let ses := (ctxOf s ctx).session
  if n ≠ le e 0x10 3 ∨ 2 ^ 48 ≤ va then (.descInvalid, none, s)
  else if !commandKeyOk s ctx key || (keyOf s key).cls == 1 then (.policyDenied, none, s)
  else match outForm s ctx key va n owned slotNo with
  | none => (.policyDenied, none, s)
  | some form =>
    let use := match form with
      | .clear => match bounceSlot s ses with | some b => (b, bindUse s b 2 ses) | none => (0, (.policyDenied, s))
      | .sealed b => (b, bindUse s b (if owned then 4 else 2) ses)
      | .ticket _ b => (b, bindUse s b 8 ses)
    match use.2 with
    | (.ok, s) =>
      (.ok, some { slot := use.1, key := slotKey (slotOf s use.1), mkey := key, ses := ses, role := (keyOf s key).role, ro := false,
                   data := [], tagOk := true, clear := form == .clear,
                   ticket := (match form with | .ticket id _ => some id | _ => none), busError := busError }, s)
    | (st, s) => (st, none, s)

/-- COPY_OUT ends: the source is read; unless the host access fails, the pieces of a ticket are compared and what the host receives
is written under the key of the bound generation (R175, R359, R378). -/
def copyOutEnd (s : State) (q ctx : Nat) (e : Bytes) (u : CopyUse) : Status × Option Nat × State :=
  let (va, n) := (le e 0x20 8, le e 0x28 8)
  let (st, plain, s) := vread s ctx u.mkey va n
  if st ≠ .ok then (st, faultIn s ctx u.mkey va n .read, s)
  else if u.busError then (.aborted, none, s)
  else
    let (good, s) := match u.ticket with
      | some id => sendPieces s u.ses id va plain
      | none => (true, s)
    if !good then (.tagMismatch, none, s)
    else (.ok, none, hostWrite s (le e 0x08 8) (sealOut q e plain u.key u.clear))

/-! ## The bounce counters (R173) -/

/-- A command that names a body: exhausted, out of sequence, or run with its counter advanced. `dir` is 0 for COPY_IN. -/
def withBody (s : State) (q dir : Nat) (e : Bytes) (busError : Bool) (run : State → Status × Option CopyUse × State) : Status × Option CopyUse × State :=
  let v := queueOf s q
  let c := if dir = 0 then v.seqIn else v.seqOut
  if 2 ^ 63 ≤ v.seqIn ∨ 2 ^ 63 ≤ v.seqOut then (.keyExhausted, none, s)
  else if le e 0x18 8 ≠ c then (.policyDenied, none, s)
  else
    let s := modQueue s q (fun v => if dir = 0 then { v with seqIn := c + 1 } else { v with seqOut := c + 1 })
    if busError && dir == 0 then (.aborted, none, s) else run s

end Sys2Proof.Machine
end

