-- ==== Sys2Proof/Machine/Manage.lean ====
section
/-! DEFINITION. The management commands (chapter 07): partitions, contexts, queues, firmware activation and module reset, as queue
0 or the security processor runs them. Each one either ends its command with a status or leaves it running. -/

namespace Sys2Proof.Machine
open Sys2Proof

/-- Ends the command of a queue. -/
def done (s : State) (q : Nat) (st : Status) : State := finishCommand s q st 0 0 0
/-- A refusal of R159 is entered in the log and gives POLICY_DENIED. -/
def refuse (s : State) (q code part : Nat) : State := done (logIt s 2 (statusCode .policyDenied) part 0 code 0) q .policyDenied
/-- Leaves the command waiting for clusters or queues. -/
def waitOn (s : State) (q : Nat) (l : List Nat) : State :=
  modQueue s q (fun v => { v with running := v.running.map (fun r => { r with waitFor := l, since := s.ns }) })

/-! ## Partitions (R160 to R163) -/

/-- Clusters of a mask. -/
def maskClusters (m : Nat) : List Nat := (List.range 64).filter (bit m)
/-- A length or base in units of 1 GiB. -/
def giB (n : Nat) : Bool := n % 2 ^ 30 == 0
/-- Check 2 of R160 on clusters and slices. -/
def sliceFieldsOk (s : State) (mask hb hl cb cl : Nat) : Bool :=
  decide (2 ≤ (maskClusters mask).length) && (maskClusters mask).all (enabled s) && giB hb && giB hl && giB cb && giB cl
    && hl != 0 && decide (hb + hl ≤ reservedBase) && isCap cb && decide (cb + cl ≤ capBase + capBytes)
/-- A slice of another partition meets one of these. -/
def slicesTaken (s : State) (part hb hl cb cl : Nat) : Bool :=
  s.parts.any (fun p => p.2.live && p.1 != part && (rangesMeet p.2.hbmBase p.2.hbmLen hb hl || rangesMeet p.2.capBase p.2.capLen cb cl))
/-- A key range meets that of another partition, or key index 0. -/
def keysTaken (s : State) (part first count : Nat) : Bool :=
  first == 0 || s.parts.any (fun p => p.2.live && p.1 != part && rangesMeet p.2.keyFirst p.2.keyCount first count)

/-- PARTITION_CREATE (R160). -/
def partitionCreate (s : State) (q : Nat) (e : Bytes) : State :=
  let w := le e 0x20 4
  let part := bits w 4 0
  let limit := bits (le e 0x24 4) 12 0
  let mask := le e 0x28 8
  let (hb, hl, cb, cl) := (le e 0x30 8, le e 0x38 8, le e 0x40 8, le e 0x48 8)
  let (kf, kc) := (le e 0x50 1, le e 0x51 1)
  if (partOf s part).live then done s q .busy
  else if w / 2 ^ 10 != 0 || le e 0x24 4 / 2 ^ 13 != 0 || le e 0x52 2 != 0 || !sliceFieldsOk s mask hb hl cb cl || kc == 0
      || decide (256 < kf + kc) || decide (16 < bits w 9 5) || limit == 0 || decide (4096 < limit) then done s q .descInvalid
  else if !(maskClusters mask).all (clusterFree s) then done s q .busy
  else if slicesTaken s part hb hl cb cl || keysTaken s part kf kc then refuse s q 0x40 part
  else
    let s := setPart s part
      { live := true, clusters := maskClusters mask, hbmBase := hb, hbmLen := hl, capBase := cb, capLen := cl, keyFirst := kf,
        keyCount := kc, skimUnits := bits w 9 5, ctxLimit := limit }
    let s := (maskClusters mask).foldl (fun s n => modCluster s n (fun k => { k with partition := some part, idleAt := some (k.idleAt.getD s.ns) })) s
    done s q .ok

/-- A context of the partition maps a byte of a removed range. -/
def removedMapped (s : State) (part hb hl0 hl1 cb cl0 cl1 : Nat) : Bool :=
  (contextsOf s part).any (fun c => (ctxLeaves s c).any (fun l =>
    (physGrans (leafPhys l.1 l.2.1) (leafBytes l.1)).any (fun g => granInSlices hb hl0 cb cl0 g && !granInSlices hb hl1 cb cl1 g)))

/-- PARTITION_RESIZE (R161, R162): it waits for the clusters that leave. -/
def partitionResize (s : State) (q : Nat) (e : Bytes) : State :=
  let part := bits (le e 0x20 4) 4 0
  let mask := le e 0x28 8
  let (hl, cl) := (le e 0x38 8, le e 0x48 8)
  let p := partOf s part
  let new := maskClusters mask
  let added := new.filter (fun n => !p.clusters.contains n)
  let removed := p.clusters.filter (fun n => !new.contains n)
  if !p.live then done s q .descInvalid
  else if p.busy.isSome then done s q .busy
  else if le e 0x20 4 / 2 ^ 5 != 0 || !sliceFieldsOk s mask p.hbmBase hl p.capBase cl then done s q .descInvalid
  else if !added.all (clusterFree s) then done s q .busy
  else if slicesTaken s part p.hbmBase hl p.capBase cl then refuse s q 0x41 part
  else if removedMapped s part p.hbmBase p.hbmLen hl p.capBase p.capLen cl then done s q .busy
  else
    let s := modPart s part (fun p => { p with clusters := new })
    let s := added.foldl (fun s n => modCluster s n (fun k => { k with partition := some part, idleAt := some (k.idleAt.getD s.ns) })) s
    progress (waitOn (dtSettle (removed.foldl beginRemoval s)) q removed)

/-- PARTITION_RESET (R178). DESIGN CHOICE: it is BUSY too where a reset or destroy handles only one of the partition's contexts
(R179 speaks of the object that the command names). -/
def partitionReset (s : State) (q : Nat) (e : Bytes) : State :=
  let part := bits (le e 0x20 4) 4 0
  if !(partOf s part).live || le e 0x20 4 / 2 ^ 5 != 0 then done s q .descInvalid
  else if (partOf s part).busy.isSome || (contextsOf s part).any (fun c => (ctxOf s c).stopping.isSome) then done s q .busy
  else
    let s := modPart s part (fun p => { p with busy := some q })
    progress ((contextsOf s part).foldl (fun s c => beginContextEnd s c .abortedByReset) s)

/-- PARTITION_DESTROY (R163). A log without room for the session-ended entries refuses it (R368). -/
def partitionDestroy (s : State) (q : Nat) (e : Bytes) : State :=
  let part := bits (le e 0x20 4) 4 0
  if !(partOf s part).live || le e 0x20 4 / 2 ^ 5 != 0 then done s q .descInvalid
  else if (partOf s part).busy.isSome || decide (65536 < (partOf s part).log.length + (s.sp.sessions.filter (fun x => x.2.partition == part)).length) then
    done s q .busy
  else
    let s := modPart s part (fun p => { p with busy := some q })
    let s := (contextsOf s part).foldl (fun s c => beginContextEnd s c .abortedByDestroy) s
    progress (((s.sp.sessions.filter (fun x => x.2.partition == part)).map (·.1)).foldl beginSessionEnd s)

/-! ## Contexts (R164, R165, R177, R178) -/

/-- `n` bytes of the interleaved view lie in a partition's HBM slice. -/
def inHbmSlice (p : Partition) (a n : Nat) : Bool := decide (p.hbmBase ≤ a) && decide (a + n ≤ p.hbmBase + p.hbmLen)

/-- CONTEXT_CREATE (R164). -/
def contextCreate (s : State) (q : Nat) (e : Bytes) : State :=
  let w := le e 0x20 4
  let ctx := bits w 11 0
  let part := bits w 20 16
  let ses := le e 0x24 2
  let (root, tt) := (le e 0x28 8, le e 0x30 8)
  let count := bits (le e 0x38 4) 16 0
  let p := partOf s part
  if (ctxOf s ctx).live || (p.live && (decide (p.ctxLimit ≤ (contextsOf s part).length) || p.busy.isSome)) then done s q .busy
  else if !p.live || bits w 15 12 != 0 || w / 2 ^ 21 != 0 || le e 0x26 2 != 0 || root % 4096 != 0 || tt % 64 != 0 || count == 0
      || decide (65536 < count) || le e 0x38 4 / 2 ^ 17 != 0 then done s q .descInvalid
  else if !inHbmSlice p root 4096 || !inHbmSlice p tt (64 * count)
      || !((sesOf s ses).any (fun v => v.partition == part && v.state != .ended)) then done s q .policyDenied
  else
    let s := setCtx s ctx { live := true, partition := part, session := ses, ptRoot := root, ttBase := tt, tensors := count }
    -- DESIGN CHOICE (log entry 47): the root table is zero-filled, as a table that a MAP consumes
    let s := zeroTable s root
    done (markTable (markTable s ctx root 4096) ctx tt (64 * count)) q .ok

/-- CONTEXT_RESET and CONTEXT_DESTROY: a context that another one handles is BUSY; a destroy takes over from a reset (R179). -/
def contextEnd (s : State) (q : Nat) (e : Bytes) (st : Status) : State :=
  let ctx := bits (le e 0x20 4) 11 0
  let c := ctxOf s ctx
  if !c.live || le e 0x20 4 / 2 ^ 12 != 0 then done s q .descInvalid
  else if (partOf s c.partition).busy.isSome || (c.stopping.isSome && !(st == .abortedByDestroy && (c.stopping.map (·.1)) == some .abortedByReset)) then
    done s q .busy
  else progress (beginContextEnd s ctx st)

/-- CONTEXT_FAULT_READ (R165, Table 7.8). -/
def contextFaultRead (s : State) (q : Nat) (e : Bytes) : State :=
  let ctx := bits (le e 0x20 4) 11 0
  let c := ctxOf s ctx
  if !c.live || le e 0x20 4 / 2 ^ 12 != 0 then done s q .descInvalid
  else if c.stopping.isSome || (partOf s c.partition).busy.isSome then done s q .busy
  else
    let code := match c.faultSt with | some st => statusCode st | none => 0
    let s := if bit (le e 0x24 4) 0
      then setCtx s ctx { c with faultSt := none, faultQ := 0, faultCmd := 0, faultAt := 0, faults := 0 } else s
    finishCommand s q .ok (code + c.faults % 65536 * 2 ^ 16) (c.faultQ % 16384 + c.faultCmd % 65536 * 2 ^ 16) c.faultAt

/-! ## Queues (R166, R167, R176) -/

/-- QUEUE_CREATE: queue at 0x20, words 0 and 1 of Table 7.6 at 0x24 and 0x28, the bases at 0x30 and 0x38. -/
def queueCreate (s : State) (q : Nat) (e : Bytes) : State :=
  let id := bits (le e 0x20 4) 13 0
  let (w0, w1) := (le e 0x24 4, le e 0x28 4)
  let ctx := bits w0 27 16
  let (sq, cq) := (bits w1 20 16, bits w1 25 21)
  let (sb, cb) := (le e 0x30 8, le e 0x38 8)
  let c := ctxOf s ctx
  let v := queueOf s id
  if id != 0 && v.valid then done s q .busy
  else if le e 0x20 4 / 2 ^ 14 != 0 || id == 0 || bits w0 2 0 != 0 || bits w0 15 6 != 0 || w0 / 2 ^ 28 != 0 || bits w1 15 12 != 0
      || w1 / 2 ^ 26 != 0 || sq < 4 || 16 < sq || cq < 4 || 16 < cq || sb % 4096 != 0 || cb % 4096 != 0 || !c.live then done s q .descInvalid
  else if c.stopping.isSome || (partOf s c.partition).busy.isSome then done s q .busy
  else
    let same := v.session == c.session
    done (setQueue s id
      { valid := true, prio := bits w0 5 3, context := ctx, msix := bits w1 10 0, msixEn := bit w1 11, sqLog2 := sq, cqLog2 := cq,
        sqBase := sb, cqBase := cb, phase := true, session := c.session, seqIn := if same then v.seqIn else 0,
        seqOut := if same then v.seqOut else 0 }) q .ok

/-- The data queue that a command names; queue 0 and a queue that does not exist give DESC_INVALID. -/
def namedQueue (s : State) (e : Bytes) : Option Nat :=
  let id := bits (le e 0x20 4) 13 0
  if le e 0x20 4 / 2 ^ 14 = 0 ∧ id ≠ 0 ∧ (queueOf s id).valid = true then some id else none

/-- A reset or destroy handles the queue's context. -/
def queueBusy (s : State) (id : Nat) : Bool := (ctxOf s (queueOf s id).context).stopping.isSome

/-- QUEUE_DESTROY. -/
def queueDestroy (s : State) (q : Nat) (e : Bytes) : State :=
  match namedQueue s e with
  | none => done s q .descInvalid
  | some id =>
    if queueBusy s id then done s q .busy
    else progress (waitOn (modQueue s id (fun v => { v with state := .stopping, abortAs := some .aborted, abortTo := v.sqTail })) q [id])

/-- QUEUE_FLUSH. DESIGN CHOICE (log entry 52): the SQ tail that a flush, a destroy or a reset takes is the one that the hub has served;
an entry behind a kept doorbell (R166) is not submitted yet. -/
def queueFlush (s : State) (q : Nat) (e : Bytes) : State :=
  match namedQueue s e with
  | none => done s q .descInvalid
  | some id =>
    if queueBusy s id || (queueOf s id).state == .stopping then done s q .busy
    else progress (waitOn (modQueue s id (fun v => { v with state := .held, flushTo := some v.sqTail })) q [id])

/-- QUEUE_RESUME. -/
def queueResume (s : State) (q : Nat) (e : Bytes) : State :=
  match namedQueue s e with
  | none => done s q .descInvalid
  | some id =>
    if queueBusy s id || (queueOf s id).state == .stopping then done s q .busy
    else done (modQueue s id (fun v => { v with state := .enabled })) q .ok

/-- QUEUE_SET_PRIO: the new PRIO at 0x24 [2:0]. -/
def queueSetPrio (s : State) (q : Nat) (e : Bytes) : State :=
  match namedQueue s e with
  | none => done s q .descInvalid
  | some id =>
    if le e 0x24 4 / 8 ≠ 0 then done s q .descInvalid
    else if queueBusy s id then done s q .busy
    else done (modQueue s id (fun v => { v with prio := le e 0x24 4 })) q .ok

/-- QUEUE_DESTROY_TIMEOUT: a command that still runs 2 ms after the destroy is force-aborted. -/
def execQueueDestroyTimeout (queue : Nat) (s : State) : Host.Outcome State Fault Refusal :=
  match destroySince s queue with
  | some t => if t + 2000000 ≤ s.ns then .next (progress (stopQueue s queue .aborted)) else .next s
  | none => .next s

/-! ## Firmware and module reset (R159, R180, R181) -/

/-- FW_ACTIVATE: the target at 0x20. Target 0 waits until no key operation is in flight. -/
def fwCommand (s : State) (q : Nat) (e : Bytes) : State :=
  if 2 ≤ le e 0x20 4 then done s q .descInvalid
  else if le e 0x20 4 = 0 ∧ keyOpInFlight s = true then { s with sp := { s.sp with fwWait := true } }
  else let (st, s) := fwActivate s (le e 0x20 4); done s q st

/-- MODULE_RESET: refused while a debug session is open (R159, R393); it writes no completion entry. -/
def resetCommand (s : State) (q : Nat) : State :=
  if s.sp.debugOpen.isSome then refuse s q 0x5A 0 else tryPowerUp (moduleReset s)

/-- The management commands by opcode. -/
def manage (s : State) (q : Nat) (e : Bytes) : State :=
  match opcodeOf e with
  | 0x40 => partitionCreate s q e
  | 0x41 => partitionResize s q e
  | 0x42 => partitionReset s q e
  | 0x43 => partitionDestroy s q e
  | 0x48 => contextCreate s q e
  | 0x49 => contextEnd s q e .abortedByReset
  | 0x4A => contextEnd s q e .abortedByDestroy
  | 0x4B => contextFaultRead s q e
  | 0x50 => queueCreate s q e
  | 0x51 => queueDestroy s q e
  | 0x52 => queueFlush s q e
  | 0x53 => queueResume s q e
  | 0x54 => queueSetPrio s q e
  | 0x58 => powerSet s q e
  | 0x59 => fwCommand s q e
  | 0x5A => resetCommand s q
  | _ => done s q .descInvalid

end Sys2Proof.Machine
end

