-- ==== Sys2Proof/Machine/Submission.lean ====
section
/-! DEFINITION. Queues at work (R166 to R173): doorbells and the queue cache, the fetch of a submission entry and what its command
does, completion entries, and the events that end PRIME and UNMAP. -/

namespace Sys2Proof.Machine
open Sys2Proof

/-! ## The queue cache (R166) -/

/-- A data queue is pinned: a running command, or entries not yet fetched. -/
def pinned (v : Queue) : Bool := v.valid && (v.running.isSome || v.sqHead != v.sqTail)
/-- Data queues in the cache. -/
def cachedQueues (s : State) : List (Nat × Queue) := s.queues.filter (fun q => q.1 != 0 && q.1 != mgmtQueue && q.2.valid && q.2.cached)
/-- Pinned entries of the cache. -/
def pinnedCount (s : State) : Nat := ((cachedQueues s).filter (fun q => pinned q.2)).length
/-- Follows the watermark source of pinned entries. -/
def markPinned (s : State) : State := setLevel s 1 (pinnedCount s)

/-- Makes a queue the most recently used. DESIGN CHOICE (log entry 30): a doorbell and the load of an entry are uses, since each needs
the cached entry to be there; fetches and completions, of which R166 says nothing, do not change the order. -/
def touchQueue (s : State) (q : Nat) : State :=
  let top := s.queues.foldl (fun m (x : Nat × Queue) => max m x.2.lastUse) 0
  modQueue s q (fun v => { v with cached := true, lastUse := top + 1 })

/-- Loads the entry of a queue, evicting the least recently used unpinned one; false where every entry is pinned. -/
def loadQueue (s : State) (q : Nat) : Bool × State :=
  let l := cachedQueues s
  if l.length < 512 then (true, touchQueue s q)
  else
    let free := l.filter (fun x => !pinned x.2)
    match free.foldl (fun (b : Option (Nat × Queue)) x => match b with
        | none => some x
        | some y => if x.2.lastUse < y.2.lastUse then some x else some y) none with
    | none => (false, s)
    | some x =>
      let s := modQueue s x.1 (fun v => { v with cached := false })
      (true, touchQueue { s with regs := { s.regs with qcEvict := satAdd 32 s.regs.qcEvict 1 } } q)

/-- Serves kept doorbells while an entry can be loaded, queues ascending. -/
def serveWaiting (s : State) : State :=
  ((s.queues.filter (fun q => q.2.valid && (q.2.waiting.isSome || q.2.waitingCq.isSome))).map (·.1)).foldl (fun s q =>
    match loadQueue s q with
    | (true, s) => modQueue s q (fun x => { x with
        sqTail := x.waiting.getD x.sqTail, cqHead := x.waitingCq.getD x.cqHead, waiting := none, waitingCq := none })
    | (false, s) => s) s

/-! ## Doorbells (R168, R179) -/

/-- A dropped doorbell is counted and raises DB_DROP. -/
def dropDoorbell (s : State) (q value : Nat) : State :=
  pulseEvent { s with regs := { s.regs with dbDrop := satAdd 32 s.regs.dbDrop 1 } } pgSched 0 [(0, q), (1, value)]
/-- The hub serves doorbells and fetches of a queue: out of reset and, in STANDBY, queue 0 alone (R422). -/
def hubServes (s : State) (q : Nat) : Bool := s.pow.resetDone && (s.pow.state == .active || (s.pow.state == .standby && q == 0))
/-- The context of a data queue is being destroyed: its doorbells have no effect (Table 7.10 step 1). -/
def doorbellDead (s : State) (q : Nat) : Bool :=
  q != 0 && ((ctxOf s (queueOf s q).context).stopping.map (·.1)) == some .abortedByDestroy

/-- Keeps a doorbell that no entry can be loaded for, and counts it. DESIGN CHOICE: a later value for the same queue and ring
replaces the one kept. -/
def keepDoorbell (s : State) (q : Nat) (f : Queue → Queue) : State :=
  { modQueue s q f with regs := { s.regs with dbWait := satAdd 32 s.regs.dbWait 1 } }

/-- A write of the SQ tail of a queue. -/
def sqTailWrite (s : State) (queue value : Nat) : State :=
  let v := queueOf s queue
  if !hubServes s queue || 16384 ≤ queue then s
  else if !v.valid || decide (2 ^ v.sqLog2 ≤ value) then dropDoorbell s queue value
  else if doorbellDead s queue then s
  else if queue = 0 then setQueue s 0 { v with sqTail := value }
  else if v.cached then markPinned (modQueue (touchQueue s queue) queue (fun v => { v with sqTail := value }))
  else
    let s := { s with regs := { s.regs with qcMiss := satAdd 32 s.regs.qcMiss 1 } }
    match loadQueue s queue with
    | (true, s) => markPinned (modQueue s queue (fun v => { v with sqTail := value }))
    | (false, s) => keepDoorbell s queue (fun v => { v with waiting := some value })

/-- SQ_TAIL_DOORBELL. -/
def execSqTailDoorbell (queue value : Nat) (s : State) : Host.Outcome State Fault Refusal := .next (sqTailWrite s queue value)

/-- A write of the CQ head of a queue: completion entries are consumed. -/
def cqHeadWrite (s : State) (queue value : Nat) : State :=
  let v := queueOf s queue
  let n := 2 ^ v.cqLog2
  if !hubServes s queue || 16384 ≤ queue then s
  else if !v.valid || decide (n ≤ value) || decide ((v.cqTail + n - v.cqHead) % n < (value + n - v.cqHead) % n) then dropDoorbell s queue value
  else if doorbellDead s queue then s
  else if queue = 0 || v.cached then setQueue s queue { v with cqHead := value }
  else
    let s := { s with regs := { s.regs with qcMiss := satAdd 32 s.regs.qcMiss 1 } }
    match loadQueue s queue with
    | (true, s) => modQueue s queue (fun v => { v with cqHead := value })
    | (false, s) => keepDoorbell s queue (fun v => { v with waitingCq := some value })

/-- CQ_HEAD_DOORBELL. -/
def execCqHeadDoorbell (queue value : Nat) (s : State) : Host.Outcome State Fault Refusal := .next (cqHeadWrite s queue value)

/-! ## Fetch (R169 to R172, R176) -/

/-- Opcodes of data queues, and those with a body. -/
def dataOp (op : Nat) : Bool := op ≤ 8
def mgmtOp (op : Nat) : Bool := [0x40, 0x41, 0x42, 0x43, 0x48, 0x49, 0x4A, 0x4B, 0x50, 0x51, 0x52, 0x53, 0x54, 0x58, 0x59, 0x5A].contains op
def bodyOp (op : Nat) : Bool := op == 2 || op == 3
/-- Requests whose only issuer in LOCAL mode is the security processor (Table 7.2). -/
def localOp (op : Nat) : Bool := (decide (0x40 ≤ op) && decide (op ≤ 0x43)) || (decide (0x58 ≤ op) && decide (op ≤ 0x5A))

/-- The header of a submission entry is well formed on a queue (R170, R171, Table 7.7). DEDUCED: with no body there are no
ciphertext bytes, so BODY_LEN is 0 as well. -/
def headerOk (q : Nat) (e : Bytes) : Bool :=
  let op := le e 0 1
  let body := bit (le e 0 4) 8
  (if q = 0 then mgmtOp op else dataOp op) && body == bodyOp op && bits (le e 0 4) 15 9 == 0 && le e 4 4 == q
    && le e 8 8 % 64 == 0 && (body || (le e 8 8 == 0 && le e 0x10 3 == 0 && le e 0x18 8 == 0)) && le e 0x10 3 % 64 == 0 && le e 0x13 1 == 0 && le e 0x14 4 == 0

/-- Room in the completion ring for one more entry. -/
def cqRoom (v : Queue) : Bool := (v.cqTail + 2 ^ v.cqLog2 - v.cqHead) % 2 ^ v.cqLog2 + 1 < 2 ^ v.cqLog2

/-- The hub fetches the next entry of a queue. -/
def mayFetch (s : State) (q : Nat) : Bool :=
  let v := queueOf s q
  hubServes s q && !s.pow.failed && v.valid && queueIdle s q && v.sqHead != v.sqTail && cqRoom v && decide (q < 16384)
    && (q == 0 || v.cached) && (q == 0 || !s.pow.dustSheet)
    && (match v.abortAs with
      | some _ => v.sqHead != v.abortTo
      | none => match v.state with
        | .enabled => true
        | .held => v.flushTo.isSome && v.flushTo != some v.sqHead
        | .stopping => false)

/-- The command of an entry that is not started. -/
def freshRunning (s : State) (e : Bytes) : Running :=
  { entry := e, status := none, info0 := 0, info1 := 0, result := 0, phase := 0, since := s.ns, granules := [], addr := none, waitFor := [] }

/-- Ends a data command with its status, fault address and INFO0. -/
def doneAt (s : State) (q : Nat) (st : Status) (addr : Option Nat) (info0 : Nat) : State :=
  finishCommand (modQueue s q (fun v => { v with running := v.running.map (fun r => { r with addr := addr }) })) q st info0 0 0

/-- A COPY that has bound its use runs on until COMMAND_COMPLETION; one refused at its start has completed. -/
def copyStart (q : Nat) (r : Status × Option CopyUse × State) : State :=
  if r.1 = .ok then modQueue r.2.2 q (fun v => { v with running := v.running.map (fun x => { x with use := r.2.1 }) })
  else doneAt r.2.2 q r.1 none 0
/-- The COPY that a queue runs moves its data and its use ends; while the hub's accesses wait, in the dust-sheet state too, it goes
on. -/
def copyFinish (s : State) (q : Nat) : State :=
  let v := queueOf s q
  match v.running with
  | none => s
  | some r =>
    match r.use with
    | none => s
    | some u =>
      if r.status.isSome then endUse (modQueue s q (fun v => { v with running := some { r with use := none } })) u.slot
      else if dieWaits s hubDie || s.pow.dustSheet then s
      else
        let (st, a, s) := if opcodeOf r.entry = 0x02 then copyInEnd s v.context r.entry u else copyOutEnd s q v.context r.entry u
        let s := endUse s u.slot
        doneAt (modQueue s q (fun v => { v with running := v.running.map (fun r => { r with use := none }) })) q st a 0

/-- The data commands by opcode (Table 7.9). -/
def dataCommand (s : State) (q : Nat) (e : Bytes) (body : Option Body) (busError : Bool) : State :=
  let ctx := (queueOf s q).context
  match opcodeOf e with
  | 0x00 => doneAt s q .ok none 0
  | 0x01 => modQueue s q (fun v => { v with planWait := some (le e 0x20 8, le e 0x28 1) })
  | 0x02 => copyStart q (withBody s q 0 e busError (fun s => copyIn s q ctx e body))
  | 0x03 => copyStart q (withBody s q 1 e busError (fun s => copyOut s ctx e busError))
  | 0x04 => let (st, s) := tensorCreate s ctx e; doneAt s q st none 0
  | 0x05 => let (st, s) := tensorDestroy s ctx e; doneAt s q st none 0
  | 0x06 =>
    let (st, a, grans) := primeCheck s ctx e
    -- the pages are walked up to the one that faults (R202)
    let va := le e 0x20 8
    let s := walkRange s ctx va (match a with | some x => x + 1 - va | none => le e 0x28 8)
    if st = .ok then modQueue s q (fun v => { v with running := v.running.map (fun r => { r with granules := grans }) }) else doneAt s q st a 0
  | 0x07 => let (st, info, s) := mapPages s ctx e; doneAt s q st none info
  | _ =>
    let (st, out, s) := unmapPages s ctx e
    if st = .ok ∧ !out.isEmpty then { s with mem := { s.mem with outstanding := s.mem.outstanding ++ out.map (fun r => (q, r)) } }
    else doneAt s q st none 0

/-- SUBMISSION_FETCH: the hub consumes the next entry of a queue and its command starts, or completes at once with the status of
a reset, a destroy, a failed ring access, a bad header or a wrong issuer. -/
def execSubmissionFetch (queue : Nat) (entry : Bytes) (body : Option Body) (busError : Bool) (s : State) : Host.Outcome State Fault Refusal :=
  if !mayFetch s queue then .next s
  else
    let s := modQueue s queue (fun v => { v with sqHead := (v.sqHead + 1) % 2 ^ v.sqLog2, running := some (freshRunning s entry) })
    let named := bit (le entry 0 4) 8
    let abort := (queueOf s queue).abortAs
    -- a PLAN_SUBMIT that never starts has no task that sets its status (Table 7.8)
    let unstarted := fun (st : Status) => doneAt s queue st none (if opcodeOf entry = 0x01 then 0xFFFFFFFF else 0)
    let s := match abort with
      | some st => unstarted st
      | none =>
        if busError && !named then unstarted .aborted
        else if !headerOk queue entry then unstarted .descInvalid
        else if queue = 0 then
          if localOp (le entry 0 1) && s.sp.authority == 0 then done s 0 .policyDenied else manage s 0 entry
        else dataCommand s queue entry body busError
    .next (progress s)

/-! ## Completion (R165, R169, Table 7.8) -/

/-- The 32 bytes of a completion entry. -/
def completionBytes (q : Nat) (v : Queue) (r : Running) (st : Status) : Bytes :=
  leBytes 4 (le r.entry 2 2 + b2n v.phase * 2 ^ 16) ++ leBytes 4 (q % 16384 + statusCode st * 2 ^ 16) ++ leBytes 4 r.info0
    ++ leBytes 4 r.info1 ++ leBytes 8 r.result ++ leBytes 4 v.sqHead ++ leBytes 4 0

/-- Task index of a command's fault report: the task that set the status of a PLAN_SUBMIT; no other command has one. DEDUCED. -/
def faultTask (r : Running) : Nat := if opcodeOf r.entry = 1 ∧ r.info0 ≠ 0xFFFFFFFF then r.info0 else 0

/-- COMMAND_COMPLETION: the command of a queue has ended, a COPY with this: its completion entry is written, then MSI-X is sent; a data command
that did not succeed is a reported fault of its context. A request of the security processor is answered instead. -/
def execCommandCompletion (queue : Nat) (s : State) : Host.Outcome State Fault Refusal :=
  let s := copyFinish s queue
  let v := queueOf s queue
  match v.running with
  | none => .next s
  | some r =>
    match r.status with
    | none => .next s
    | some st =>
      if queue = mgmtQueue then .next (answerSp (setQueue s queue { v with running := none }) st [r.info0, r.info1, r.result] [])
      else
        let s := hostWrite s (v.cqBase + 32 * v.cqTail) (completionBytes queue v r st)
        let t := (v.cqTail + 1) % 2 ^ v.cqLog2
        let s := setQueue s queue { v with running := none, cqTail := t, phase := if t = 0 then !v.phase else v.phase }
        let s := if v.msixEn then sendMsix s v.msix else s
        let s := if queue ≠ 0 ∧ !st.success then reportFault s v.context st queue (le r.entry 2 2) (faultTask r) r.addr else s
        .next (progress (markPinned (serveWaiting s)))

/-! ## PRIME and UNMAP (R204, R206) -/

/-- PRIME_BITS_SET: every write accepted before has landed and no zero-fill of the granules runs: their bits are set. -/
def execPrimeBitsSet (queue : Nat) (s : State) : Host.Outcome State Fault Refusal :=
  match (queueOf s queue).running with
  | none => .next s
  | some r =>
    let filling := r.granules.any (fun g => match tlook s.mem.granules g with | some x => x.filling | none => false)
    if r.status.isSome || queue == 0 || opcodeOf r.entry != 0x06 || filling || s.pow.dustSheet then .next s
    else .next (progress (doneAt (r.granules.foldl primeGranule s) queue .ok none 0))

/-- UNMAP_ACCESS_TIMEOUT: the accesses through the old leaves have completed, or 100 µs have passed and they end with ABORTED; the
UNMAP completes. -/
def execUnmapAccessTimeout (queue : Nat) (s : State) : Host.Outcome State Fault Refusal :=
  match (queueOf s queue).running with
  | none => .next s
  | some r =>
    let mine := (s.mem.outstanding.filter (fun o => o.1 == queue)).map (·.2)
    let left := mine.filter (fun m => (heldRequests s).contains m)
    if r.status.isSome || queue == 0 || opcodeOf r.entry != 0x08 || (!left.isEmpty && decide (s.ns < r.since + 100000)) then .next s
    else
      let s := { s with
        mem := { s.mem with
          outstanding := s.mem.outstanding.filter (fun o => o.1 != queue)
          granules := s.mem.granules.map (fun (g : Nat × Granule) => (g.1, { g.2 with waiting := g.2.waiting.filter (fun q => !left.contains q.req) })) }
        pow := { s.pow with domains := s.pow.domains.map (fun (d : Nat × Domain) => (d.1, { d.2 with reqs := d.2.reqs.filter (fun q => !left.contains q.req) })) } }
      let s := if left.isEmpty then s else setAnswer s .aborted []
      .next (progress (doneAt s queue .ok none 0))

end Sys2Proof.Machine
end

