-- ==== Sys2Proof/Machine/Fabric.lean ====
section
/-! DEFINITION. Received Lath packets (R246 to R260, R443): the command of each request, responses, retransmission, completion
records, loans, and the link layer of a port. -/

namespace Sys2Proof.Machine
open Sys2Proof

/-! ## Commands -/

/-- The module's receive path runs: powered and out of reset. -/
def receiving (s : State) (rx : Rx) : Bool := live s && portUp s rx.port

/-- The command's packet is of its operation; a header with no known OP is dropped under whatever command brings it. -/
def opFits (rx : Rx) (op : Nat) : Bool := rx.pkt.op == op || (opVc rx.pkt.op).isNone
/-- The same for a subtype of ATOMIC or COLL. -/
def subFits (rx : Rx) (op sub : Nat) : Bool := (rx.pkt.op == op && rx.pkt.asub == sub) || (opVc rx.pkt.op).isNone

/-- STORE: a write of up to 64 bytes (R253). -/
def execStore (rx : Rx) (s : State) : Host.Outcome State Fault Refusal :=
  .next (if receiving s rx && opFits rx 0x01 then receiveRequest s rx else s)
/-- PUT: a write of up to 4,096 bytes, or of none (R253, R260). -/
def execPut (rx : Rx) (s : State) : Host.Outcome State Fault Refusal :=
  .next (if receiving s rx && opFits rx 0x02 then receiveRequest s rx else s)
/-- LOAD: a read of up to 64 bytes (R253). -/
def execLoad (rx : Rx) (s : State) : Host.Outcome State Fault Refusal :=
  .next (if receiving s rx && opFits rx 0x03 then receiveRequest s rx else s)
/-- GET: a read of up to 4,096 bytes (R253). -/
def execGet (rx : Rx) (s : State) : Host.Outcome State Fault Refusal :=
  .next (if receiving s rx && opFits rx 0x04 then receiveRequest s rx else s)
/-- FETCH_ADD (R249). -/
def execFetchAdd (rx : Rx) (s : State) : Host.Outcome State Fault Refusal :=
  .next (if receiving s rx && subFits rx 0x05 0 then receiveRequest s rx else s)
/-- COMPARE_SWAP (R249). -/
def execCompareSwap (rx : Rx) (s : State) : Host.Outcome State Fault Refusal :=
  .next (if receiving s rx && subFits rx 0x05 1 then receiveRequest s rx else s)
/-- LEASE_ACQUIRE (R251). -/
def execLeaseAcquire (rx : Rx) (s : State) : Host.Outcome State Fault Refusal :=
  .next (if receiving s rx && subFits rx 0x05 2 then receiveRequest s rx else s)
/-- LEASE_RELEASE (R251). -/
def execLeaseRelease (rx : Rx) (s : State) : Host.Outcome State Fault Refusal :=
  .next (if receiving s rx && subFits rx 0x05 3 then receiveRequest s rx else s)
/-- RESP: delivered to the request pending under its XID toward its source (R248, R254); one that lands data in memory waits for a
link that trains or holds its frames (R229). -/
def execResp (rx : Rx) (s : State) : Host.Outcome State Fault Refusal :=
  if !(receiving s rx && opFits rx 0x10) then .next s
  else match rxFirst s rx with
    | (false, s) => .next (passBuffer s rx)
    | (true, s) => if landingWaits s rx.pkt then .next (holdLink s rx) else .next (fwProgress (deliver (passBuffer s rx) rx))

/-! ## Timers (R253, R255, R443, R232) -/

/-- An operation completes with RETRY_EXHAUSTED by the exhaustion of a request: one that has not failed or ended already (monitor 6
counts operations, Table 13.1). -/
def exhausts (s : State) (xid : Nat) (q : Pending) : Bool :=
  match q.by' with
  | .dma core tok => (opOfToken (coreOf s core) tok).isSome
  | .grout part group tag => (groutOf s part group tag).isSome
  | .trowel => s.fab.trowel.any (fun t => t.failed.isNone && t.xids.contains xid)
  | .ckpt i => (linkOf s i).any (fun t => t.failed.isNone && t.xids.contains xid)
  | _ => true
/-- The operation of a request ends at once with RETRY_EXHAUSTED. -/
def exhaustRequest (s : State) (xid : Nat) : State :=
  match tlook s.fab.pending xid with
  | none => s
  | some q =>
    let s := if exhausts s xid q then countMonitor s 6 else s
    match q.by' with
    | .dma core tok => endLath (dropPending s xid) core tok .retryExhausted
    | _ => answerRequest s xid .retryExhausted

/-- RESP_TIMEOUT: retransmission, or after the seventh RETRY_EXHAUSTED (R255); the timers stand in the dust-sheet state. A
destination that has left the domain ends the request with STALE_EPOCH (R271). -/
def execRespTimeout (node xid : Nat) (s : State) : Host.Outcome State Fault Refusal :=
  match tlook s.fab.pending xid with
  | none => .next s
  | some q =>
    if q.pkt.dstNode ≠ node ∨ s.pow.dustSheet = true ∨ s.ns < q.sentAt + s.regs.respTimeout * 1000 then .next s
    else if !(nodeOf s node).member then .next (fwProgress (pumpEverything (sendAgain s xid (q.tries + 1))))
    else if q.tries < 7 then .next (fwProgress (pumpEverything (sendAgain (countLinkExc s) xid (q.tries + 1))))
    else .next (fwProgress (pumpEverything (exhaustRequest s xid)))

/-- COMPLETION_RECORD_EXPIRY: a record is kept for 1 ms (R255). -/
def execCompletionRecordExpiry (node xid : Nat) (s : State) : Host.Outcome State Fault Refusal :=
  let l := s.fab.records.filter (fun r => !(r.node == node && r.xid == xid && decide (r.at' + 1000000 ≤ s.ns)))
  .next (setLevel { s with fab := { s.fab with records := l } } 2 l.length)

/-- EPOCH_HOLD_TIMEOUT: a request held for 100 µs for a newer epoch is answered BUSY (check 5). -/
def execEpochHoldTimeout (node xid : Nat) (s : State) : Host.Outcome State Fault Refusal :=
  match s.fab.heldEpoch.find? (fun h => h.rx.pkt.srcNode == node && h.rx.pkt.xid == xid && decide (h.at' + 100000 ≤ s.ns)) with
  | none => .next s
  | some h =>
    let s := bufferOut { s with fab := { s.fab with heldEpoch := s.fab.heldEpoch.filter (· != h) } } h.rx.port h.rx.pkt
    .next (answerVia s h.rx.port h.rx.pkt .busy []).2

/-- LOAN_RECLAIM: a loan is reclaimed at its expiry plus 10 µs (R443). -/
def execLoanReclaim (node : Nat) (s : State) : Host.Outcome State Fault Refusal :=
  match tlook s.fab.loansOut node with
  | none => .next s
  | some l =>
    if s.fab.plumb.time < l.expiry + 10000 then .next s
    else
      let t := tdel s.fab.loansOut node
      .next (setLevel { s with fab := { s.fab with loansOut := t } } 11 ((t.map (fun p => p.2.units)).foldl (· + ·) 0))

/-- LATH_KEY_RETIRE: 1 s of Plumb time after every member has moved, the old index is zeroized (R232 step 4). -/
def execLathKeyRetire (key : Nat) (s : State) : Host.Outcome State Fault Refusal :=
  match (keyOf s key).retire with
  | none => .next s
  | some t => if s.fab.plumb.time < t + 1000000000 then .next s else .next (clearReplay (zeroizeKey s key) key)

/-! ## The link layer of a port (R238, R239) -/

/-- Retrains a port: its unacknowledged frames wait to be replayed (R239). -/
def retrainPort (s : State) (p : Nat) : State :=
  let s := modPort s p (fun v => { v with retrain := satAdd 32 v.retrain 1, retry := v.retry.map (fun f => { f with replays := 0 }) })
  countMonitor (movePort s p .training) 3

/-- The unacknowledged frames of a port are replayed (R238, R239): each is counted, and is a link-recovery exception. -/
def replayAll (s : State) (port : Nat) : State :=
  let n := (portOf s port).retry.length
  let s := modPort s port (fun v => { v with replay := satAdd 32 v.replay n, retry := v.retry.map (fun f => { f with replays := f.replays + 1 }) })
  { s with pow := { s.pow with linkExc := satAdd 16 s.pow.linkExc n } }

/-- PORT_TRAINING_COMPLETE: UP, and unacknowledged frames are replayed; or DOWN; the third failure in a row gives FAILED (R239,
Table 10.2). -/
def execPortTrainingComplete (port : Nat) (ok : Bool) (s : State) : Host.Outcome State Fault Refusal :=
  if (portOf s port).state ≠ .training then .next s
  else if ok then
    let s := movePort (modPort s port (fun v => { v with fails := 0 })) port .up
    .next (pumpEverything (pumpPort (replayAll s port) port))
  else
    let n := (portOf s port).fails + 1
    let s := modPort s port (fun v => { v with fails := n })
    if n < 3 then .next (downPort s port) else .next (countMonitor (clearPort (movePort s port .failed) port) 4)

/-- LINK_FRAME_RECEIVE: FEC, CRC and tag; a frame that fails one is counted and NAKed, a good one in sequence is
acknowledged (R238). -/
def execLinkFrameReceive (port seq : Nat) (fecOk fecFixed crcOk tagOk : Bool) (s : State) : Host.Outcome State Fault Refusal :=
  if (portOf s port).state ≠ .up then .next s
  else
    let s := modPort s port (fun v =>
      if !fecOk then { v with fecUncorr := satAdd 32 v.fecUncorr 1, naks := v.naks + 1 }
      else
        let v := if fecFixed then { v with fecCorr := satAdd 32 v.fecCorr 1 } else v
        if !crcOk then { v with crc := satAdd 32 v.crc 1, naks := v.naks + 1 }
        else if !tagOk then { v with gcm := satAdd 32 v.gcm 1, naks := v.naks + 1 }
        else if seq = v.rxSeq then { v with rxSeq := (v.rxSeq + 1) % 4096 } else v)
    .next (if fecOk && crcOk && tagOk then s else countLinkExc s)

/-- LINK_NAK_RECEIVE: the frame is replayed from the retry buffer; its eighth unacknowledged replay starts a retrain. -/
def execLinkNakReceive (port seq : Nat) (s : State) : Host.Outcome State Fault Refusal :=
  let v := portOf s port
  if v.state ≠ .up then .next s
  else match v.retry.find? (fun f => f.seq == seq) with
    | none => .next s
    | some f =>
      let s := modPort s port (fun v => { v with replay := satAdd 32 v.replay 1, retry := v.retry.map (fun g => if g.seq = seq then { g with replays := g.replays + 1 } else g) })
      let s := countLinkExc s
      if 8 ≤ f.replays + 1 then .next (retrainPort s port) else .next s

/-- LINK_ACK_RECEIVE: a cumulative acknowledgement frees the frames up to it, and credits return, with which waiting
frames go in the order of arbitration (R238, R256). -/
def execLinkAckReceive (port seq : Nat) (credits : List Nat) (s : State) : Host.Outcome State Fault Refusal :=
  let v := portOf s port
  if v.state ≠ .up then .next s
  else
    let retry := match v.retry.findIdx? (fun f => f.seq == seq) with | some i => v.retry.drop (i + 1) | none => v.retry
    let cr := (List.range 5).foldl (fun (t : Tab Nat) vc => tput 0 t vc (tget 0 t vc - nth credits vc)) v.credits
    .next (pumpPort (setPort s port { v with retry := retry, credits := cr }) port)

end Sys2Proof.Machine
end

