-- ==== Sys2Proof/Machine/SpReq.lean ====
section
/-! DEFINITION. The path of requests into the security processor (R348 to R350): requester classes, the management issuer,
the checks that every request passes, and its answer. -/

namespace Sys2Proof.Machine
open Sys2Proof

/-- The island has power and the security processor runs. -/
def spRuns (s : State) : Bool := s.pow.state != .off

/-- The management issuer: the platform in LOCAL mode, the driver in HOST mode (R348). -/
def isIssuer (s : State) (v : Spdm) : Bool := if s.sp.authority = 0 then v.cls == .platform else v.cls == .driver
/-- An authenticated VL1 security processor. -/
def isPeer (v : Spdm) : Bool := match v.cls with | .peer _ => true | _ => false
/-- Index of an owner in a session's manifest, if the requester is one. -/
def ownerIndex (v : Spdm) (m : Manifest) : Option Nat :=
  match v.cls with
  | .owner d => m.ownerIds.findIdx? (fun x => x == d)
  | _ => none
/-- The requester is an owner of a session that is open on the module. -/
def ownsSession (s : State) (v : Spdm) (ses : Nat) : Bool :=
  match sesOf s ses with
  | some x => x.state != .ended && (ownerIndex v x.manifest).isSome
  | none => false
/-- The requester is an owner of some session. -/
def isOwner (v : Spdm) : Bool := match v.cls with | .owner _ => true | _ => false

/-- Changes a secured session. -/
def setSpdm (s : State) (sess : Nat) (v : Spdm) : State := { s with sp := { s.sp with spdm := tins s.sp.spdm sess v } }
/-- A SESSION_END or a checkpoint request that came in a secured session has not completed. -/
def outstanding (s : State) (sess : Nat) : Bool :=
  s.sp.sessions.any (fun x => x.2.asker == some sess && (x.2.endReq || x.2.ckptBusy))
/-- A request of a secured session must not complete before an earlier one of it (R350). -/
def heldBack (s : State) (sess : Nat) (v : Spdm) : Bool := outstanding s sess || !v.late.isEmpty
/-- Requests of one session complete in order (R350): behind one that has not completed, the answer of the next is kept until it
has. -/
def inOrder (s : State) (sess : Nat) (v : Spdm) (f : State → State) : State :=
  if heldBack s sess v then
    let t := f { s with sp := { s.sp with answer := none } }
    let u := { t with sp := { t.sp with answer := s.sp.answer } }
    match t.sp.answer, tlook t.sp.spdm sess with
    | some a, some w => setSpdm u sess { w with late := w.late ++ [a] }
    | _, _ => u
  else f s
/-- An answer that waited is given, one at a time: the earlier request of its session has completed. -/
def lateTick (s : State) : State :=
  match s.sp.spdm.find? (fun x => !x.2.late.isEmpty && !outstanding s x.1) with
  | some (i, v) => setSpdm { s with sp := { s.sp with answer := v.late.head? } } i { v with late := v.late.drop 1 }
  | none => s

/-- A vendor request with a code of Table 14.1: it comes in a secured session whose PQ_SIGNs have verified (R365), not while
a target-0 FW_ACTIVATE waits or runs (R350), from a class that Table 14.1 accepts (R349). In INVALID and SCRAP it
completes with NOT_READY (R383, R389). One that meets life-cycle programming waits for its end (Table 15.7). -/
def request (s : State) (sess : Nat) (allow : Spdm → Bool) (f : Spdm → State → State) : Host.Outcome State Fault Refusal :=
  if !spRuns s then .next s
  else
    let s := settleProgramming s
    if lcHalted s then .next (answerSp s .notReady [] [])
    else match tlook s.sp.spdm sess with
      | none => .next s
      | some v => .next (inOrder s sess v (fun s =>
          if !(v.finished && v.pqSigned) then answerSp s .policyDenied [] []
          else if s.sp.fwWait then answerSp s .busy [] []
          else if !allow v then answerSp s .policyDenied [] []
          else f v s))

/-- Accepted from every class. -/
def anyone (_ : Spdm) : Bool := true

/-- Answers a request that gives nothing back but its status. -/
def answerReq (r : Status × State) : State := answerSp r.2 r.1 [] []

end Sys2Proof.Machine
end

