-- ==== Sys2Proof/Machine/Domain.lean ====
section
/-! DEFINITION. Plumb time, PPS and scheduled lanes (R261 to R269, R474, R475), and the domain's membership: the Node Map,
epochs, forming and joining a domain (R270 to R276, R347). -/

namespace Sys2Proof.Machine
open Sys2Proof

/-- Changes the Plumb unit. -/
def setPlumb (s : State) (p : Plumb) : State := { s with fab := { s.fab with plumb := p } }
/-- Changes the membership record. -/
def setMember (s : State) (m : Member) : State := { s with fab := { s.fab with member := m } }

/-- The first live node of a list (R262, R272). -/
def firstLive (s : State) (l : List Nat) : Option Nat := l.find? (fun n => (nodeOf s n).member)
/-- This module is the grandmaster. -/
def isGrandmaster (s : State) : Bool := s.fab.member.isMember && firstLive s s.fab.member.grandmasters == some s.fab.member.node
/-- This module is the coordinator. -/
def isCoordinator (s : State) : Bool := s.fab.member.isMember && firstLive s s.fab.member.coordinators == some s.fab.member.node

/-! ## VC4 packets (R245) -/

/-- Accepts a VC4 packet: the module is in a domain, the tag passes under the domain control key, the header is well formed,
the counter is new, the source is a member. A tag that fails is counted; nothing is NAKed for it. -/
def vc4Accept (s : State) (rx : Rx) (op : Nat) : Bool × State :=
  let p := rx.pkt
  let s := if live s && portUp s rx.port then passBuffer s rx else s
  if !(live s && portUp s rx.port) || s.fab.member.key.isNone then (false, s)
  else if !rx.tagOk then (false, modPort s rx.port (fun v => { v with gcm := satAdd 32 v.gcm 1 }))
  else if !wellFormedPacket p || p.keyIdx != 0 then (false, modPort s rx.port (fun v => { v with dropMalf := satAdd 32 v.dropMalf 1 }))
  else if p.op ≠ op then (false, s)
  else match replayCheck s p.srcNode 0 p.dir p.ctr with
    | (false, s) => (false, modPort s rx.port (fun v => { v with dropReplay := satAdd 32 v.dropReplay 1 }))
    | (true, s) => ((nodeOf s p.srcNode).member, s)

/-! ## LOCKED and the scheduled lanes (R264 to R269) -/

/-- Groups that have lane entries, with their partitions. -/
def laneGroups (s : State) : List (Nat × Nat) :=
  s.fab.lanes.foldl (fun l p => let k := (p.2.partition, p.2.group); if l.contains k then l else l ++ [k]) []
/-- Sends every waiting packet of the instances of a group on plain VC2. -/
def flushGroup (s : State) (part group : Nat) : State :=
  (s.fab.grouts.filter (fun g => g.partition == part && g.group == group)).foldl
    (fun s g => match groutOf s part group g.tag with
      | some g => flushGrout s g none g.outbox.length
      | none => s) s
/-- Posts SLOT_SLIP for a group: module ring and the contexts that own the group (Table 18.2). -/
def postSlip (s : State) (part group node : Nat) : State :=
  let c := match groupOf s part group with | some g => [g.context] | none => []
  postEvent s (moduleRing :: c) 0x0002 false part group node

/-- Withdraws from every scheduled lane (R267): SLOT_SLIP is posted for each group named, one timing exception is counted,
and the lanes' traffic goes as ordinary VC2. -/
def withdraw (s : State) (groups : List (Nat × Nat)) (node : Nat) : State :=
  if s.fab.plumb.withdrawn then s
  else
    let lanes := laneGroups s
    let s := levelEvent (setPlumb s { s.fab.plumb with withdrawn := true }) pgGrout 1 true []
    if lanes.isEmpty then s
    else
      let s := countLinkExc (groups.foldl (fun s g => postSlip s g.1 g.2 node) s)
      let held := s.fab.aborts
      let s := held.foldl (fun s h => postAbort s h none) { s with fab := { s.fab with aborts := [] } }
      lanes.foldl (fun s g => flushGroup s g.1 g.2) s

/-- The module's Plumb leaves LOCKED (R264): monitor 7 counts it, PPS_OUT goes low (R475), the lanes are left (R267) and the
slot leases that it holds as a sender lapse (R297). -/
def loseLock (s : State) : State :=
  if !s.fab.plumb.locked then s
  else
    let s := countMonitor (setPlumb s { s.fab.plumb with locked := false, ppsOut := none }) 7
    groutUnlocked (withdraw s (laneGroups s) s.fab.member.node)

/-- PLUMB_SYNC_TIMER: every 32 µs a member other than the grandmaster asks its time parent, and after four missed exchanges
the grandmaster (R263). -/
def execPlumbSyncTimer (s : State) : Host.Outcome State Fault Refusal :=
  let p := s.fab.plumb
  let m := s.fab.member
  if !live s || !m.isMember || isGrandmaster s || (p.lastSync != 0 && decide (s.ns < p.lastSync + 32000)) then .next s
  else
    let missed := if p.t1.isSome then p.missed + 1 else p.missed
    let dest := if 4 ≤ missed then (firstLive s m.grandmasters).getD (nodeOf s m.node).timeParent else (nodeOf s m.node).timeParent
    let s := setPlumb s { p with t1 := some p.time, missed := missed, lastSync := s.ns }
    .next (sendVc4 s 0x18 0 dest (leBytes 8 p.time))

/-- SYNC_REQ: a node whose Plumb time runs answers with t2, t3 and TB_EPOCH (R263); the last word carries the anchor within
its second, from which a child's PPS_OUT follows. -/
def execSyncReq (rx : Rx) (s : State) : Host.Outcome State Fault Refusal :=
  match vc4Accept s rx 0x18 with
  | (false, s) => .next s
  | (true, s) =>
    let p := s.fab.plumb
    if !p.running then .next s
    else .next (sendVc4 s 0x19 1 rx.pkt.srcNode
      (leBytes 8 p.time ++ leBytes 8 p.time ++ leBytes 2 p.epoch ++ leBytes 2 0 ++ leBytes 4 (p.anchor % 1000000000)))

/-- Takes a timebase epoch that is new here: TIMEBASE_EPOCH goes to the rings of every partition's contexts (R263). -/
def takeEpoch (s : State) (e : Nat) : State :=
  if s.fab.plumb.epoch = e then s
  else postEvent (setPlumb s { s.fab.plumb with epoch := e }) (allContexts s) 0x000A false 0 e 0

/-- SYNC_RESP: the first lock takes the parent's value; later exchanges slew toward the offset (R261, R263, R264). DESIGN CHOICE (log
entry 32): one successful exchange ends the count of missed ones, so a child that had moved to its backup parent asks its
TIME_PARENT again; R263 does not say whether or when it returns. -/
def execSyncResp (rx : Rx) (s : State) : Host.Outcome State Fault Refusal :=
  match vc4Accept s rx 0x19 with
  | (false, s) => .next s
  | (true, s) =>
    let p := s.fab.plumb
    match p.t1 with
    | none => .next s
    | some t1 =>
      let b := rx.pkt.payload
      let t2 := le b 0 8
      let t3 := le b 8 8
      let e := le b 16 2
      if isGrandmaster s then .next s
      else if !p.running then
        let s := setPlumb s { p with running := true, time := t3, anchor := le b 20 4, anchored := true, locked := true, offset := 0,
                                     slew := 0, lastOk := s.ns, goodSince := s.ns, missed := 0, t1 := none }
        .next (takeEpoch s e)
      else
        let off : Int := (((t2 : Int) - t1) - ((p.time : Int) - t3)) / 2
        let good := decide (off.natAbs < 16)
        let was := decide (p.offset.natAbs < 16)
        let s := setPlumb s { p with offset := off, slew := off, lastOk := s.ns, missed := 0, t1 := none,
                                     goodSince := if good && was then p.goodSince else s.ns,
                                     anchor := if p.epoch = e then p.anchor else le b 20 4,
                                     ppsNext := if p.epoch = e then p.ppsNext else 0 }
        let s := takeEpoch s e
        if off.natAbs < 1000 then .next (setPlumb s { s.fab.plumb with locked := true }) else .next (loseLock s)

/-- PLUMB_LOCK_LOSS: the last successful exchange is 10 ms old (R264). -/
def execPlumbLockLoss (s : State) : Host.Outcome State Fault Refusal :=
  if isGrandmaster s || decide (s.ns < s.fab.plumb.lastOk + 10000000) then .next s else .next (loseLock s)

/-- Starts Plumb time at a node that becomes grandmaster while it is stopped (R261); a grandmaster is LOCKED. -/
def crownGrandmaster (s : State) : State :=
  if !isGrandmaster s then s
  else
    let p := s.fab.plumb
    if p.running then setPlumb s { p with locked := true, offset := 0, slew := 0, t1 := none, goodSince := if p.locked then p.goodSince else s.ns }
    else setPlumb s { p with running := true, time := 0, epoch := 0, anchor := 0, anchored := false, locked := true, goodSince := s.ns, t1 := none }

/-- Distance of a Plumb time from the nearest expected edge A + k × 10^9 (R262): positive when it lies after the edge. -/
def edgeError (p : Plumb) : Int :=
  let d : Int := ((p.time : Int) - p.anchor) % 1000000000
  if d < 500000000 then d else d - 1000000000

/-- PPS_IN_EDGE: an edge less than 0.5 s after the last accepted one is discarded and counted (R474). The grandmaster anchors
epoch 0 at its first edge, slews toward an edge within 1 µs, and starts a new timebase epoch at any other (R262). -/
def execPpsInEdge (s : State) : Host.Outcome State Fault Refusal :=
  let p := s.fab.plumb
  let early := match p.ppsLast with | some t => decide (s.ns < t + 500000000) | none => false
  if early then .next (setPlumb s { p with ppsDrop := p.ppsDrop + 1 })
  else
    let s := setPlumb s { p with ppsLast := some s.ns }
    let p := s.fab.plumb
    if !isGrandmaster s || !p.running then .next s
    else if !p.anchored then .next (setPlumb s { p with anchor := p.time, anchored := true, ppsNext := 0 })
    else if (edgeError p).natAbs < 1000 then .next (setPlumb s { p with slew := -(edgeError p) })
    else .next (takeEpoch (setPlumb s { p with anchor := p.time, ppsNext := 0 }) ((p.epoch + 1) % 65536))

/-- PPS_OUT_PULSE: Plumb time has reached A + k × 10^9, and a LOCKED module raises PPS_OUT for 100 ms (R475). -/
def execPpsOutPulse (s : State) : Host.Outcome State Fault Refusal :=
  let p := s.fab.plumb
  if p.running && p.locked && decide (p.anchor + p.ppsNext * 1000000000 ≤ p.time) then
    .next (setPlumb s { p with ppsOut := some s.ns, ppsNext := (p.time - p.anchor) / 1000000000 + 1 })
  else .next s
/-- Level of PPS_OUT (R475). -/
def ppsOutLevel (s : State) : Bool :=
  s.fab.plumb.locked && (match s.fab.plumb.ppsOut with | some t => decide (s.ns < t + 100000000) | none => false)

/-- A scheduled packet lies in a receive slot of its group (R266): its last byte arrives now, its first byte as much earlier as
its frame takes at 100 bytes a nanosecond. -/
def inSlot (s : State) (l : Lane) (p : Packet) : Bool :=
  let last := (s.fab.plumb.time + 4000 - (l.start + l.flight) % 2000) % 2000
  let first := (s.fab.plumb.time + 4000 - frameBytes p / 100 - (l.start + l.flight) % 2000 + 32) % 2000
  decide (first ≤ l.length + 64) && (decide (last ≤ l.length + 32) || decide (1968 ≤ last))

/-- A received COLL packet with SCHED = 1 outside its slot: SLOT_SLIP goes to its source, once per frame and source, and is
counted (R266). -/
def slipCheck (s : State) (rx : Rx) : State :=
  let p := rx.pkt
  let lanes := lanesOf s (keyOf s p.keyIdx).partition p.window
  if !p.sched || p.op != 8 || lanes.isEmpty || lanes.any (fun l => inSlot s l.2 p) then s
  else
    let frame := s.fab.plumb.time / 2000
    let m := s.fab.member
    if m.slipFrames.contains (p.srcNode, frame) then s
    else
      let s := setMember s { m with slipFrames := (p.srcNode, frame) :: m.slipFrames.filter (fun x => x.2 == frame) }
      let s := modPort s rx.port (fun v => { v with slip := satAdd 32 v.slip 1 })
      sendVc4 s 0x1A 0 p.srcNode (leBytes 4 p.window ++ leBytes 4 (keyOf s p.keyIdx).partition)

/-- SLOT_SLIP: the sender withdraws from its scheduled lanes; during a withdrawal it is only counted (R267). -/
def execSlotSlip (rx : Rx) (s : State) : Host.Outcome State Fault Refusal :=
  match vc4Accept s rx 0x1A with
  | (false, s) => .next s
  | (true, s) =>
    let s := modPort s rx.port (fun v => { v with slip := satAdd 32 v.slip 1 })
    .next (withdraw s [(le rx.pkt.payload 4 4, le rx.pkt.payload 0 4)] rx.pkt.srcNode)

/-- SCHEDULED_LANE_RETURN: at a frame boundary, once the offset has stayed below 16 ns for 1 ms (R267). -/
def execScheduledLaneReturn (s : State) : Host.Outcome State Fault Refusal :=
  let p := s.fab.plumb
  if p.withdrawn && p.locked && decide (p.offset.natAbs < 16) && decide (p.goodSince + 1000000 ≤ s.ns) && p.time % 2000 == 0 then
    .next (levelEvent (setPlumb s { p with withdrawn := false }) pgGrout 1 false [])
  else .next s

/-- A port sends a packet of VC2 at once: no frame of VC2 waits there, and the credits of VC2 suffice. -/
def sendsNow (v : Port) (p : Packet) : Bool :=
  v.waiting.all (fun f => f.pkt.vc != 2) && decide (tget 0 v.credits 2 + pktCredits p ≤ vcBuffer 2)
/-- The lane's ports that send a packet at once and on which it still ends in the slot, as a mask; `room` holds the bytes that a
port has left. -/
def roomyPorts (s : State) (mask : Nat) (room : Tab Nat) (p : Packet) : Nat :=
  (List.range 32).foldl (fun m q =>
    if bit mask q && decide (frameBytes p ≤ tget 0 room q) && sendsNow (portOf s q) p then m + 2 ^ q else m) 0
/-- The lane's ports for a packet in a slot and the one of them that it takes, if any. -/
def lanePort (s : State) (mask : Nat) (room : Tab Nat) (p : Packet) : Option (Nat × Nat) :=
  let m := roomyPorts s mask room p
  let key := (pairActive s p.keyIdx).getD p.keyIdx
  let sent := (flowOf s.fab.txFlows p.srcNode p.dstNode p.vc key).sent
  (choosePort s (upPorts s ((nodeOf s p.dstNode).portMask &&& m)) p.dstNode sent).map (fun q => (m, q))
/-- Sends the ABORTs of a group that wait, in a lane's slot. -/
def laneAborts (s : State) (part group mask : Nat) (room : Tab Nat) : Tab Nat × State :=
  (s.fab.aborts.filter (fun h => h.partition == part && h.group == group)).foldl (fun (r : Tab Nat × State) h =>
    match lanePort r.2 mask r.1 h.pkt with
    | none => r
    | some (m, q) =>
      (tput 0 r.1 q (tget 0 r.1 q - frameBytes h.pkt), postAbort { r.2 with fab := { r.2.fab with aborts := r.2.fab.aborts.erase h } } h (some m)))
    (room, s)
/-- Sends waiting packets of an instance in a lane's slot, at most `n`, each on a port where it still ends in the slot. -/
def laneFlush (s : State) (part group tag mask : Nat) (room : Tab Nat) : Nat → Tab Nat × State
  | 0 => (room, s)
  | n + 1 =>
    match groutOf s part group tag with
    | none => (room, s)
    | some g =>
      match g.outbox with
      | [] => (room, s)
      | p :: _ =>
        match lanePort s mask room p with
        | none => (room, s)
        | some (m, q) => laneFlush (flushGrout s g (some m) 1) part group tag mask (tput 0 room q (tget 0 room q - frameBytes p)) n

/-- LANE_SLOT_START: the lane's waiting COLL packets go with SCHED = 1 on the lane's ports, no earlier than START + 64 and
finished by START + LENGTH - 64 (R265), at 100 bytes a nanosecond on each port. A module whose Plumb is not LOCKED leaves its
lanes instead (R267). -/
def execLaneSlotStart (lane : Nat) (s : State) : Host.Outcome State Fault Refusal :=
  match tlook s.fab.lanes lane with
  | none => .next s
  | some l =>
    let now := s.fab.plumb.time % 2000
    if !live s || s.fab.plumb.withdrawn then .next s
    else if !s.fab.plumb.locked then .next (withdraw s (laneGroups s) s.fab.member.node)
    else if decide (now < l.start + 64) || decide (l.start + l.length < now + 64) then .next s
    else
      let room := (upPorts s l.portMask).map (fun q => (q, (l.start + l.length - 64 - now) * 100))
      let (room, s) := laneAborts s l.partition l.group l.portMask room
      .next ((s.fab.grouts.filter (fun g => g.partition == l.partition && g.group == l.group)).foldl
        (fun (r : Tab Nat × State) g => laneFlush r.2 g.partition g.group g.tag l.portMask r.1 g.outbox.length) (room, s)).2

/-! ## Membership (R270 to R276) -/

/-- Members of the domain in the Node Map. -/
def members (s : State) : List Nat := (s.fab.nodes.filter (fun p => p.2.member)).map (·.1)
/-- The Node Map after a record's entries. -/
def mapAfter (t : Tab Node) (l : List NodeChange) : Tab Node :=
  l.foldl (fun t c => tput {} t c.node ⟨c.phys, c.member, c.admitEpoch, c.timeParent, c.portMask⟩) t
/-- R273: a module with LOCAL authority refuses more than 256 members. -/
def tooMany (s : State) (t : Tab Node) : Bool := s.sp.authority == 0 && decide (256 < (t.filter (fun p => p.2.member)).length)
/-- An admission record verifies against the manifest of a session that this module holds (R374): K_ADMIT owners have approved it
with signatures that verify, or, with REPLACE_AUTO, the identity of an admitted member has signed it. -/
def admissionOk (s : State) (a : Admission) : Bool :=
  s.sp.sessions.any (fun x =>
    let m := x.2.manifest
    let good := ((List.range m.owners).filter (fun o => a.approvals.contains (o, true))).length
    x.2.id == a.session && x.2.state == .running
      && (decide (m.kAdmit ≤ good) || (m.replaceAuto && a.member.any (fun d => d.2 && x.2.members.any (fun y => y.2 == d.1)))))
/-- R347, for an entry of an update: one that admits a module under an identity, or gives the identity a new PHYS, needs MEMBER = 0
now, ADMIT_EPOCH equal to the update's epoch, and an admission record that verifies and names them. -/
def entryOk (s : State) (epoch : Nat) (c : NodeChange) : Bool :=
  let n := nodeOf s c.node
  if !c.member && n.phys == c.phys then true
  else if n.member && n.phys == c.phys then c.admitEpoch == n.admitEpoch
  else !n.member && c.admitEpoch == epoch
    && c.admission.any (fun a => admissionOk s a && a.phys == c.phys && a.epoch == epoch)

/-- Roll count of a Lath pair in force, if either index holds a key. -/
def pairRoll (s : State) (even : Nat) : Option Nat :=
  [even, even + 1].foldl (fun (b : Option Nat) k =>
    let c := keyOf s k
    if c.state = .active ∧ c.cls = 2 then some (max (b.getD 0) c.roll) else b) none
/-- Lath pairs of sessions to which a node belonged, with the highest roll count installed (R233 step 1). -/
def rollBounds (s : State) (node : Nat) : List (Nat × Nat × Nat × Nat) :=
  (List.range 128).filterMap (fun j =>
    match pairRoll s (2 * j) with
    | none => none
    | some r =>
      let k := if (keyOf s (2 * j)).state = .active then keyOf s (2 * j) else keyOf s (2 * j + 1)
      match sesOf s k.session with
      | some x => if x.members.any (fun m => m.1 == node) then some (node, k.session, 2 * j, r) else none
      | none => none)

/-- The pairwise keys with the coordinators of the list stand in slots 0xFA to 0xFD (R357). -/
def loadPairKeys (s : State) : State :=
  let m := s.fab.member
  ((List.range 4).zip m.coordinators).foldl (fun s x => loadSlot s (0xFA + x.1) 7 (Config.pairKey x.2 m.node) 0 0 0 1 (2 ^ 48 - 1)) s
/-- The slots of the current and of the next domain control key (R357). -/
def domainSlot : Nat := 0xF8
def nextDomainSlot : Nat := 0xF9
/-- The next domain control key stands in its slot until its epoch is applied. -/
def holdNextKey (s : State) (key : BitVec 256) : State := loadSlot s nextDomainSlot 7 key 0 0 0 1 (2 ^ 48 - 1)
/-- A new domain control key becomes the current one: VC4 counters and replay state restart with it (R245, R357). -/
def newDomainKey (s : State) (key : BitVec 256) : State :=
  let s := emptySlot (holdNextKey s key) nextDomainSlot
  let s := clearReplay (loadSlot s domainSlot 7 key 0 0 0 1 (2 ^ 48 - 1)) 0
  setMember s { s.fab.member with key := some key, ctr0 := 0, ctr1 := 0 }

/-- Applies a membership record of the next epoch in one step (R272): the Node Map, the lists, the key, and what follows from
a node's removal. -/
def applyRecord (s : State) (r : MembRecord) (key : BitVec 256) : State :=
  let gone := (r.nodes.filter (fun c => !c.member && (nodeOf s c.node).member)).map (·.node)
  let bounds := gone.flatMap (rollBounds s)
  let adm := r.nodes.filterMap (fun c => c.admission.bind (fun a => if admissionOk s a then some (c.node, a.phys, a.epoch, a.identity) else none))
  let m := s.fab.member
  let t := mapAfter s.fab.nodes r.nodes
  let s := { s with fab := { s.fab with
    nodes := t,
    member := { m with
      epoch := r.epoch, isMember := (tget {} t m.node).member,
      grandmasters := if r.grandmasters.isEmpty then m.grandmasters else r.grandmasters,
      coordinators := if r.coordinators.isEmpty then m.coordinators else r.coordinators,
      admitted := m.admitted ++ adm, rMaxes := m.rMaxes ++ bounds } } }
  let s := newDomainKey (if s.fab.member.coordinators = m.coordinators then s else loadPairKeys s) key
  let s := if gone.isEmpty then s else countMonitor s 10
  let s := groutStale s
  let s := (s.parts.map (·.1)).foldl (fun s p => match (partOf s p).level with
    | some l => if gone.contains l.peer then levelLost s p else s
    | none => s) s
  crownGrandmaster s

/-- What becomes possible once a record has been applied: held requests, waiting packets. -/
def afterEpoch (s : State) : State := pumpEverything (releaseEpoch s)

/-- EPOCH_UPDATE: a member applies the update of the next epoch from the first live coordinator and answers EPOCH_ACK; it
discards and counts any other, and refuses one that R273 or R347 forbids (R272). The key arrives wrapped under the pairwise key with
that coordinator, whose slot counts the use (R361; exhausted, it is no use and the epoch is not applied); where it does not
unwrap, the key is a free value (DESIGN CHOICE: no rule says what follows). -/
def execEpochUpdate (rx : Rx) (record : MembRecord) (s : State) : Host.Outcome State Fault Refusal :=
  match vc4Accept s rx 0x1B with
  | (false, s) => .next s
  | (true, s) =>
    let m := s.fab.member
    let ack := fun (s : State) (st : Status) (e : Nat) => sendVc4 s 0x1C 1 rx.pkt.srcNode (leBytes 4 (statusCode st) ++ leBytes 4 e)
    if !m.isMember || firstLive s m.coordinators != some rx.pkt.srcNode || record.epoch != m.epoch + 1 then
      .next (modPort s rx.port (fun v => { v with epochDisc := satAdd 32 v.epochDisc 1 }))
    else if tooMany s (mapAfter s.fab.nodes record.nodes) || !record.nodes.all (entryOk s record.epoch) then
      .next (ack (logIt s 2 (statusCode .policyDenied) 0 0 0x1B record.epoch) .policyDenied record.epoch)
    else
      let slot := 0xFA + m.coordinators.idxOf rx.pkt.srcNode
      match useSlot s slot 7 0 with
      | (.keyExhausted, s) => .next (ack s .keyExhausted record.epoch)
      | (_, s) =>
        let (f, s) := drawFree s
        let s := applyRecord s record ((aesUnwrap (slotKey (slotOf s slot)) record.wrapped).getD (f.truncate 256))
        .next (afterEpoch (ack s .ok record.epoch))

/-! ## The coordinator -/

/-- Members that an epoch still waits for: every member but this module and those that the epoch itself admitted. A coordinator that
did not send the current update has no acknowledgements to wait for (DESIGN CHOICE: they went to the module that sent it). -/
def unacked (s : State) : List Nat :=
  let m := s.fab.member
  if m.sentEpoch ≠ some m.epoch then []
  else (members s).filter (fun n => n != m.node && !m.acks.contains n && (nodeOf s n).admitEpoch != m.epoch)

/-- The bytes of an update as they travel (PRESUMED layout): epoch, count, wrapped key, lists, entries. -/
def recordBytes (r : MembRecord) : Bytes :=
  leBytes 4 r.epoch ++ leBytes 4 r.nodes.length ++ slice r.wrapped 0 40
    ++ (r.grandmasters.take 4).flatMap (leBytes 2) ++ (r.coordinators.take 4).flatMap (leBytes 2)
    ++ r.nodes.flatMap (fun c => leBytes 2 c.node ++ leBytes 4 (c.phys + b2n c.member * 2 ^ 24) ++ leBytes 4 c.admitEpoch
      ++ leBytes 2 c.timeParent ++ leBytes 4 c.portMask)
/-- The payloads that carry an update (PRESUMED layout): epoch, number of the piece, number of pieces, then up to 4,080 bytes. -/
def recordPieces (r : MembRecord) : List Bytes :=
  let b := recordBytes r
  let n := ceilDiv b.length 4080
  (List.range n).map (fun i => leBytes 4 r.epoch ++ leBytes 4 i ++ leBytes 4 n ++ leBytes 4 0 ++ (b.drop (4080 * i)).take 4080)

/-- Sends a requested update (R272): members that have not acknowledged are removed by it; the coordinator draws the new key,
sends the update to every remaining member and applies it itself. -/
def sendUpdate (s : State) (r : MembRecord) : State :=
  let late := unacked s
  let r := { r with nodes := r.nodes ++ (late.filter (fun n => !r.nodes.any (fun c => c.node == n))).map (fun n =>
    let e := nodeOf s n
    (⟨n, e.phys, false, e.admitEpoch, e.timeParent, e.portMask, none⟩ : NodeChange)) }
  let newcomers := (r.nodes.filter (fun c => c.member && !(nodeOf s c.node).member)).map (·.node)
  -- the key drawn at EPOCH_REQUEST, if the update had to wait
  let (k, s) := if (slotOf s nextDomainSlot).state = .loaded then ((slotKey (slotOf s nextDomainSlot)).zeroExtend 384, s) else draw s
  let dests := (members s).filter (fun n => n != s.fab.member.node && !r.nodes.any (fun c => c.node == n && !c.member))
  let updateFor := fun (n : Nat) => { r with wrapped := aesWrap (Config.pairKey s.fab.member.node n) (k.truncate 256) }
  let s := dests.foldl (fun s n => (recordPieces (updateFor n)).foldl (fun s b => sendVc4 s 0x1B 0 n b) s) s
  let s := setMember s { s.fab.member with asked := none, acks := [], sentAt := some s.ns, sentEpoch := some r.epoch, joins := newcomers }
  afterEpoch (applyRecord s r (k.truncate 256))

/-- The current update is acknowledged by all, or its time has passed: DOMAIN_JOIN goes to the modules it admitted, and a
waiting update follows. -/
def nextUpdate (s : State) : State :=
  let m := s.fab.member
  let s := if (unacked s).isEmpty then setMember s { m with joins := [], joined := m.joined ++ m.joins, sentAt := none }
    else setMember s { m with sentAt := none }
  match s.fab.member.asked with
  | some r => if drbgOk s && isCoordinator s then sendUpdate s r else s
  | none => s

/-- EPOCH_REQUEST: accepted by the coordinator, from the management issuer; the update goes out when every remaining member has
acknowledged the current one, or after 1 ms (R272). -/
def execEpochRequest (sess : Nat) (record : MembRecord) (s : State) : Host.Outcome State Fault Refusal :=
  request s sess (isIssuer s) (fun _ s =>
    let m := s.fab.member
    if !isCoordinator s then answerSp s .policyDenied [] []
    else if record.epoch ≠ m.epoch + 1 then answerSp s .descInvalid [] []
    else if tooMany s (mapAfter s.fab.nodes record.nodes) || !record.nodes.all (entryOk s record.epoch) then
      answerSp (logIt s 2 (statusCode .policyDenied) 0 0 0x11 record.epoch) .policyDenied [] []
    else if m.asked.isSome then answerSp s .busy [] []
    else if !drbgOk s then answerSp s .entropyNotReady [] []
    else
      let s := answerSp s .ok [] []
      if m.sentAt.isSome then
        let (k, s) := draw s
        setMember (holdNextKey s (k.truncate 256)) { m with asked := some record }
      else sendUpdate s record)

/-- EPOCH_ACK: the coordinator notes an acknowledgement of its epoch; one that carries POLICY_DENIED is none (R272, R273). -/
def execEpochAck (rx : Rx) (s : State) : Host.Outcome State Fault Refusal :=
  match vc4Accept s rx 0x1C with
  | (false, s) => .next s
  | (true, s) =>
    let m := s.fab.member
    let b := rx.pkt.payload
    if !isCoordinator s || m.sentAt.isNone || le b 4 4 != m.epoch || le b 0 4 != 0 || m.acks.contains rx.pkt.srcNode then .next s
    else
      let s := setMember s { m with acks := rx.pkt.srcNode :: m.acks }
      .next (if (unacked s).isEmpty then nextUpdate s else s)

/-- EPOCH_ACK_TIMEOUT: 1 ms after an update the coordinator goes on; the next update removes who has not acknowledged. -/
def execEpochAckTimeout (s : State) : Host.Outcome State Fault Refusal :=
  match s.fab.member.sentAt with
  | none => .next s
  | some t => if s.ns < t + 1000000 then .next s else .next (nextUpdate s)

/-- Enters a domain with a record as a logical node (R274). -/
def enterDomain (s : State) (node : Nat) (r : MembRecord) (key : BitVec 256) : State :=
  let s := setMember s { s.fab.member with node := node }
  afterEpoch (applyRecord s r key)
/-- The module is outside every domain (R274). -/
def outsideDomain (s : State) : Bool := !s.fab.member.isMember && s.fab.member.key.isNone

/-- DOMAIN_FORM: the module becomes the founder (R274 item 1), and DOMAIN_JOIN goes to every other listed node. -/
def execDomainForm (sess node : Nat) (record : MembRecord) (s : State) : Host.Outcome State Fault Refusal :=
  request s sess (isIssuer s) (fun _ s =>
    if record.epoch ≠ 1 ∨ 65536 ≤ node ∨ record.grandmasters.contains node = false ∨ record.coordinators.contains node = false
        ∨ 4 < record.grandmasters.length ∨ 4 < record.coordinators.length ∨ record.nodes.any (fun c => c.node == node && c.member) = false then
      answerSp s .descInvalid [] []
    else if !outsideDomain s then answerSp s .policyDenied [] []
    else if tooMany s (mapAfter [] record.nodes) then answerSp (logIt s 2 (statusCode .policyDenied) 0 0 0x19 record.epoch) .policyDenied [] []
    else if !drbgOk s then answerSp s .entropyNotReady [] []
    else
      let (k, s) := draw s
      let s := enterDomain { s with fab := { s.fab with nodes := [] } } node record (k.truncate 256)
      answerSp (setMember s { s.fab.member with joined := (members s).filter (· != node) }) .ok [] [])

/-- DOMAIN_JOIN: the module enters the domain whose record names its PHYS under the logical node (R274 item 2). -/
def execDomainJoin (sess node : Nat) (record : MembRecord) (key : BitVec 256) (s : State) : Host.Outcome State Fault Refusal :=
  request s sess isPeer (fun _ s =>
    let named := record.nodes.any (fun c => c.node == node && c.member && c.phys == s.fab.member.phys && c.admitEpoch == record.epoch)
    if !outsideDomain s || !named then answerSp s .policyDenied [] []
    else if tooMany s (mapAfter [] record.nodes) then answerSp (logIt s 2 (statusCode .policyDenied) 0 0 0x1A record.epoch) .policyDenied [] []
    else answerSp (enterDomain { s with fab := { s.fab with nodes := [] } } node record key) .ok [] [])

end Sys2Proof.Machine
end

