-- ==== Sys2Proof/Machine/Coll.lean ====
section
/-! DEFINITION. Received COLL packets (R293 to R299): the commands of chapter 11, each after the checks of Table 10.7 and the
slot check of R266. -/

namespace Sys2Proof.Machine
open Sys2Proof

/-- A received COLL packet: an authentic one that was sent in a scheduled lane is held against its slot (R266), then it is
served as a request. -/
def receiveColl (s : State) (rx : Rx) : State :=
  let authentic := rx.tagOk && wellFormedPacket rx.pkt && (keyOf s rx.pkt.keyIdx).cls == 2
  receiveRequest (if authentic then slipCheck s rx else s) rx

/-- REDUCE_DATA: a COLL data packet of a reduction (R296). -/
def execReduceData (rx : Rx) (s : State) : Host.Outcome State Fault Refusal :=
  .next (if receiving s rx && subFits rx 0x08 0 then receiveColl s rx else s)
/-- BCAST_DATA: a COLL data packet of a broadcast (R296). -/
def execBcastData (rx : Rx) (s : State) : Host.Outcome State Fault Refusal :=
  .next (if receiving s rx && subFits rx 0x08 1 then receiveColl s rx else s)
/-- CREDIT: grants chunks to this sender (R295). -/
def execCredit (rx : Rx) (s : State) : Host.Outcome State Fault Refusal :=
  .next (if receiving s rx && subFits rx 0x08 2 then receiveColl s rx else s)
/-- HOLD: renews the sender's slot lease (R297). -/
def execHold (rx : Rx) (s : State) : Host.Outcome State Fault Refusal :=
  .next (if receiving s rx && subFits rx 0x08 3 then receiveColl s rx else s)
/-- ABORT: ends the collective with the status that it carries (R299). -/
def execAbort (rx : Rx) (s : State) : Host.Outcome State Fault Refusal :=
  .next (if receiving s rx && subFits rx 0x08 4 then receiveColl s rx else s)

end Sys2Proof.Machine
end

