-- ==== Sys2Proof/Machine/KeyStore.lean ====
section
/-! DEFINITION. Entropy, the DRBG and the root secret (R351 to R354), key slots (R357 to R363), and the requests that bind,
roll, erase and sand key contexts (R221, R227, R232, R375). -/

namespace Sys2Proof.Machine
open Sys2Proof

/-! ## Entropy, DRBG, root secret -/

/-- The repetition count test finds a value `run` times in a row, 81 or more (R351). -/
def repeats (last run : Nat) : List Nat → Bool
  | [] => false
  | x :: rest =>
    let n := if x = last then run + 1 else 1
    decide (81 ≤ n) || repeats x n rest
/-- The repetition count test passes: cutoff 81 (R351). -/
def repetitionOk (l : List Nat) : Bool := match l with | [] => true | x :: rest => !repeats x 1 rest
/-- The adaptive proportion test passes: in no window of 512 samples does the first occur 434 times or more (R351). -/
def proportionOk (l : List Nat) : Bool :=
  (List.range (l.length / 512)).all (fun i =>
    let w := (l.drop (512 * i)).take 512
    decide (w.count (w.headD 0) < 434))
/-- Both continuous tests of SP 800-90B pass (R351). -/
def samplesOk (l : List Nat) : Bool := repetitionOk l && proportionOk l

/-- ENTROPY_STARTUP: 1,024 samples pass both tests and the DRBG is instantiated, or they fail; after three failures in a row
the service stays stopped until module reset, and this is logged (R351, R352). -/
def execEntropyStartup (samples : List Nat) (s : State) : Host.Outcome State Fault Refusal :=
  if s.pow.state = .off ∨ s.sp.stopped = true ∨ s.sp.entropyOk = true then .next s
  else if samples.length = 1024 ∧ samplesOk samples = true then
    .next (tryPowerUp { s with sp := { s.sp with entropyOk := true, drbgReady := true, startFails := 0, generates := 0, seededAt := s.ns } })
  else
    let n := s.sp.startFails + 1
    let s := { s with sp := { s.sp with startFails := n, stopped := decide (3 ≤ n) } }
    .next (if 3 ≤ n then logIt s 2 (statusCode .entropyNotReady) 0 0 0 n else s)

/-- ENTROPY_TEST_FAILURE: a continuous test fails, and the random service stops until start-up passes again (R352). -/
def execEntropyTestFailure (s : State) : Host.Outcome State Fault Refusal :=
  .next (if s.sp.entropyOk then { s with sp := { s.sp with entropyOk := false, drbgReady := false } } else s)

/-- DRBG_RESEED: after 2^16 generate calls or 1 s; without entropy the DRBG is unready until a reseed succeeds (R353). -/
def execDrbgReseed (entropyOk : Bool) (s : State) : Host.Outcome State Fault Refusal :=
  if !s.sp.entropyOk || s.sp.stopped then .next s
  else if s.sp.drbgReady && decide (s.sp.generates < 65536) && decide (s.ns < s.sp.seededAt + 1000000000) then .next s
  else if entropyOk then .next { s with sp := { s.sp with drbgReady := true, generates := 0, seededAt := s.ns } }
  else .next { s with sp := { s.sp with drbgReady := false } }

/-- An OTP bank holds a committed secret: its commit word is all ones (R354), and it has not been destroyed. -/
def bankHolds (b : BitVec 264) : Bool := b.toNat / 2 ^ 256 == 255 && b != BitVec.allOnes 264
/-- The root secret in use, if the module has one. -/
def rootBank (s : State) : Option (BitVec 264) :=
  if bankHolds s.sp.bankA then some s.sp.bankA else if bankHolds s.sp.bankB then some s.sp.bankB else none
/-- The identity digest of the module (R356). -/
def ownIdentity (s : State) : Digest := match rootBank s with | some b => identityOf b | none => 0

/-- ROOT_SECRET_GENERATE: in PROVISIONED, 256 bits and the commit word go into bank A; a bank A that is not blank and not
committed is abandoned for bank B, and with both abandoned there is no root secret, which is logged (R354). -/
def execRootSecretGenerate (s : State) : Host.Outcome State Fault Refusal :=
  if lcState s.sp.lcWord ≠ 2 ∨ (rootBank s).isSome = true ∨ spRuns s = false then .next s
  else if !drbgOk s then .next s
  else
    let (r, s) := draw s
    let b : BitVec 264 := BitVec.ofNat 264 (r.toNat % 2 ^ 256 + 255 * 2 ^ 256)
    if s.sp.bankA = 0 then .next { s with sp := { s.sp with bankA := b } }
    else if s.sp.bankB = 0 then .next { s with sp := { s.sp with bankB := b } }
    else .next (logIt s 2 (statusCode .notReady) 0 0 0 0)

/-! ## Slots -/

/-- SLOT_REMASK: each loaded slot's shares take a fresh mask; while the DRBG is not ready the pause is logged (R362). -/
def execSlotRemask (s : State) : Host.Outcome State Fault Refusal :=
  if !spRuns s then .next s
  else if !drbgOk s then .next (logIt s 2 (statusCode .entropyNotReady) 0 0 0 0)
  else
    let loaded := (s.sp.slots.filter (fun x => x.2.state == .loaded)).map (·.1)
    let s := loaded.foldl (fun s i =>
      let (r, s) := draw s
      let m : BitVec 256 := r.truncate 256
      modSlot s i (fun v => { v with share1 := v.share1 ^^^ m, share2 := v.share2 ^^^ m })) s
    .next { s with sp := { s.sp with remasks := s.sp.remasks + 1 } }

/-- A context that was waiting for the zeroization of its slots is FREE once none of them is ERASING (R227). -/
def freeZeroized (s : State) : State :=
  ((s.sp.keyCtxs.filter (fun x => x.2.state == .zeroizing)).map (·.1)).foldl (fun s k =>
    let c := keyOf s k
    if (slotOf s c.slotCur).state = .erasing ∨ (slotOf s c.slotOld).state = .erasing then s
    else
      let s := setKey s k (if c.cls = 2 then { gen := c.gen + 1, roll := c.roll, session := c.session } else { gen := c.gen + 1 })
      clearReplay s k) s

/-- SLOT_ZEROIZE: an ERASING slot is zeroized once its last bound use has ended (R360). -/
def execSlotZeroize (slot : Nat) (s : State) : Host.Outcome State Fault Refusal :=
  let v := slotOf s slot
  if v.state = .erasing ∧ v.bound = 0 then .next (fwProgress (freeZeroized (emptySlot s slot))) else .next s

/-- Marks a slot ERASING. -/
def eraseSlot (s : State) (slot : Nat) : State := modSlot s slot (fun v => if v.state = .loaded then { v with state := .erasing, eraseAt := s.ns } else v)

/-- Requests that wait under a key index complete with KEY_REVOKED (R213): those held at a power domain's router, those that
wait for a zero-fill, and Lath packets not yet sent. -/
def revokeWaiting (s : State) (key : Nat) : State :=
  let keep := fun (x : HeldMem) => x.req.key != key
  let held := s.pow.domains.any (fun d => d.2.reqs.any (fun x => !keep x)) || s.mem.granules.any (fun g => g.2.waiting.any (fun x => !keep x))
  { s with
    pow := { s.pow with domains := s.pow.domains.map (fun d => (d.1, { d.2 with reqs := d.2.reqs.filter keep })) },
    mem := { s.mem with granules := s.mem.granules.map (fun g => (g.1, { g.2 with waiting := g.2.waiting.filter keep })),
                        answer := if held then some (.keyRevoked, []) else s.mem.answer } }

/-- A tensor-table entry read before an IMMEDIATE erase of its key context. -/
def revokedTensor (key : Nat) (t : Option Tensor) : Option Tensor := t.map (fun x => if x.key = key then { x with key := key + 256 } else x)
/-- Operations of cores, prologue loads, COPYs, Grout and Trowel that are bound to a key context: the line accesses that they have
not begun complete with KEY_REVOKED from now on (R213). -/
def revokeBound (s : State) (key : Nat) : State :=
  let k := fun (x : Nat) => if x = key then key + 256 else x
  { s with
    cores := s.cores.map (fun c => (c.1, { c.2 with dma := c.2.dma.map (fun o =>
      { o with srcT := revokedTensor key o.srcT, dstT := revokedTensor key o.dstT }) }))
    plans := s.plans.map (fun p => (p.1, { p.2 with tasks := p.2.tasks.map (fun t =>
      { t with loads := t.loads.map (fun l => (l.1, l.2.1, l.2.2.1, revokedTensor key l.2.2.2)) }) }))
    queues := s.queues.map (fun q => (q.1, { q.2 with running := q.2.running.map (fun r =>
      { r with use := r.use.map (fun u => { u with mkey := k u.mkey }) }) }))
    fab := { s.fab with
      trowel := s.fab.trowel.map (fun t => { t with dkey := k t.dkey, rkey := k t.rkey, revoked := key :: t.revoked })
      grouts := s.fab.grouts.map (fun g => { g with
        srcKey := k g.srcKey, dstKey := k g.dstKey, step := g.step.map (fun x => (x.1, x.2.1, k x.2.2)) }) } }

/-- The derived bounce key of a session on this module (Table 14.3), in a slot of its own (R357). -/
def loadBounce (s : State) (i : Nat) (v : Session) (obs : BitVec 256) : State :=
  match (bounceSlot s i).orElse (fun _ => freeSlot s) with
  | none => s
  | some slot =>
    let k := deriveKey (keyBytes obs) "ZEL-BOUNCE".toList (leBytes 2 s.fab.member.node ++ leBytes 16 v.nonce)
    loadSlot s slot 2 k v.partition i v.manifest.operator 2 (2 ^ 48 - 1)
/-- The checkpoint wrap key of a session, derived from its secret (Table 14.3). -/
def loadWrap (s : State) (i part : Nat) (ss : BitVec 384) : State :=
  match freeSlot s with
  | none => s
  | some slot => loadSlot s slot 5 (deriveKey (leBytes 48 ss.toNat) "ZEL-CKPT-WRAP".toList []) part i 0 2 (2 ^ 48 - 1)

/-- KEY_IMPORT: an owner loads an OWNER_IN or OWNER_OUT slot, or rewrites one of its own (R357, R360); the operator's import
under class BOUNCE is OBS, from which the bounce key is derived (R371). -/
def execKeyImport (sess session slot cls : Nat) (key : BitVec 256) (s : State) : Host.Outcome State Fault Refusal :=
  request s sess isOwner (fun v s =>
    match sesOf s session with
    | none => answerSp s .policyDenied [] []
    | some x =>
      match ownerIndex v x.manifest with
      | none => answerSp s .policyDenied [] []
      | some o =>
        if x.state = .ended then answerSp s .policyDenied [] []
        else if !drbgOk s then answerSp s .entropyNotReady [] []
        else if cls = 2 then
          if o ≠ x.manifest.operator ∨ x.founder = false then answerSp s .policyDenied [] []
          else
            let s := setSes s session { x with obs := some key }
            answerSp (loadBounce s session x key) .ok [] []
        else if (cls ≠ 3 ∧ cls ≠ 4) ∨ 0xD8 ≤ slot then answerSp s .descInvalid [] []
        else
          let w := slotOf s slot
          if w.state = .empty then answerSp (loadSlot s slot cls key x.partition session o 2 (2 ^ 32)) .ok [] []
          else if w.state = .loaded ∧ w.cls = cls ∧ w.owner = o ∧ w.session = session then
            if w.pins ≠ 0 then answerSp s .keyBusy [] []
            else
              let s := loadSlot s slot cls key x.partition session o 2 (2 ^ 32)
              answerSp (modSlot s slot (fun y => { y with bound := w.bound })) .ok [] []
          else answerSp s .busy [] [])

/-- SLOT_ERASE: an owner erases a slot that it imported, at once or when its bound uses have ended (R360). -/
def execSlotErase (sess slot : Nat) (immediate : Bool) (s : State) : Host.Outcome State Fault Refusal :=
  request s sess isOwner (fun v s =>
    let w := slotOf s slot
    let mine := match sesOf s w.session with
      | some x => ownerIndex v x.manifest == some w.owner && (w.cls == 3 || w.cls == 4)
      | none => false
    if !mine || w.state == .empty then answerSp s .policyDenied [] []
    else if immediate then answerSp (progress (abortSlot s slot)) .ok [] []
    else answerSp (eraseSlot s slot) .ok [] [])

/-! ## Key contexts -/

/-- Binds one index of a Lath pair under a roll count (R375): its key is derived from the session's secret, its receivers
clear their replay state, and a takeover's R_MAX bounds it (R233). -/
def bindLath (s : State) (key part ses role count : Nat) (ss : BitVec 384) : State :=
  match freeSlot s with
  | none => s
  | some slot =>
    let k := deriveKey (leBytes 48 ss.toNat) "ZEL-LATH".toList (leBytes 1 role ++ leBytes 4 count)
    let s := loadSlot s slot 1 k part ses 0 2 (2 ^ 48 - 1)
    let bound := ((s.fab.member.rMaxes.filter (fun r => r.1 == s.fab.member.node && r.2.1 == ses && r.2.2.1 == key / 2 * 2)).map (·.2.2.2)).foldl
      (fun (b : Option Nat) r => some (max (b.getD 0) r)) none
    let s := clearReplay (activateKey s key 2 part ses role slot) key
    -- the roll counts that a session has used stay on its record, so that no key of it returns (R228)
    let s := match sesOf s ses with
      | some x => setSes s ses { x with rolls := tins x.rolls role (max count (tget 0 x.rolls role)) }
      | none => s
    modKey s key (fun c => { c with roll := count, rMax := bound })

/-- Empty slots that keys of the module may take. -/
def emptySlots (s : State) : Nat := ((List.range 0xD8).filter (fun i => (slotOf s i).state == .empty)).length

/-- A key index lies in a partition's range. -/
def keyInRange (s : State) (part key : Nat) : Bool :=
  let p := partOf s part
  p.live && decide (p.keyFirst ≤ key) && decide (key < p.keyFirst + p.keyCount) && key != 0

/-- KEY_CTX_BIND (R375). A session without its secret has no Lath key to give yet (NOT_READY); without a free slot for each key it is
BUSY. -/
def execKeyCtxBind (sess partition session key role : Nat) (s : State) : Host.Outcome State Fault Refusal :=
  request s sess (isIssuer s) (fun _ s =>
    match sesOf s session with
    | none => answerSp s .policyDenied [] []
    | some v =>
      match v.manifest.roles[role]? with
      | none => answerSp s .descInvalid [] []
      | some r =>
        if v.state = .ended ∨ v.partition ≠ partition ∨ keyInRange s partition key = false ∨ (keyOf s key).state ≠ .free then
          answerSp s .policyDenied [] []
        else if r.kclass = 2 then
          if key ≠ r.lkey ∨ keyInRange s partition (key + 1) = false ∨ (keyOf s (key + 1)).state ≠ .free then answerSp s .policyDenied [] []
          else if !drbgOk s then answerSp s .entropyNotReady [] []
          else match v.ss with
            | none => answerSp s .notReady [] []
            | some ss =>
              if emptySlots s < 2 then answerSp s .busy [] []
              else
                let c := match tlook v.rolls role with | none => 0 | some n => n + 1
                let s := bindLath s key partition session role c ss
                answerSp (bindLath s (key + 1) partition session role (c + 1) ss) .ok [] []
        else if !drbgOk s then answerSp s .entropyNotReady [] []
        else match freeSlot s with
          | none => answerSp s .busy [] []
          | some slot =>
            let (k, s) := draw s
            let s := loadSlot s slot 0 (k.truncate 256) partition session 0 2 (2 ^ 48 - 1)
            answerSp (activateKey s key r.kclass partition session role slot) .ok [] [])

/-- KEY_CTX_ERASE (R227, R360): with IMMEDIATE the context is zeroized at once and what waits under it completes with
KEY_REVOKED (R213); without, it is ZEROIZING until its slots' bound uses have ended. A live pass stops (Table 9.5). -/
def execKeyCtxErase (sess key : Nat) (immediate : Bool) (s : State) : Host.Outcome State Fault Refusal :=
  request s sess (fun v => isIssuer s v || ownsSession s v (keyOf s key).session) (fun _ s =>
    let k := keyOf s key
    if key = 0 ∨ k.state = .free then answerSp s .policyDenied [] []
    else if immediate then answerSp (pumpEverything (clearReplay (zeroizeKey (ckptRevoke (revokeBound (revokeWaiting s key) key) key) key) key)) .ok [] []
    else
      let s := eraseSlot s k.slotCur
      let s := if k.state = .sanding then eraseSlot s k.slotOld else s
      answerSp (modKey s key (fun c => { c with state := .zeroizing, slotOld := if c.state = .sanding then c.slotOld else c.slotCur })) .ok [] [])

/-- The Lath role of a session. -/
def lathRole (v : Session) (role : Nat) : Option Role :=
  match v.manifest.roles[role]? with
  | some r => if r.kclass = 2 then some r else none
  | none => none

/-- KEY_ROLL_INSTALL: the next roll count's key goes into the pair's partner index, which must have been retired (R232, R375). -/
def execKeyRollInstall (sess session role count : Nat) (s : State) : Host.Outcome State Fault Refusal :=
  request s sess (isIssuer s) (fun _ s =>
    match sesOf s session with
    | none => answerSp s .policyDenied [] []
    | some v =>
      match lathRole v role, v.ss with
      | some r, some ss =>
        match pairActive s r.lkey with
        | none => answerSp s .policyDenied [] []
        | some a =>
          let partner := if a = r.lkey then r.lkey + 1 else r.lkey
          if v.state = .ended ∨ (keyOf s a).session ≠ session then answerSp s .policyDenied [] []
          else if count ≠ (keyOf s a).roll + 1 then answerSp s .descInvalid [] []
          else if (keyOf s partner).state ≠ .free then answerSp s .keyBusy [] []
          else if !drbgOk s then answerSp s .entropyNotReady [] []
          else if (freeSlot s).isNone then answerSp s .busy [] []
          else answerSp (pumpEverything (bindLath s partner v.partition session role count ss)) .ok [] []
      | none, _ => answerSp s .descInvalid [] []
      | _, none => answerSp s .notReady [] [])

/-- KEY_ROLL_RETIRE: every member has reported its move; the old index is retired 1 s of Plumb time later (R232 step 4). -/
def execKeyRollRetire (sess session role : Nat) (s : State) : Host.Outcome State Fault Refusal :=
  request s sess (isIssuer s) (fun _ s =>
    match sesOf s session with
    | none => answerSp s .policyDenied [] []
    | some v =>
      match lathRole v role with
      | none => answerSp s .descInvalid [] []
      | some r =>
        match pairActive s r.lkey with
        | none => answerSp s .policyDenied [] []
        | some a =>
          let old := if a = r.lkey then r.lkey + 1 else r.lkey
          if v.state = .ended ∨ (keyOf s a).session ≠ session then answerSp s .policyDenied [] []
          else if (keyOf s old).state ≠ .active then answerSp s .notReady [] []
          else answerSp (modKey s old (fun c => { c with retire := some s.fab.plumb.time })) .ok [] [])

/-- SAND_START: an owner of the bound session, or the platform in LOCAL mode, starts a pass (R221); a context in SANDING is BUSY
(R223). -/
def execSandStart (sess key : Nat) (s : State) : Host.Outcome State Fault Refusal :=
  request s sess (fun v => v.cls == .platform || ownsSession s v (keyOf s key).session) (fun _ s =>
    let k := keyOf s key
    if k.state = .sanding then answerSp s .busy [] []
    else if key = 0 ∨ k.state ≠ .active ∨ memClass k = false then answerSp s .policyDenied [] []
    else answerSp (startSanding s key) .ok [] [])

end Sys2Proof.Machine
end

