-- ==== Sys2Proof/Machine/Joint.lean ====
section
/-! DEFINITION. Joint sessions (R370 to R380): manifests, opening, approvals, joining and ending a session, release tickets; the
window and group requests (R241 to R243, R281 to R285), the measurement log, Level pairing and the log request. -/

namespace Sys2Proof.Machine
open Sys2Proof

/-! ## Manifests (Table 14.10) -/

/-- The bytes of a manifest that its body takes: 0xC00 + 48 × PROGRAMS, rounded up to 64 (R370). -/
def bodyLen (b : Bytes) : Nat := ceilDiv (0xC00 + 48 * le b 0x0E 2) 64 * 64

/-- Decodes a manifest; `rsvd` sums every reserved bit and unused entry. -/
def decodeManifest (b : Bytes) : Manifest :=
  let w4 := le b 4 4
  let w8 := le b 8 4
  let owners := bits w4 18 16 + 1
  let nr := le b 0x0C 2
  let np := le b 0x0E 2
  let ne := le b 0x10 2
  let nd := le b 0x12 2
  let at8 := fun (r : Nat) => le b (0x400 + 8 * r) 8
  let zeroes := fun (o n : Nat) => ((List.range n).map (fun i => (byteAt b (o + i)).toNat)).foldl (· + ·) 0
  { magic := le b 0 4, version := bits w4 15 0
    rsvd := bits w4 31 23 + bits w8 31 12 + bits (le b 0x14 4) 31 17 + zeroes 0x28 24
      + ((List.range nr).map (fun r => bits (at8 r) 7 5 + at8 r / 65536)).foldl (· + ·) 0
      + zeroes (0x400 + 8 * nr) (8 * (64 - nr))
      + ((List.range ne).map (fun e => bits (le b (0x600 + 16 * e) 4) 31 23 + le b (0x608 + 16 * e) 8)).foldl (· + ·) 0
      + zeroes (0x600 + 16 * ne) (16 * (64 - ne))
      + ((List.range nd).map (fun d => bits (le b (0xA00 + 8 * d) 4) 15 6 + bits (le b (0xA00 + 8 * d) 4) 31 29 + le b (0xA04 + 8 * d) 4)).foldl (· + ·) 0
      + zeroes (0xA00 + 8 * nd) (8 * (64 - nd))
      + ((List.range 8).map (fun i => if i < owners then zeroes (0x230 + 64 * i) 16 else zeroes (0x200 + 64 * i) 64)).foldl (· + ·) 0
      + zeroes 0x130 0xD0 + zeroes (0xC00 + 48 * np) (bodyLen b - 0xC00 - 48 * np)
    owners := owners, operator := bits w4 21 19, replaceAuto := bit w4 22
    kMembers := bits w8 3 0, kAdmit := bits w8 7 4, authority := bits w8 8 8, grades := bits w8 11 9
    roles := (List.range nr).map (fun r => ⟨bits (at8 r) 1 0, bits (at8 r) 4 2, bits (at8 r) 15 8⟩)
    programs := (List.range np).map (fun k => bytesDigest (slice b (0xC00 + 48 * k) 48))
    rules := (List.range ne).map (fun e =>
      let x := le b (0x600 + 16 * e) 4
      ⟨bits x 5 0, bits x 7 6, bits x 10 8, bits x 14 11, bits x 22 15, le b (0x604 + 16 * e) 4⟩)
    declass := (List.range nd).map (fun d => let x := le b (0xA00 + 8 * d) 4; (bits x 5 0, bits x 28 16))
    maxMembers := le b 0x14 4 % 2 ^ 17, nonce := le b 0x18 16
    endorse := bytesDigest (slice b 0x40 48)
    fw := (List.range 4).map (fun j => bytesDigest (slice b (0x70 + 48 * j) 48))
    ownerIds := (List.range owners).map (fun i => bytesDigest (slice b (0x200 + 64 * i) 48)) }

/-- Number of bits set in an 8-bit mask. -/
def popcount8 (m : Nat) : Nat := ((List.range 8).filter (fun i => bit m i)).length

/-- The fields lie within Table 14.10 (R371 check 1). -/
def manifestOk (b : Bytes) (m : Manifest) : Bool :=
  b.length == bodyLen b + 4736 * m.owners && m.magic == 0x5A534D31 && m.version == 1 && m.rsvd == 0
    && decide (m.operator < m.owners) && decide (1 ≤ m.kMembers) && decide (m.kMembers ≤ m.owners)
    && decide (1 ≤ m.kAdmit) && decide (m.kAdmit ≤ m.owners)
    && decide (1 ≤ m.roles.length) && decide (m.roles.length ≤ 64)
    && decide (1 ≤ m.programs.length) && decide (m.programs.length ≤ 1024)
    && decide (m.rules.length ≤ 64) && decide (m.declass.length ≤ 64)
    && decide (1 ≤ m.maxMembers) && decide (m.maxMembers ≤ 65536)
    && m.roles.all (fun r => decide (r.kclass ≤ 2) && (r.kclass != 1 || decide (r.owner < m.owners)) && (r.kclass != 2 || r.lkey % 2 == 0))
    && m.rules.all (fun r => decide (r.role < m.roles.length) && decide (r.dest ≤ 1) && (r.dest == 0 || decide (r.destOwner < m.owners))
        && decide (r.k ≤ 8) && decide (r.approvers < 2 ^ m.owners))
    && m.declass.all (fun d => decide (d.1 < m.roles.length) && decide (1 ≤ d.2) && decide (d.2 ≤ 4096))

/-- The conditions of the module and the rules of R371 check 2, the signatures apart. -/
def manifestAllowed (s : State) (m : Manifest) : Bool :=
  let kclass := fun (r : Nat) => ((m.roles[r]?).map (·.kclass)).getD 0
  let lkeys := (m.roles.filter (fun r => r.kclass == 2)).map (·.lkey)
  lcState s.sp.lcWord == 3 && !s.sp.debugged && m.authority == s.sp.authority && bit m.grades s.sp.part && m.endorse == Config.endorseRoot
    && m.fw.contains (fwDigest s.sp.fwSp s.sp.fwHub)
    && m.rules.all (fun r => kclass r.role == 0) && m.declass.all (fun d => kclass d.1 == 0)
    && m.rules.all (fun r => decide (r.k ≤ popcount8 r.approvers))
    && lkeys.all (fun k => lkeys.count k == 1)

/-- The local identifier of the next session: 1 to 65,535 in turn since module reset, then the lowest that no session holds (R371).
DESIGN CHOICE: the rule gives the width and not the numbering. -/
def localId (s : State) : Nat :=
  if s.sp.nextSession < 65536 then s.sp.nextSession
  else ((List.range 65535).map (· + 1)).find? (fun i => (sesOf s i).isNone) |>.getD 0

/-- Identity, attestation and session requests of a module without a root secret complete with NOT_READY (R354, R389). -/
def sessionRequest (s : State) (sess : Nat) (allow : Spdm → Bool) (f : Spdm → State → State) : Host.Outcome State Fault Refusal :=
  request s sess anyone (fun v s =>
    if (rootBank s).isNone then answerSp s .notReady [] []
    else if !allow v then answerSp s .policyDenied [] []
    else f v s)

/-- SESSION_OPEN (R371). -/
def execSessionOpen (sess : Nat) (manifest : Bytes) (sigsOk : Bool) (partition : Nat) (founder : Bool) (s : State) :
    Host.Outcome State Fault Refusal :=
  request s sess anyone (fun _ s =>
    let m := decodeManifest manifest
    let id := (Config.sha384 (manifest.take (bodyLen manifest))).toNat % 2 ^ 128
    let held := (s.sp.sessions.filter (fun x => x.2.state != .ended)).length
    if !manifestOk manifest m || !(partOf s partition).live then answerSp s .descInvalid [] []
    else if (rootBank s).isNone then answerSp s .notReady [] []
    else if !sigsOk || !manifestAllowed s m then answerSp s .policyDenied [] []
    else if s.sp.sessions.any (fun x => x.2.id == id) || s.sp.endedIds.contains id || decide (64 ≤ held) then answerSp s .busy [] []
    else if !drbgOk s then answerSp s .entropyNotReady [] []
    else
      let i := localId s
      match measAdd s partition 4 0 0 0 i 0 (BitVec.ofNat 384 id) with
      | none => answerSp s .busy [] []
      | some s =>
        let (n, s) := draw s
        let (r, s) := if founder then draw s else (0, s)
        let v : Session :=
          { id := id, state := .pending, partition := partition, founder := founder, manifest := m, nonce := n.toNat % 2 ^ 128,
            ss := if founder then some r else none, obs := none, approvals := [],
            members := if founder then [(s.fab.member.node, ownIdentity s)] else [], tickets := [], nextTicket := 0, chain := none,
            ckptBusy := false, endReq := false, rolls := [] }
        let s := setSes { s with sp := { s.sp with nextSession := min 65536 (s.sp.nextSession + 1) } } i v
        let s := if founder then loadWrap s i partition r else s
        answerSp s .ok [i] [])

/-! ## Approvals, joins, ends -/

/-- Owners whose approvals of a kind name an object. -/
def approvers (v : Session) (kind : Nat) (object : Digest) : List Nat :=
  (v.approvals.filter (fun a => a.2.1 == kind && a.2.2 == object)).map (·.1)

/-- SESSION_APPROVE (R372): records an approval; enough MEMBERS approvals make the founder RUNNING, enough RELEASE approvals from
APPROVERS arm the ticket (R378 step 3). -/
def execSessionApprove (sess session owner kind : Nat) (object : Digest) (sigsOk : Bool) (s : State) :
    Host.Outcome State Fault Refusal :=
  sessionRequest s sess anyone (fun _ s =>
    match sesOf s session with
    | none => answerSp s .policyDenied [] []
    | some v =>
      if kind = 0 ∨ 3 < kind then answerSp s .descInvalid [] []
      else if v.state = .ended ∨ sigsOk = false ∨ v.manifest.owners ≤ owner then answerSp s .policyDenied [] []
      else
        let ticket := v.tickets.find? (fun t => t.digest == object && !t.complete)
        let rule := (ticket.bind (fun t => v.manifest.rules[t.rule]?)).getD ⟨0, 0, 0, 0, 0, 0⟩
        if kind = 2 ∧ (ticket.isNone = true ∨ bit rule.approvers owner = false) then answerSp s .policyDenied [] []
        else
          let a := (owner, kind, object)
          let v := { v with approvals := if v.approvals.contains a then v.approvals else v.approvals ++ [a] }
          let n := (approvers v kind object).length
          let v := if kind = 1 ∧ v.founder = true ∧ v.state = .pending ∧ v.manifest.kMembers ≤ n then { v with state := .running } else v
          let v := if kind = 2 ∧ rule.k ≤ n then
              { v with tickets := v.tickets.map (fun t => if t.digest = object then { t with armed := true } else t) } else v
          answerSp (setSes s session v) .ok [] [])

/-- The digest of a MEMBERS approval: (logical node, identity) pairs in ascending node order (R372 kind 1). -/
def membersDigest (l : List (Nat × Digest)) : Digest := Config.sha384 (l.flatMap (fun m => leBytes 2 m.1 ++ digestBytes m.2))
/-- The digest of an ADMISSION approval: logical node, PHYS, epoch, identity (R372 kind 3). -/
def admissionDigest (node phys epoch : Nat) (identity : Digest) : Digest :=
  Config.sha384 (leBytes 2 node ++ leBytes 4 phys ++ leBytes 4 epoch ++ digestBytes identity)
/-- The list behind the digest of a MEMBERS approval, which carries no list: one whose digest it is. -/
def approvedList (d : Digest) : List (Nat × Digest) :=
  let l := Config.membersList d
  if trising l && membersDigest l == d then l else []

/-- The joiner's identity is in an approved MEMBERS list, or an admission record names it for an applied epoch (R373). -/
def admitted (s : State) (v : Session) (r : Report) : Bool :=
  let lists := (v.approvals.filter (fun a => a.2.1 == 1 && decide (v.manifest.kMembers ≤ (approvers v 1 a.2.2).length))).map (·.2.2)
  lists.any (fun d => (approvedList d).contains (r.node, r.identity))
    || (nodeOf s r.node).member && decide (v.manifest.kAdmit ≤ (approvers v 3 (admissionDigest r.node r.phys (nodeOf s r.node).admitEpoch r.identity)).length)
    || s.fab.member.admitted.any (fun a => a.1 == r.node && a.2.1 == r.phys && decide (a.2.2.1 ≤ s.fab.member.epoch) && a.2.2.2 == r.identity)

/-- The report meets the manifest (R373). -/
def reportOk (v : Session) (r : Report) : Bool :=
  r.genuine && r.endorse == v.manifest.endorse && v.manifest.fw.contains r.fw && r.authority == v.manifest.authority
    && bit v.manifest.grades r.part && r.field && r.sessionId == v.id

/-- The bounds R_MAX that the giver passes for pairs of the session's Lath roles, which an earlier holder of this module's identity
can have used (R233 step 2): which pairs, and their values, are free here. -/
def takeBounds (s : State) (i : Nat) (v : Session) (bounds : List (Nat × Nat)) : State :=
  let mine := bounds.filter (fun b => v.manifest.roles.any (fun r => r.kclass == 2 && r.lkey == b.1))
  setMember s { s.fab.member with rMaxes := s.fab.member.rMaxes ++ mine.map (fun b => (s.fab.member.node, i, b.1, b.2)) }
/-- The session's owner keys that the giver sends stand in the slots that their owners named, where those are EMPTY (R373). -/
def takeOwners (s : State) (i : Nat) (v : Session) (keys : List (Nat × Nat × Nat × BitVec 256)) : State :=
  keys.foldl (fun s k =>
    if k.1 < 0xD8 ∧ (slotOf s k.1).state = .empty ∧ (k.2.1 = 3 ∨ k.2.1 = 4) ∧ k.2.2.1 < v.manifest.owners then
      loadSlot s k.1 k.2.1 k.2.2.2 v.partition i k.2.2.1 2 (2 ^ 32)
    else s) s

/-- What a giver sends with SESSION_JOIN (R233 step 2, R373): R_MAX of each Lath pair that an earlier holder of the joiner's
identity could use, as (even key index, R_MAX) pairs; then SS, OBS, the session's OWNER_IN and OWNER_OUT keys, the recorded
approvals and the admitted identities. PRESUMED: this order of the bytes. -/
def answerJoin (s : State) (session : Nat) (v : Session) (node : Nat) : State :=
  let bounds := (s.fab.member.rMaxes.filter (fun r => r.1 == node && r.2.1 == session)).flatMap (fun r => [r.2.2.1, r.2.2.2])
  let owners := (s.sp.slots.filter (fun x => (x.2.cls == 3 || x.2.cls == 4) && x.2.session == session && x.2.state == .loaded)).flatMap
    (fun x => leBytes 1 x.1 ++ leBytes 1 x.2.cls ++ leBytes 1 x.2.owner ++ keyBytes (slotKey x.2))
  let secrets := leBytes 48 ((v.ss.getD 0).toNat) ++ keyBytes (v.obs.getD 0) ++ owners
    ++ v.approvals.flatMap (fun a => leBytes 1 a.1 ++ leBytes 1 a.2.1 ++ digestBytes a.2.2)
    ++ v.members.flatMap (fun m => leBytes 2 m.1 ++ digestBytes m.2)
  answerSp s .ok bounds secrets

/-- SESSION_JOIN (R373): a RUNNING member gives its secrets to an attested, admitted joiner. At a PENDING module the same request
delivers them: it becomes RUNNING, and their values are free here. -/
def execSessionJoin (sess session : Nat) (report : Report) (s : State) : Host.Outcome State Fault Refusal :=
  sessionRequest s sess isPeer (fun p s =>
    match sesOf s session with
    | none => answerSp s .policyDenied [] []
    | some v =>
      match v.state with
      | .ended => answerSp s .policyDenied [] []
      | .running =>
        if !reportOk v report || !admitted s v report || p.cls != .peer report.identity then answerSp s .policyDenied [] []
        else if v.members.contains (report.node, report.identity) then answerJoin s session v report.node
        else if v.manifest.maxMembers ≤ v.members.length then answerSp s .busy [] []
        else answerJoin (setSes s session { v with members := v.members ++ [(report.node, report.identity)] }) session v report.node
      | .pending =>
        if v.founder ∨ report.sessionId ≠ v.id then answerSp s .policyDenied [] []
        else if !drbgOk s then answerSp s .entropyNotReady [] []
        else
          let (a, s) := drawFree s
          let (b, s) := drawFree s
          let ss : BitVec 384 := a.truncate 384
          let obs : BitVec 256 := b.truncate 256
          let v := { v with
                         state := .running, ss := some ss, obs := some obs,
                         members := (s.fab.member.node, ownIdentity s) :: Config.joinMembers s.fresh,
                         approvals := Config.joinApprovals s.fresh }
          let i := s.fresh
          let s := takeOwners (takeBounds (setSes s session v) session v (Config.joinBounds i)) session v (Config.joinOwners i)
          let s := loadBounce (loadWrap s session v.partition ss) session v obs
          answerSp s .ok [] [])

/-- SESSION_END: from an owner of the session or the management issuer; it is answered when Table 14.11 has run (R379). Without room
for the entry of its end in the measurement log it is BUSY (R368). -/
def execSessionEnd (sess session : Nat) (s : State) : Host.Outcome State Fault Refusal :=
  sessionRequest s sess (fun v => isIssuer s v || ownsSession s v session) (fun _ s =>
    match sesOf s session with
    | none => answerSp s .policyDenied [] []
    | some v =>
      if v.state = .ended then answerSp s .policyDenied [] []
      else if 65536 ≤ (partOf s v.partition).log.length + measOwed s v.partition then answerSp s .busy [] []
      else progress (beginSessionEnd (setSes s session { v with endReq := true, asker := some sess }) session))

/-! ## Release tickets (R378) -/

/-- Digests of the 8 MiB pieces of a source: `n` pieces. -/
def pieceDigests (b : Bytes) (n : Nat) : List Digest :=
  (List.range n).map (fun i => Config.sha384 ((b.drop (i * pieceBytes)).take pieceBytes))

/-- RELEASE_PREPARE: hashes the source, draws RK and returns the ticket with its digest (R378 steps 1 and 2). -/
def execReleasePrepare (sess session rule context addr len key : Nat) (s : State) : Host.Outcome State Fault Refusal :=
  request s sess (fun v => match sesOf s session with
      | some x => ownerIndex v x.manifest == some x.manifest.operator
      | none => false) (fun _ s =>
    match sesOf s session with
    | none => answerSp s .policyDenied [] []
    | some v =>
      match v.manifest.rules[rule]? with
      | none => answerSp s .descInvalid [] []
      | some r =>
        if r.k = 0 ∨ len = 0 ∨ 2 ^ 48 ≤ addr then answerSp s .descInvalid [] []
        else if v.state ≠ .running ∨ (ctxOf s context).session ≠ session ∨ (ctxOf s context).live = false
            ∨ commandKeyOk s context key = false ∨ (keyOf s key).role ≠ r.role ∨ (r.maxLen ≠ 0 ∧ r.maxLen * 4096 < len) then
          answerSp s .policyDenied [] []
        else if 16 ≤ (v.tickets.filter (fun t => !t.complete)).length then answerSp s .busy [] []
        else if !drbgOk s then answerSp s .entropyNotReady [] []
        else match freeSlot s with
          | none => answerSp s .busy [] []
          | some slot =>
            let (st, b, s) := vread s context key addr len
            if st ≠ .ok then answerSp s st [] []
            else
              let pieces := pieceDigests b (ceilDiv len pieceBytes)
              let id := v.nextTicket
              let d := Config.sha384 (leBytes 16 v.id ++ leBytes 4 id ++ leBytes 4 rule ++ leBytes 8 len ++ pieces.flatMap digestBytes)
              let (k, s) := draw s
              let s := loadSlot s slot 8 (k.truncate 256) v.partition session 0 2 (2 ^ 48 - 1)
              let t : Ticket := ⟨id, rule, context, addr, len, key, pieces, d, slot, false, [], false⟩
              let s := setSes s session { v with tickets := v.tickets ++ [t], nextTicket := (id + 1) % 2 ^ 32 }
              answerSp s .ok [id] (digestBytes d))

/-- The recipient of a release: the operator, or the rule's owner. -/
def recipient (m : Manifest) (r : Rule) : Nat := if r.dest = 1 then r.destOwner else m.operator

/-- RELEASE_KEY_GET: the key of a completed ticket, wrapped under the recipient's OWNER_OUT slot, or for the operator through its
secured session (R378 step 5). -/
def execReleaseKeyGet (sess session ticket : Nat) (s : State) : Host.Outcome State Fault Refusal :=
  request s sess isOwner (fun v s =>
    match sesOf s session with
    | none => answerSp s .policyDenied [] []
    | some x =>
      match x.tickets.find? (fun t => t.id == ticket) with
      | none => answerSp s .policyDenied [] []
      | some t =>
        let r := (x.manifest.rules[t.rule]?).getD ⟨0, 0, 0, 0, 0, 0⟩
        if x.state = .ended ∨ ownerIndex v x.manifest ≠ some (recipient x.manifest r) then answerSp s .policyDenied [] []
        else if !t.complete then answerSp s .notReady [] []
        else
          let rk := slotKey (slotOf s t.slot)
          if r.dest = 0 then answerSp s .ok [] (keyBytes rk)
          else match s.sp.slots.find? (fun y => y.2.cls == 4 && y.2.session == session && y.2.owner == r.destOwner && y.2.state == .loaded) with
            | none => answerSp s .policyDenied [] []
            | some y =>
              match useSlot s y.1 4 session with
              | (.ok, s) => answerSp s .ok [] (aesWrap (slotKey y.2) rk)
              | (st, s) => answerSp s st [] [])

/-! ## Windows (R241 to R243) -/

/-- The fields of a window entry (Table 10.3); none where a reserved field or a range is broken. -/
def decodeWindow (b : Bytes) : Option Window :=
  let w := fun (i : Nat) => le b (4 * i) 4
  let base := le b 16 8
  let size := le b 24 8
  if b.length = 64 ∧ bit (w 0) 0 = true ∧ bits (w 0) 15 6 = 0 ∧ bits (w 0) 31 21 = 0 ∧ bits (w 1) 15 12 = 0 ∧ w 3 = 0
      ∧ (List.range 8).all (fun i => w (8 + i) == 0) = true
      ∧ base < 2 ^ 48 ∧ base % 4096 = 0 ∧ 4096 ≤ size ∧ size ≤ 2 ^ 36 ∧ size % 4096 = 0 then
    some { r := bit (w 0) 1, w := bit (w 0) 2, a := bit (w 0) 3, l := bit (w 0) 4, arr := bit (w 0) 5, partition := bits (w 0) 20 16,
           context := bits (w 1) 11 0, session := bits (w 1) 31 16, lkey := bits (w 2) 7 0, mkey := bits (w 2) 15 8,
           counter := bits (w 2) 31 16, base := base, size := size }
  else none
/-- A LATH_PAIR context of a session. -/
def isLathOf (s : State) (ses key : Nat) : Bool :=
  (keyOf s key).cls == 2 && (keyOf s key).state == .active && (keyOf s key).session == ses

/-- WINDOW_OPEN (R242): the first window that names an arrival counter takes it for its partition and zeroes it. -/
def execWindowOpen (sess window : Nat) (entry : Bytes) (s : State) : Host.Outcome State Fault Refusal :=
  request s sess (isIssuer s) (fun _ s =>
    if 4095 ≤ window then answerSp s .descInvalid [] []
    else match decodeWindow entry with
      | none => answerSp s .descInvalid [] []
      | some w =>
        let c := ctxOf s w.context
        let arr := tlook s.fab.arrivals w.counter
        if c.live = false ∨ c.partition ≠ w.partition ∨ c.session ≠ w.session ∨ w.lkey % 2 = 1
            ∨ isLathOf s w.session w.lkey = false ∨ isLathOf s w.session (w.lkey + 1) = false
            ∨ keyInRange s w.partition w.mkey = false
            ∨ ((keyOf s w.mkey).cls = 1 ∧ (w.w = true ∨ w.a = true ∨ w.l = true))
            ∨ arr.any (fun a => a.partition != w.partition) = true then answerSp s .policyDenied [] []
        else if (tlook s.fab.windows window).isSome then answerSp s .busy [] []
        else
          let a : Arrival := match arr with | some a => { a with windows := a.windows + 1 } | none => ⟨w.partition, 1, 0⟩
          answerSp { s with fab := { s.fab with windows := tins s.fab.windows window w, arrivals := tins s.fab.arrivals w.counter a } } .ok [] [])

/-- WINDOW_CLOSE (R243). -/
def execWindowClose (sess window : Nat) (s : State) : Host.Outcome State Fault Refusal :=
  request s sess (isIssuer s) (fun _ s =>
    if (tlook s.fab.windows window).isNone then answerSp s .descInvalid [] []
    else answerSp (settlePlans (closeWindow s window)) .ok [] [])

/-! ## Groups (R281 to R285) -/

/-- The lane entries of a GROUP_OPEN. -/
def decodeLanes (part : Nat) (b : Bytes) (n : Nat) : List Lane :=
  (List.range n).map (fun i =>
    ⟨part, bits (le b 0 4) 11 0, le b (0x30 + 16 * i) 4, le b (0x34 + 16 * i) 1 * 8, le b (0x35 + 16 * i) 1 * 8, le b (0x38 + 16 * i) 4⟩)
/-- The operands of a GROUP_OPEN are within Table 11.1 and R265, the list apart. -/
def groupFieldsOk (b : Bytes) : Bool :=
  let w := fun (i : Nat) => le b (4 * i) 4
  let n := bits (w 2) 16 0
  let lanes := bits (w 10) 24 20
  decide (w 0 < 4096) && decide (w 1 < 4096) && decide (w 2 < 2 ^ 17) && decide (1 ≤ n) && decide (n ≤ 65536)
    && bits (w 3) 31 29 == 0 && decide (1 ≤ bits (w 3) 28 16) && decide (bits (w 3) 28 16 ≤ 4096)
    && le b 16 8 % 64 == 0 && decide (le b 16 8 < 2 ^ 48) && le b 24 8 % 65536 == 0 && decide (le b 24 8 < 2 ^ 48) && bits (w 10) 31 25 == 0
    && decide (100 ≤ bits (w 10) 19 0) && decide (bits (w 10) 19 0 ≤ 1000000) && decide (lanes ≤ 16)
    && (w 3 % 2 == 0)
    && (List.range lanes).all (fun i => le b (0x36 + 16 * i) 2 == 0 && le b (0x3C + 16 * i) 4 == 0)
    && (decodeLanes 0 b lanes).all (fun l => decide (l.start ≤ 1992) && decide (256 ≤ l.length) && decide (l.start + l.length ≤ 2000))
/-- ⌈log2 n⌉. -/
def log2up (n : Nat) : Nat := if n ≤ 1 then 0 else (n - 1).log2 + 1
/-- LIST_ID: bytes 0 to 7 of the digest of GROUP, N, LKEY and the member list (R283). -/
def listIdOf (group n lkey : Nat) (members : List Nat) : BitVec 64 :=
  (Config.sha384 (leBytes 4 group ++ leBytes 4 n ++ leBytes 4 lkey ++ members.flatMap (leBytes 2))).truncate 64

/-- GROUP_OPEN (R282, R283). -/
def execGroupOpen (sess partition : Nat) (operands : Bytes) (s : State) : Host.Outcome State Fault Refusal :=
  request s sess (isIssuer s) (fun _ s =>
    let b := operands
    let group := bits (le b 0 4) 11 0
    let ctx := bits (le b 4 4) 11 0
    let n := bits (le b 8 4) 16 0
    let lkey := le b 12 1
    let stage := le b 13 1
    let maxInst := bits (le b 12 4) 28 16
    let listVa := le b 16 8
    let stageVa := le b 24 8
    let stageLen := le b 32 8
    let nl := bits (le b 40 4) 24 20
    let c := ctxOf s ctx
    let k := keyOf s stage
    let mine := c.live && c.partition == partition
    let ok := fun (va len : Nat) => vcheck s ctx stage va len .read == .ok && vcheck s ctx stage va len .write == .ok
    let readable := mine && k.cls == 0 && k.state != .free && k.partition == partition && ok listVa (2 * n)
    if !groupFieldsOk b then answerSp s .descInvalid [] []
    else
      let (st, lb, s1) := if readable then vread s ctx stage listVa (2 * n) else (Status.ok, [], s)
      let members := if readable then (List.range n).map (fun i => le lb (2 * i) 2) else []
      if readable ∧ st = .ok ∧ (members.all (fun m => members.count m == 1) = false ∨ members.contains s.fab.member.node = false) then
        answerSp s .descInvalid [] []
      else if !readable || !isLathOf s c.session lkey || !isLathOf s c.session (lkey + 1) || !ok stageVa stageLen then answerSp s .policyDenied [] []
      else if st ≠ .ok then answerSp s1 st [] []
      else if stageLen < maxInst * log2up n * 131072 then answerSp s .descRange [] []
      else
        let used := ((s.fab.groups.filter (fun g => g.1 / 4096 == partition)).map (fun g => g.2.members.length)).foldl (· + ·) 0
        let free := (List.range 16).filter (fun i => (tlook s.fab.lanes i).isNone)
        if (groupOf s partition group).isSome ∨ free.length < nl ∨ 1048576 < used + n then answerSp s .busy [] []
        else
          let g : Group :=
            { context := ctx, lkey := lkey, stageKey := stage, maxInst := maxInst, stageVa := stageVa, slotHold := bits (le b 40 4) 19 0,
              members := members, self := members.idxOf s.fab.member.node, listId := listIdOf group n lkey members }
          let lanes := (free.zip (decodeLanes partition b nl)).foldl (fun t x => tins t x.1 x.2) s1.fab.lanes
          answerSp { s1 with fab := { s1.fab with groups := tins s1.fab.groups (partition * 4096 + group) g, lanes := lanes } } .ok [] [])

/-- A Grout task on a group runs or has been dispatched. -/
def groupBusy (s : State) (part group : Nat) : Bool := s.fab.grouts.any (fun g => g.partition == part && g.group == group)

/-- GROUP_CLOSE (R285). -/
def execGroupClose (sess partition group : Nat) (s : State) : Host.Outcome State Fault Refusal :=
  request s sess (isIssuer s) (fun _ s =>
    if groupBusy s partition group then answerSp s .busy [] []
    else if (groupOf s partition group).isNone then answerSp s .descInvalid [] []
    else answerSp (closeGroup s partition group) .ok [] [])

/-! ## Logs and pairing -/

/-- MEAS_LOG_READ: entries from a sequence number on, at most 64 in one answer (R368). -/
def execMeasLogRead (sess partition seq : Nat) (s : State) : Host.Outcome State Fault Refusal :=
  request s sess anyone (fun _ s =>
    let l := (((partOf s partition).log.filter (fun e => decide (seq ≤ e.seq))).take 64)
    answerSp s .ok (l.map (·.seq)) (l.flatMap measBytes))

/-- The 64 bytes of a log entry (R438; the places of its fields are PRESUMED). -/
def logBytes (e : LogEntry) : Bytes :=
  leBytes 8 e.seq ++ leBytes 8 e.plumb ++ leBytes 2 e.tb ++ leBytes 2 e.source ++ leBytes 4 e.code ++ leBytes 2 e.partition ++ leBytes 2 e.context
    ++ leBytes 4 0 ++ leBytes 8 e.info0 ++ leBytes 8 e.info1 ++ leBytes 16 0

/-- SP_LOG_READ: up to 64 entries from a sequence number on (R439); what it returns counts as read (watermark source 12). -/
def execSpLogRead (sess seq : Nat) (s : State) : Host.Outcome State Fault Refusal :=
  request s sess anyone (fun _ s =>
    let l := (s.sp.log.filter (fun e => decide (seq ≤ e.seq))).take 64
    let s := { s with sp := { s.sp with log := s.sp.log.map (fun e => if l.contains e then { e with seen := true } else e) } }
    answerSp (setLevel s 12 (logUnread s)) .ok (l.map (·.seq)) (l.flatMap logBytes))

/-- A partition takes a pairing, or loses its own; the unmatched records of the one before are gone, and watermark source 4 follows. -/
def setPairing (s : State) (part : Nat) (l : Option Level) : State :=
  let s := modPart s part (fun p => { p with level := l })
  setLevel s 4 (levelHeld s)
/-- LEVEL_PAIR: pairs a partition with a peer that is RUNNING in its session, or ends the pairing (R407). -/
def execLevelPair (sess partition peer va len key : Nat) (halt detail : Bool) (s : State) : Host.Outcome State Fault Refusal :=
  request s sess (isIssuer s) (fun _ s =>
    if !(partOf s partition).live then answerSp s .descInvalid [] []
    else if peer = 0xFFFF then answerSp (setPairing s partition none) .ok [] []
    else if 2 ^ 48 ≤ va then answerSp s .descInvalid [] []
    else
      let running := s.sp.sessions.any (fun x => x.2.partition == partition && x.2.state == .running && x.2.members.any (fun m => m.1 == peer))
      let k := keyOf s key
      if !running || k.cls != 0 || k.state == .free || !keyInRange s partition key then answerSp s .policyDenied [] []
      else
        let l : Level := ⟨peer, va, len, key, halt, detail, 0, 0, [], [], [], [], s.ns, [], [], []⟩
        answerSp (setPairing s partition (some l)) .ok [] [])

end Sys2Proof.Machine
end

