-- ==== Sys2Proof/Machine/Time.lean ====
section
/-! DEFINITION. The passing of time: cluster clocks, port F of the cores' banks from cycle to cycle (R93, R94), Plumb time. -/

namespace Sys2Proof.Machine
open Sys2Proof

/-- Cycles that half a nanosecond brings a cluster clock of 25 MHz x N (R413): N/80, half of that under cycle skipping (R428);
in units of 1/160 with the fraction so far. At most one cycle, since N is at most 60: a step passes no cycle over (R92). -/
def tickUnits (c : Cluster) : Nat := c.phase + (if c.skip then c.n else 2 * c.n)
/-- Half a nanosecond of a cluster clock. -/
def tickCluster (c : Cluster) : Cluster :=
  if c.clock then { c with cycle := c.cycle + tickUnits c / 160, phase := tickUnits c % 160 } else c

/-- Cluster cycle `cyc` of a core passes (R92 to R94): where the engines and the slots of a bundle need port F of one bank, each
access that loses holds the core for a cycle. The second part counts them. From the cycle in which bundle issue stopped for good
on, the tile paths use no port (R73). -/
def passCycle (cyc : Nat) (c : Core) : Core × Nat :=
  let t := cyc - c.held
  if t < c.portAt || c.stopped.isSome || (c.arrayPath.isEmpty && c.drainPath.isEmpty) then (c, 0)
  else
    let slots := match c.portUse with | some (u, l) => if u = t then l else [] | none => []
    let n := engineLost c t slots
    ({ (if n = 0 then c else holdCore cyc n c) with portAt := t + 1 }, n)
/-- Several cycles pass. -/
def passCycles (first n : Nat) (c : Core) : Core × Nat :=
  (List.range n).foldl (fun (r : Core × Nat) i => ((passCycle (first + i) r.1).1, r.2 + (passCycle (first + i) r.1).2)) (c, 0)
/-- The cycles of its cluster that half a nanosecond brings, passed on a core. -/
def tickCore (s : State) (core : Nat) (c : Core) : Core × Nat :=
  let k := clusterOf s (clusterNo core)
  if k.clock then passCycles k.cycle (tickUnits k / 160) c else (c, 0)
/-- Accesses that the cores of a cluster lose meanwhile. -/
def tickLost (s : State) (cluster : Nat) : Nat :=
  (s.cores.filter (fun p => clusterNo p.1 == cluster)).foldl (fun n p => n + (tickCore s p.1 p.2).2) 0

/-- One nanosecond of Plumb time (R261): it runs once started, and a slew of at most 500 ppm moves it toward the parent by at
most one nanosecond in 2,000. -/
def tickPlumb (ns : Nat) (p : Plumb) : Plumb :=
  if p.running then
    if ns % 2000 = 0 ∧ p.slew ≠ 0 then
      if p.slew > 0 then { p with time := p.time + 2, slew := p.slew - 1 } else { p with slew := p.slew + 1 }
    else { p with time := p.time + 1 }
  else p

/-- Half a nanosecond of the cluster clocks. -/
def tickClocks (s : State) : State :=
  { s with
    half := !s.half
    cores := s.cores.map (fun p => (p.1, (tickCore s p.1 p.2).1))
    clusters := s.clusters.map (fun p => (p.1, { tickCluster p.2 with portF := satAdd 32 p.2.portF (tickLost s p.1) })) }
/-- What happens when no command waits: half a nanosecond passes, and the second half ends a nanosecond of module time. -/
def tick (s : State) : State :=
  { tickClocks s with
    ns := s.ns + b2n s.half
    fab := { s.fab with plumb := if s.half then tickPlumb s.ns s.fab.plumb else s.fab.plumb } }

end Sys2Proof.Machine
end

