-- ==== Sys2Proof/Machine/Measure.lean ====
section
/-! DEFINITION. The measurement blocks of the attestation report (R367, Table 14.8). -/

namespace Sys2Proof.Machine
open Sys2Proof

/-- Block 0x04, raw: part number, enabled-cluster mask, life-cycle state, DEBUG_KILL, authority mode. -/
def blockPart (s : State) : Bytes :=
  leBytes 1 s.sp.part ++ leBytes 8 s.sp.mask.toNat ++ leBytes 1 (lcState s.sp.lcWord) ++ leBytes 1 s.sp.debugKill.toNat ++ leBytes 1 s.sp.authority
/-- Block 0x05: digest of the clusters, slices and key range of each partition. -/
def blockLayout (s : State) : Digest :=
  Config.sha384 (s.parts.flatMap (fun p => if p.2.live then
    leBytes 1 p.1 ++ leBytes 8 ((p.2.clusters.map (fun c => 2 ^ c)).foldl (· + ·) 0) ++ leBytes 8 p.2.hbmBase ++ leBytes 8 p.2.hbmLen
      ++ leBytes 8 p.2.capBase ++ leBytes 8 p.2.capLen ++ leBytes 2 p.2.keyFirst ++ leBytes 2 p.2.keyCount else []))
/-- Code of a session state in block 0x20 + p. -/
def sesCode : SesState → Nat
  | .pending => 0 | .running => 1 | .ended => 2
/-- Block 0x20 + p: SESSION_ID, state and BOUNCE_NONCE of the partition's sessions. -/
def blockSessions (s : State) (p : Nat) : Digest :=
  Config.sha384 (s.sp.sessions.flatMap (fun x => if x.2.partition = p then leBytes 16 x.2.id ++ leBytes 1 (sesCode x.2.state) ++ leBytes 16 x.2.nonce else []))

/-- The value of a measurement block; none where Table 14.8 has no such block. -/
def block (s : State) (i : Nat) : Option Bytes :=
  if i = 1 then some (digestBytes Config.romDigest)
  else if i = 2 then some (digestBytes s.sp.fwSp)
  else if i = 3 then some (digestBytes s.sp.fwHub)
  else if i = 4 then some (blockPart s)
  else if i = 5 then some (digestBytes (blockLayout s))
  else if 0x20 ≤ i ∧ i < 0x40 then some (digestBytes (blockSessions s (i - 0x20)))
  else if 0x40 ≤ i ∧ i < 0x60 then some (digestBytes (partOf s (i - 0x40)).progHead)
  else if 0x60 ≤ i ∧ i < 0x80 then some (digestBytes (partOf s (i - 0x60)).loadHead)
  else none
/-- Every block, ascending. -/
def allBlocks (s : State) : Bytes := (List.range 0x80).flatMap (fun i => (block s i).getD [])

end Sys2Proof.Machine
end

