-- ==== Sys2Proof/Machine/Ckpt.lean ====
section
/-! DEFINITION. Checkpoints (R329 to R345): health windows, capturing an image, restoring and verifying one. A request that passes its
checks stands in its session, and its work goes on as time passes, one action a nanosecond: a region begun, a granule read or
written after the 256 ns in which it is hashed, an object sent (DESIGN CHOICE: R334 bounds the times from above). -/

namespace Sys2Proof.Machine
open Sys2Proof

/-- HEALTH_WINDOW_EXPIRY: a monitor's window ends; the next one begins with a count of 0 (R329). -/
def execHealthWindowExpiry (monitor : Nat) (s : State) : Host.Outcome State Fault Refusal :=
  let v := monOf s monitor
  let w := monWindow monitor
  if 11 ≤ monitor ∨ s.ns < v.since + w then .next s
  else .next (setMon s monitor { v with count := 0, posted := false, since := v.since + (s.ns - v.since) / w * w })

/-! ## Checks of a capture (R332) -/

/-- The tracking unit behind a region (R330): 512 KiB where some piece lies in the interleaved view, else 64 KiB. -/
def Region.unit (s : State) (ctx : Nat) (r : Region) : Nat :=
  if r.vas.any (fun v => match physOf s ctx v with | some (pa, _) => (dieLocal pa).isNone && !isCap pa | none => false) then 524288 else 65536
/-- The region's or target's fields are in order (R332). -/
def Region.ok (s : State) (ctx : Nat) (r : Region) : Bool :=
  r.rsvd == 0 && r.va % 65536 == 0 && r.len % 65536 == 0 && r.len != 0 && r.list % 64 == 0 && decide (r.list < 2 ^ 48)
    && decide (r.va + r.len ≤ 2 ^ 48) && r.va % r.unit s ctx == 0 && r.len % r.unit s ctx == 0
/-- No two regions overlap. -/
def apart : List Region → Bool
  | [] => true
  | r :: l => l.all (fun q => decide (r.va + r.len ≤ q.va) || decide (q.va + q.len ≤ r.va)) && apart l
/-- The tracking unit behind an address is dirty (R330). -/
def unitDirty (s : State) (ctx va : Nat) : Bool := (unitOf s ctx va).any (fun g => !s.mem.clean.contains g)

/-- Bytes of an object of `n` plaintext bytes: padding to 64, and the tag's field (R336). -/
def objectBytes (n : Nat) : Nat := ceilDiv n 64 * 64 + 64
/-- Plaintext bytes of a list object. -/
def listBytes (g : Nat) : Nat := 48 * g + ceilDiv g 8
/-- Bytes of a manifest of `r` regions (R337). -/
def manifestBytes (r : Nat) : Nat := ceilDiv (0x160 + 96 * r + 4627) 64 * 64

/-- The granules that a capture takes of a region: every one, or for a DIFF those whose unit is dirty when it is accepted (R334;
DESIGN CHOICE: not when its turn comes, so that DEST_LEN holds the image; a unit that gets dirty later stays so). -/
def taken (s : State) (ctx : Nat) (diff : Bool) (r : Region) : List Nat :=
  (List.range r.grans).filter (fun g => !diff || unitDirty s ctx (r.va + 65536 * g))
/-- IMAGE_LEN of a capture. -/
def imageLen (s : State) (ctx : Nat) (diff : Bool) (l : List Region) : Nat :=
  (l.map (fun r => objectBytes (listBytes r.grans) + 65600 * (taken s ctx diff r).length)).foldl (· + ·) 0 + manifestBytes l.length

/-- The kind, key and address of an image's place are in order (Table 13.2): 0 host bus, 1 Lath, 2 device. -/
def placeFieldsOk (kind key addr : Nat) : Bool :=
  decide (kind ≤ 2) && decide (key < 256) && (kind != 0 || key == 0) && (kind != 1 || key % 2 == 0) && addr % 64 == 0
    && (kind != 2 || decide (addr < 2 ^ 48))

/-- Check 1 of R332. -/
def captureFieldsOk (s : State) (v : Session) (b : Bytes) : Bool :=
  let w0 := le b 0 4
  let kind := capKind b
  let l := captureRegions b
  let rec' := le b 0x18 8
  b.length == 0x30 + 32 * l.length && kind != 3 && bits w0 31 20 == 0 && le b 6 2 == 0 && placeFieldsOk (capDest b) (capKey b) (capAddr b)
    && (match v.chain with | some c => (match c.topNo with | some t => decide (t < capNo b) | none => true) | none => true)
    && (kind == 1 || le b 0x10 8 == 2 ^ 64 - 1)
    && capStepVa b % 128 == 0 && bits rec' 63 56 == 0 && (kind != 2 || (capStepVa b == 0 && l.all (fun r => r.list == 0)))
    && l.all (Region.ok s (capContext b)) && apart l
    && decide (imageLen s (capContext b) (kind == 1) l ≤ le b 0x28 8)

/-- A memory key context of a session. -/
def sesMemKey (s : State) (ses key : Nat) : Bool := memClass (keyOf s key) && (keyOf s key).state != .free && (keyOf s key).session == ses
/-- The key of an image's place is one of the session's (R332). -/
def placeKeyOk (s : State) (ses kind key : Nat) : Bool :=
  match kind with
  | 0 => true
  | 1 => isLathOf s ses key || isLathOf s ses (key + 1)
  | _ => sesMemKey s ses key
/-- A context is bound to a session. -/
def boundContext (s : State) (ses ctx : Nat) : Bool := (ctxOf s ctx).live && (ctxOf s ctx).session == ses

/-- Check 2 of R332. -/
def captureAllowed (s : State) (i : Nat) (b : Bytes) : Bool :=
  let ctx := capContext b
  let l := captureRegions b
  let slot := slotOf s (capSlot b)
  let others := (s.sp.sessions.filter (fun x => x.1 != i)).flatMap (fun x => match x.2.chain with | some c => c.granules | none => [])
  boundContext s i ctx
    && l.all (fun r => vcheck s ctx r.key r.va r.len .read == .ok)
    && (capKind b == 2 || l.all (fun r => vcheck s ctx r.key r.list (48 * r.grans) .read == .ok && vcheck s ctx r.key r.list (48 * r.grans) .write == .ok))
    && slot.cls == 5 && slot.state == .loaded && slot.session == i
    && placeKeyOk s i (capDest b) (capKey b)
    && l.all (fun r => (r.phys s ctx).all (fun g => !others.contains g))

/-- Check 3 of R332. -/
def diffBaseOk (v : Session) (b : Bytes) : Bool :=
  capKind b != 1 || (match v.chain with
    | some c => c.lastNo == some (le b 0x10 8) && (captureRegions b).map (fun r => (r.va, r.key, r.len)) == c.regions.map (fun x => (x.1, x.2.1, x.2.2.1))
    | none => false)

/-! ## Objects and the manifest (R336, R337) -/

/-- IV of an object. -/
def objectIv (region type g : Nat) : Bytes := leBytes 2 region ++ leBytes 1 type ++ leBytes 1 0 ++ leBytes 4 g ++ leBytes 4 0
/-- An encrypted object: ciphertext, tag, 48 zero bytes. -/
def sealObject (ck : BitVec 256) (region type g : Nat) (aad plain : Bytes) : Bytes :=
  let (c, t) := gcm ck (objectIv region type g) aad (plain ++ List.replicate (ceilDiv plain.length 64 * 64 - plain.length) 0)
  c ++ t ++ List.replicate 48 0
/-- The padded plaintext of an object that passes its tag. -/
def openObject (ck : BitVec 256) (region type g : Nat) (aad obj : Bytes) : Option Bytes :=
  gcmOpen ck (objectIv region type g) aad (obj.take (obj.length - 64)) (slice obj (obj.length - 64) 16)

/-- The capture bitmap: bit g set where granule g is present. -/
def bitmapBytes (g : Nat) (l : List Nat) : Bytes :=
  (List.range (ceilDiv g 8)).map (fun j => BitVec.ofNat 8 (((List.range 8).map (fun i => if l.contains (8 * j + i) then 2 ^ i else 0)).foldl (· + ·) 0))

/-- The manifest, signed and padded. -/
def manifestOf (s : State) (v : Session) (c : Capture) (step : Nat) : Bytes :=
  let b := c.operands
  let w0 := le b 0 4
  let body := leBytes 4 0x5A434B31 ++ leBytes 4 (1 + bits w0 13 12 * 2 ^ 16 + bits w0 17 14 * 2 ^ 18)
    ++ c.aad ++ leBytes 8 step
    ++ leBytes 8 (le b 0x10 8) ++ leBytes 8 (s.fab.plumb.epoch % 65536) ++ leBytes 8 s.fab.plumb.time ++ leBytes 8 (v.id % 2 ^ 64)
    ++ aesWrap (slotKey (slotOf s (capSlot b))) c.ck ++ leBytes 24 0 ++ digestBytes ((v.chain.map (·.prev)).getD 0)
    ++ digestBytes (Config.sha384 (allBlocks s)) ++ leBytes 32 0
    ++ c.table.flatMap (fun t => leBytes 8 (t.1.va + t.1.key * 2 ^ 48) ++ leBytes 4 t.1.grans ++ leBytes 4 t.2.1 ++ leBytes 8 t.2.2.1
        ++ digestBytes t.2.2.2 ++ leBytes 24 0)
  let full := body ++ slice (Config.sign body) 0 4723
  full ++ List.replicate (manifestBytes c.table.length - full.length) 0

/-! ## A capture under way (R334) -/

/-- Changes the capture of a session. -/
def modCapture (s : State) (i : Nat) (f : Capture → Capture) : State :=
  match captureOf s i with | some c => putCapture s i (f c) | none => s

/-- COMMIT_STEP of the named step record (steps 2 and 5); all ones where none is named. -/
def commitStep (s : State) (b : Bytes) : Status × Nat × State :=
  if capStepVa b = 0 then (.ok, 2 ^ 64 - 1, s)
  else
    let (st, x, s) := vread s (capContext b) (capStepKey b) (capStepVa b + 0x20) 8
    (st, le x 0 8, s)

/-- Clears the dirty bits behind a granule; its read then begins (step 3). -/
def clearDirty (s : State) (i : Nat) (grans : List Nat) (tries : Nat) : State :=
  let dirty := grans.filter (fun g => !s.mem.clean.contains g)
  modCapture { s with mem := { s.mem with clean := s.mem.clean ++ dirty } } i
    (fun c => { c with cleared := c.cleared ++ dirty.filter (fun g => !c.cleared.contains g), since := some (s.ns, tries) })

/-- A region begins: a DIFF reads the list area, whose digest must be the base's SHARD_DIGEST. -/
def captureBegin (s : State) (i : Nat) (v : Session) (c : Capture) (r : Region) : State :=
  let go := fun (s : State) (l : List Digest) => modCapture s i (fun c =>
    { c with begun := true, entries := l, todo := (c.picks[c.region]?).getD [], picked := [], objs := [], since := none })
  if capKind c.operands ≠ 1 then go s (List.replicate r.grans 0)
  else
    let (st, b, s) := vread s (capContext c.operands) r.key r.list (48 * r.grans)
    let base := (v.chain.bind (fun x => x.regions[c.region]?)).map (fun x => x.2.2.2)
    if st ≠ .ok then captureFail s i st
    else if base ≠ some (Config.sha384 b) then captureFail s i .tagMismatch
    else go s ((List.range r.grans).map (fun g => bytesDigest (slice b (48 * g) 48)))

/-- The read of a granule ends 256 ns after it began (256 GB/s): re-read, up to three times, where a dirty bit behind it has been
set again; else hashed and sealed. -/
def captureGranule (s : State) (i : Nat) (c : Capture) (r : Region) (g : Nat) (rest : List Nat) : State :=
  let ctx := capContext c.operands
  let va := r.va + 65536 * g
  match c.since with
  | none => clearDirty s i (unitOf s ctx va) 0
  | some (t, tries) =>
    if s.ns < t + 256 then s
    else if unitDirty s ctx va then (if 3 ≤ tries then captureFail s i .busy else clearDirty s i (unitOf s ctx va) (tries + 1))
    else
      let (st, b, s) := vread s ctx r.key va 65536
      if st ≠ .ok then captureFail s i st
      else modCapture s i (fun c =>
        { c with entries := c.entries.set g (Config.sha384 b), todo := rest, picked := c.picked ++ [g], since := none,
                 objs := c.objs ++ sealObject c.ck c.region 0 g c.aad b, top := if g = 0 then max c.top (le b 8 8) else c.top })

/-- A region ends: its list object stands before its granules, its SHARD_DIGEST is that of the entries. -/
def captureRegionEnd (c : Capture) (r : Region) : Capture :=
  let l := c.entries.flatMap digestBytes
  { c with
    region := c.region + 1, begun := false, entries := [], picked := [], objs := []
    objects := c.objects ++ sealObject c.ck c.region 1 0 c.aad (l ++ bitmapBytes r.grans c.picked) ++ c.objs
    table := c.table ++ [(r, c.picked.length, c.objects.length, Config.sha384 l)]
    lists := c.lists ++ [(r, l)] }

/-- Writes bytes of an image at an offset: a host bus address, packets to a Lath address, or device memory. -/
def writeImage (s : State) (i : Nat) (b : Bytes) (off : Nat) (data : Bytes) : Status × State :=
  match capDest b with
  | 0 => (.ok, hostWrite s (capAddr b + off) data)
  | 1 => (.ok, pumpCkptAll (modCapture s i (fun c => { c with link := { c.link with
      unsent := writePackets s ((pairActive s (capKey b)).getD (capKey b)) (capAddr b + off) data } })))
  | _ => vwrite s (capContext b) (capKey b) (capAddr b + off) data false
/-- The objects are written (step 4). -/
def captureWrite (s : State) (i : Nat) (c : Capture) : State :=
  match writeImage s i c.operands 0 c.objects with
  | (.ok, s) => modCapture s i (fun c => { c with sent := true })
  | (st, s) => captureFail s i st
/-- Writes the granule lists to their areas; the list of a region under a MEM_RO key stands under that key too, since captures are
exempt from R376. -/
def writeLists (s : State) (ctx : Nat) (l : List (Region × Bytes)) : Status × State :=
  l.foldl (fun (a : Status × State) x => if a.1 = .ok then vwrite a.2 ctx x.1.key x.1.list x.2 ((keyOf a.2 x.1.key).cls == 1) else a) (.ok, s)

/-- The chain after a capture's manifest (R338): a JOURNAL changes the digest alone; a FULL or DIFF registers its granules (R333). -/
def chainAfter (s : State) (old : Chain) (c : Capture) (digest : Digest) : Chain :=
  let b := c.operands
  if capKind b = 2 then { old with prev := digest, topNo := some (capNo b) }
  else { old with
    context := capContext b, prev := digest, lastNo := some (capNo b), topNo := some (capNo b)
    regions := c.table.map (fun t => (t.1.va, t.1.key, t.1.len, t.2.2.2))
    granules := c.table.flatMap (fun t => t.1.phys s (capContext b)) }
/-- The chain of a session, empty before its first manifest. -/
def sesChain (v : Session) (ctx : Nat) : Chain := v.chain.getD ⟨ctx, 0, none, none, [], [], []⟩

/-- Every object has been written: the lists, the second read of COMMIT_STEP, the manifest (steps 4 to 6). -/
def captureClose (s : State) (i : Nat) (v : Session) (c : Capture) : State :=
  let b := c.operands
  let (st, s) := if capKind b = 2 then (Status.ok, s) else writeLists s (capContext b) c.lists
  if st ≠ .ok then captureFail s i st
  else match commitStep s b with
    | (.ok, step, s) =>
      if step ≠ c.step then captureFail s i .busy
      else
        let m := manifestOf s v c (if capKind b = 2 then c.top else c.step)
        let d := Config.sha384 m
        match writeImage s i b c.objects.length m with
        | (.ok, s) => modCapture s i (fun c =>
            { c with final := some (chainAfter s (sesChain v (capContext b)) c d, c.objects.length + m.length, d) })
        | (st, s) => captureFail s i st
    | (st, _, s) => captureFail s i st

/-- The manifest has been written: the chain state follows, and IMAGE_LEN and the manifest's digest are answered. -/
def captureDone (s : State) (i : Nat) (c : Capture) (chain : Chain) (len : Nat) (d : Digest) : State :=
  match sesOf s i with
  | none => s
  | some v =>
    answerSp (endUse (setSes s i { v with capture := none, ckptBusy := false, chain := some chain }) (capSlot c.operands)) .ok [len] (digestBytes d)

/-- The next action of a capture. -/
def captureStep (s : State) (i : Nat) (v : Session) (c : Capture) : State :=
  match c.link.failed with
  | some st => captureFail s i st
  | none =>
    if !c.link.idle then s
    else match c.final with
      | some (chain, len, d) => captureDone s i c chain len d
      | none =>
        if c.sent then captureClose s i v c
        else match (captureRegions c.operands)[c.region]? with
          | none => captureWrite s i c
          | some r =>
            if !c.begun then captureBegin s i v c r
            else match c.todo with
              | g :: rest => captureGranule s i c r g rest
              | [] => modCapture s i (fun c => captureRegionEnd c r)

/-- An accepted capture (steps 1 and 2): CK is drawn, and COMMIT_STEP read. -/
def startCapture (s : State) (sess i : Nat) (b : Bytes) : State :=
  let picks := (captureRegions b).map (taken s (capContext b) (capKind b == 1))
  match useSlot s (capSlot b) 5 i with
  | (.ok, s) =>
    let (r, s) := draw s
    match commitStep s b with
    | (.ok, step, s) =>
      let c : Capture :=
        { operands := b, ck := r.truncate 256, step := step
          aad := leBytes 2 i ++ leBytes 2 s.fab.member.node ++ leBytes 4 s.fab.member.epoch ++ leBytes 8 (capNo b)
          picks := picks }
      let s := modSlot s (capSlot b) (fun w => { w with bound := w.bound + 1 })
      match sesOf s i with
      | some v => setSes s i { v with capture := some c, ckptBusy := true, asker := some sess }
      | none => s
    | (st, _, s) => answerSp s st [] []
  | (st, s) => answerSp s st [] []

/-- CKPT_CAPTURE (R331 to R338). -/
def execCkptCapture (sess session : Nat) (operands : Bytes) (s : State) : Host.Outcome State Fault Refusal :=
  request s sess (fun v => isIssuer s v || ownsSession s v session) (fun _ s =>
    match sesOf s session with
    | none => answerSp s .policyDenied [] []
    | some v =>
      if v.state = .ended then answerSp s .policyDenied [] []
      else if v.ckptBusy then answerSp s .busy [] []
      else if !captureFieldsOk s v operands then answerSp s .descInvalid [] []
      else if !captureAllowed s session operands then answerSp s .policyDenied [] []
      else if !diffBaseOk v operands then answerSp s .descInvalid [] []
      else if !drbgOk s then answerSp s .entropyNotReady [] []
      else if (rootBank s).isNone then answerSp s .notReady [] []
      else startCapture s sess session operands)

/-! ## Restoring and verifying (R341 to R344) -/

/-- Changes the restore of a session. -/
def modRestore (s : State) (i : Nat) (f : Restore → Restore) : State :=
  match restoreOf s i with | some r => putRestore s i (f r) | none => s

/-- The packets that read `n` bytes at a global address. -/
def readPackets (s : State) (key ga n : Nat) : List Packet :=
  let off := bits ga 35 0
  (cutPackets off n).map (fun p =>
    { blankPacket s 0x04 1 key (gaNode ga) with window := bits ga 47 36, offset := (off + p.1) % 2 ^ 36, len := 8, payload := leBytes 8 p.2 })
/-- Reads `n` bytes of an image at an offset: none while a Lath source has not returned them. -/
def sourceBytes (s : State) (i : Nat) (r : Restore) (off n : Nat) : Option (Status × Bytes) × State :=
  let src := r.source
  match src.source with
  | 0 => (some (.ok, slice src.host off n), s)
  | 1 =>
    let ps := readPackets s ((pairActive s src.key).getD src.key) (src.addr + off) n
    if !r.link.idle then (none, s)
    else if r.link.got.isEmpty then (none, pumpCkptAll (modRestore s i (fun r => { r with link := { r.link with unsent := ps } })))
    else
      let b := ps.flatMap (fun p => ((r.link.got.find? (fun x => x.1 == p.offset)).map (·.2)).getD [])
      (some (.ok, b), modRestore s i (fun r => { r with link := { r.link with got := [] } }))
  | _ =>
    let (st, b, s) := vread s r.context src.key (src.addr + off) n
    (some (st, b), s)

/-- A manifest's region entry (Table 13.3): GRANULES, CAPTURED, OBJ_OFF, SHARD_DIGEST, reserved. -/
def manifestRegion (b : Bytes) (i : Nat) : Nat × Nat × Nat × Digest × Nat :=
  let o := 0x100 + 96 * i
  (le b (o + 8) 4, le b (o + 12) 4, le b (o + 16) 8, bytesDigest (slice b (o + 24) 48), le b (o + 72) 24 + bits (le b o 8) 63 56)
/-- KIND of a manifest. -/
def manifestKind (b : Bytes) : Nat := bits (le b 4 4) 17 16

/-- Check 1 of R341 on the manifest and the targets. -/
def restoreFieldsOk (s : State) (ctx : Nat) (tb b : Bytes) : Bool :=
  let w := le b 4 4
  let n := bits w 21 18 + 1
  let ts := targetsOf tb
  b.length == manifestBytes n && le b 0 4 == 0x5A434B31 && bits w 15 0 == 1 && manifestKind b != 3 && bits w 31 22 == 0
    && le b 0x2A 6 == 0 && le b 0x68 24 == 0 && le b 0xE0 32 == 0
    && (manifestKind b == 1 || le b 0x20 8 == 2 ^ 64 - 1)
    && ts.length == n
    && (List.range n).all (fun i =>
      let (g, cap, _, _, rsvd) := manifestRegion b i
      let t := ts[i]?.getD ⟨0, 0, 0, 0, 0⟩
      rsvd == 0 && decide (cap ≤ g) && t.len == g * 65536 && t.ok s ctx)
    && apart ts

/-- The checkpoint-wrap slot of a session. -/
def wrapSlot (s : State) (i : Nat) : Option Nat :=
  (s.sp.slots.find? (fun x => x.2.cls == 5 && x.2.session == i && x.2.state == .loaded)).map (·.1)
/-- Check 2 of R341: the slot that WRAP_ID names, where nothing is denied. -/
def restoreAllowed (s : State) (i : Nat) (v : Session) (ctx : Nat) (tb : Bytes) (src : CkptSource) (b : Bytes) : Option Nat :=
  if src.sigsOk && v.members.any (fun m => m.2 == src.signer) && le b 8 2 == i && le b 0x38 8 == v.id % 2 ^ 64
      && boundContext s i ctx && (targetsOf tb).all (fun t => vcheck s ctx t.key t.va t.len .write == .ok)
  then wrapSlot s i else none
/-- Check 4 of R341. -/
def restoreBaseOk (v : Session) (ctx : Nat) (tb b : Bytes) : Bool :=
  manifestKind b != 1 || (match v.chain with
    | some c => c.restored.contains (ctx, le b 0x20 8, (targetsOf tb).map (fun t => (t.va, t.key, t.len)))
    | none => false)

/-- The manifest has been read: the checks of R341 in order, the unwrapping of CK among them; then the regions follow. -/
def restoreStart (s : State) (i : Nat) (v : Session) (r : Restore) (b : Bytes) : State :=
  if !restoreFieldsOk s r.context r.targets b then restoreFail s i .descInvalid
  else match restoreAllowed s i v r.context r.targets r.source b with
    | none => restoreFail s i .policyDenied
    | some slot => match useSlot s slot 5 i with
      | (.ok, s) => match aesUnwrap (slotKey (slotOf s slot)) (slice b 0x40 40) with
        | none => restoreFail s i .tagMismatch
        | some ck =>
          if !restoreBaseOk v r.context r.targets b then restoreFail s i .descInvalid
          else modRestore (modSlot s slot (fun w => { w with bound := w.bound + 1 })) i
            (fun r => { r with manifest := b, slot := slot, ck := ck })
      | (st, s) => restoreFail s i st

/-- Manifest bytes 0x008 to 0x017 are the additional data of every object (R336). -/
def objectAad (b : Bytes) : Bytes := slice b 8 16
/-- The list object of a region passes (R342 step 1): its entries and its present granules. -/
def listOf (r : Restore) (obj : Bytes) : Option (List Digest × List Nat) :=
  let (g, _, _, d, _) := manifestRegion r.manifest r.region
  match openObject r.ck r.region 1 0 (objectAad r.manifest) obj with
  | none => none
  | some p =>
    let l := slice p 0 (48 * g)
    if Config.sha384 l = d then
      some ((List.range g).map (fun j => bytesDigest (slice l (48 * j) 48)),
            (List.range g).filter (fun j => bit ((p[48 * g + j / 8]?.getD 0).toNat) (j % 8)))
    else none

/-- A region begins with its list object. A target under a MEM_RO key gets a measured load (R342); a full log refuses it. -/
def restoreList (s : State) (i : Nat) (r : Restore) (t : Region) : State :=
  let (g, _, off, d, _) := manifestRegion r.manifest r.region
  let n := objectBytes (listBytes g)
  match sourceBytes s i r off n with
  | (none, s) => s
  | (some (st, obj), s) =>
    if st ≠ .ok then restoreFail s i st
    else match listOf r obj with
      | none => restoreFail s i .tagMismatch
      | some (l, todo) =>
        let k := keyOf s t.key
        let noted := if k.cls = 1 ∧ r.verify = false then measAdd s (ctxOf s r.context).partition 3 r.context t.key k.role i t.len d else some s
        match noted with
        | none => restoreFail s i .busy
        | some s => modRestore s i (fun r => { r with begun := true, entries := l, todo := todo, off := off + n, since := s.ns })

/-- A present granule (R342 step 2): its tag, its digest, its write to the target. -/
def restoreGranule (s : State) (i : Nat) (r : Restore) (t : Region) (g : Nat) (rest : List Nat) : State :=
  match sourceBytes s i r r.off 65600 with
  | (none, s) => s
  | (some (st, obj), s) =>
    if st ≠ .ok then restoreFail s i st
    else match openObject r.ck r.region 0 g (objectAad r.manifest) obj with
      | none => restoreFail s i .tagMismatch
      | some p =>
        if r.entries[g]? ≠ some (Config.sha384 p) then restoreFail s i .tagMismatch
        else
          let (st, s) := if r.verify then (Status.ok, s)
            else vwrite s r.context t.key (t.va + 65536 * g) p ((keyOf s t.key).cls == 1)
          if st ≠ .ok then restoreFail s i st
          else modRestore s i (fun r => { r with todo := rest, off := r.off + 65600, since := s.ns })

/-- A region ends with its list (R342 step 4). DESIGN CHOICE: a JOURNAL's target with LIST_VA 0 gets none. -/
def restoreRegionEnd (s : State) (i : Nat) (r : Restore) (t : Region) : State :=
  let (st, s) := if r.verify || (manifestKind r.manifest == 2 && t.list == 0) then (Status.ok, s)
    else vwrite s r.context t.key t.list (r.entries.flatMap digestBytes) ((keyOf s t.key).cls == 1)
  if st ≠ .ok then restoreFail s i st
  else modRestore s i (fun r => { r with region := r.region + 1, begun := false, entries := [] })

/-- A target overlaps one of a list of targets. -/
def overlapsTarget (l : List (Nat × Nat × Nat)) (t : Nat × Nat × Nat) : Bool :=
  l.any (fun u => decide (t.1 < u.1 + u.2.2) && decide (u.1 < t.1 + t.2.2))
/-- The chain after a restore (R343). It is now the last image restored into its targets (R341), and no earlier one of a target that
it overlaps is. -/
def chainRestored (s : State) (old : Chain) (r : Restore) (d : Digest) : Chain :=
  let b := r.manifest
  let ts := targetsOf r.targets
  let no := le b 0x10 8
  let into := ts.map (fun t => (t.va, t.key, t.len))
  if manifestKind b = 2 then { old with prev := d }
  else { context := r.context, prev := d, lastNo := some no, topNo := some (match old.topNo with | some t => max t no | none => no),
         regions := ((List.range ts.length).zip ts).map (fun x => (x.2.va, x.2.key, x.2.len, (manifestRegion b x.1).2.2.2.1)),
         granules := ts.flatMap (fun t => t.phys s r.context),
         restored := (r.context, no, into) :: old.restored.filter (fun x => x.1 != r.context || !x.2.2.any (overlapsTarget into)) }
/-- Every region is done: the chain state, and the dirty bits behind the targets of a FULL or DIFF (R343). A verification changes
nothing (R344). -/
def restoreDone (s : State) (i : Nat) (v : Session) (r : Restore) : State :=
  let d := Config.sha384 r.manifest
  if r.verify then restoreEnd s i .ok (digestBytes d)
  else
    let grans := (targetsOf r.targets).flatMap (fun t => t.phys s r.context)
    let clear := grans.foldl (fun (a : List Nat) g => if a.contains g || s.mem.clean.contains g then a else g :: a) []
    let chain := chainRestored s (sesChain v r.context) r d
    let s := if manifestKind r.manifest = 2 then s else { s with mem := { s.mem with clean := s.mem.clean ++ clear } }
    restoreEnd (setSes s i { v with chain := some chain }) i .ok (digestBytes d)

/-- The next action of a restore or verification. -/
def restoreStep (s : State) (i : Nat) (v : Session) (r : Restore) : State :=
  match r.link.failed with
  | some st => restoreFail s i st
  | none =>
    if r.manifest.isEmpty then
      match sourceBytes s i r r.source.manOff (manifestBytes (targetsOf r.targets).length) with
      | (none, s) => s
      | (some (st, b), s) => if st ≠ .ok then restoreFail s i st else restoreStart s i v r b
    else match (targetsOf r.targets)[r.region]? with
      | none => restoreDone s i v r
      | some t =>
        if !r.begun then restoreList s i r t
        else match r.todo with
          | g :: rest => if s.ns < r.since + 256 then s else restoreGranule s i r t g rest
          | [] => restoreRegionEnd s i r t

/-- The operand fields of a restore that need no manifest are in order (R341). -/
def restoreOperandsOk (targets : Bytes) (src : CkptSource) : Bool :=
  placeFieldsOk src.source src.key src.addr && targets.length % 32 == 0 && targets.length != 0 && decide (targets.length ≤ 512)

/-- CKPT_RESTORE or CKPT_VERIFY: the checks that need no manifest; then the request stands in its session. DESIGN CHOICE: the bound
context and the source's key are checked before the manifest is read through them. -/
def startRestore (s : State) (sess session : Nat) (v : Session) (verify : Bool) (context : Nat) (targets : Bytes) (source : CkptSource) : State :=
  if v.state = .ended then answerSp s .policyDenied [] []
  else if v.ckptBusy then answerSp s .busy [] []
  else if !restoreOperandsOk targets source then answerSp s .descInvalid [] []
  else if !boundContext s session context || !placeKeyOk s session source.source source.key then answerSp s .policyDenied [] []
  else setSes s session { v with ckptBusy := true, asker := some sess, restore := some { verify := verify, context := context, targets := targets, source := source } }

/-- CKPT_RESTORE (R341 to R343). -/
def execCkptRestore (sess session context : Nat) (targets : Bytes) (source : CkptSource) (s : State) : Host.Outcome State Fault Refusal :=
  request s sess (fun v => isIssuer s v || ownsSession s v session) (fun _ s =>
    match sesOf s session with
    | none => answerSp s .policyDenied [] []
    | some v => startRestore s sess session v false context targets source)

/-- CKPT_VERIFY: every check of R341 and R342, and nothing written (R344). -/
def execCkptVerify (sess session context : Nat) (targets : Bytes) (source : CkptSource) (s : State) : Host.Outcome State Fault Refusal :=
  request s sess (fun v => isIssuer s v || ownsSession s v session) (fun _ s =>
    match sesOf s session with
    | none => answerSp s .policyDenied [] []
    | some v => startRestore s sess session v true context targets source)

/-! ## As time passes -/

/-- The checkpoint request of a session goes on, unless the module is in the dust-sheet state or the hub's memory accesses wait for
a link (R229). -/
def ckptStep (s : State) (i : Nat) : State :=
  if s.pow.dustSheet || dieWaits s hubDie then s
  else match sesOf s i with
    | none => s
    | some v => match v.capture, v.restore with
      | some c, _ => captureStep s i v c
      | none, some r => restoreStep s i v r
      | none, none => s
/-- Sessions with a checkpoint request. -/
def ckptSessions (s : State) : List Nat := (s.sp.sessions.filter (fun x => x.2.capture.isSome || x.2.restore.isSome)).map (·.1)
/-- One nanosecond for every checkpoint request under way; a firmware activation may wait for its end (R181). -/
def ckptTick (s : State) : State :=
  if (ckptSessions s).isEmpty then s else fwProgress ((ckptSessions s).foldl ckptStep s)
/-- What happens when no command waits: half a nanosecond passes; at the end of a nanosecond, checkpoints and life-cycle programming
go on, and an answer that waited is given. -/
def idle (s : State) : State := if s.half then lateTick (programTick (ckptTick (tick s))) else tick s

end Sys2Proof.Machine
end

