-- ==== Sys2Proof/Machine/CoreEvents.lean ====
section
/-! DEFINITION. Releases of wait points, signal increments and landings of mesh puts (R95 to R99). A release of END, which
completes a task, is in Machine/Completion.lean. -/

namespace Sys2Proof.Machine
open Sys2Proof

/-- WAIT_TOK_RELEASE: a pending WAIT_TOK whose tokens have settled, and whose task's edges have resolved, releases. -/
def execWaitTokRelease (core : Nat) (s : State) : Host.Outcome State Fault Refusal :=
  match (coreOf s core).wait with
  | some (.tok l g m) =>
    if waitHolds s core (.tok l g m) && mayCommit s core then .next (releaseWait s core (cycleOf s core + 1)) else .next s
  | _ => .next s

/-- WAIT_SIG_RELEASE. -/
def execWaitSigRelease (core : Nat) (s : State) : Host.Outcome State Fault Refusal :=
  match (coreOf s core).wait with
  | some (.sig n t) =>
    if waitHolds s core (.sig n t) && mayCommit s core then .next (releaseWait s core (cycleOf s core + 1)) else .next s
  | _ => .next s

/-- WAIT_ARR_RELEASE. -/
def execWaitArrRelease (core : Nat) (s : State) : Host.Outcome State Fault Refusal :=
  match (coreOf s core).wait with
  | some (.arr n t) =>
    if waitHolds s core (.arr n t) && mayCommit s core then .next (releaseWait s core (cycleOf s core + 1)) else .next s
  | _ => .next s

/-- Crew cores of a cluster that stand at a barrier whose condition holds. -/
def syncReady (s : State) (r : TaskRef) (t : Task) (barrier cluster : Nat) : List Nat :=
  (crewCores s r t).filter (fun c => c / 16 == cluster && (coreOf s c).wait == some (.sync barrier)
    && waitHolds s c (.sync barrier) && mayCommit s c)

/-- CREW_SYNC_RELEASE: the crew cores of one cluster release together (R97): in a crew of one cluster exactly 4 cycles
after the last arrival, otherwise when the hub has seen every core. Where the task's unresolved edges hold a first CREW_SYNC of one
cluster past those 4 cycles (R99), its release lets the next bundle issue at once (DESIGN CHOICE: R97's 4 cycles are then over,
and no rule counts new ones). -/
def execCrewSyncRelease (queue task barrier cluster : Nat) (s : State) : Host.Outcome State Fault Refusal :=
  match taskOf s ⟨queue, task⟩ with
  | none => .next s
  | some t =>
    let l := syncReady s ⟨queue, task⟩ t barrier cluster
    let last := t.cores.foldl (fun m c => max m (coreOf s c).arrived) 0
    let next := if t.clusterCount = 1 then last + 4 else (clusterOf s cluster).cycle + 1
    .next (l.foldl (fun s c => releaseWait s c (next - (coreOf s c).held)) s)

/-- A signal on its way can take effect (R96): the target core runs the sender's task, the signal's cycle has come, the
sender's earlier puts to that core have landed and its earlier cross-cluster COPYs and GATHERs have completed. -/
def signalDue (s : State) (g : Signal) : Bool :=
  (coreOf s g.target).task == some g.task && g.due ≤ clusterCycle s g.target
    && s.puts.all (fun p => !(p.sender == g.sender && p.target == g.target && p.seq < g.before))
    && g.afterCopies.all (fun q => (coreOf s g.sender).dma.all (fun o => o.seq != q))

/-- SIGNAL_INCREMENT: one signal from the sender adds 1 to the target's counter. -/
def execSignalIncrement (sender target counter : Nat) (s : State) : Host.Outcome State Fault Refusal :=
  match s.signals.find? (fun g => g.sender == sender && g.target == target && g.counter == counter && signalDue s g) with
  | none => .next s
  | some g =>
    let s := modCore s target (fun c => { c with signals := tput 0 c.signals counter (tget 0 c.signals counter + 1) })
    .next { s with signals := s.signals.erase g }

/-- The put that lands next on a core: of those whose cycle has come, the lowest sender crew index (R95). -/
def nextPut (s : State) (target : Nat) : Option MeshPut :=
  (s.puts.filter (fun p => p.target == target && p.land ≤ clusterCycle s target)).foldl
    (fun (b : Option MeshPut) p => match b with
      | none => some p
      | some q => if p.crewIndex < q.crewIndex then some p else some q) none

/-- MESH_PUT_LAND: one put lands on a core; port-F reads see it from the next cycle on; the others wait a cycle each. -/
def execMeshPutLand (target : Nat) (s : State) : Host.Outcome State Fault Refusal :=
  match nextPut s target with
  | none => .next s
  | some p =>
    let now := clusterCycle s target
    let s := modCore s target (fun c => { c with pend := c.pend ++ [.put (now + 1) p.addr (regBytes p.data)] })
    let puts := (s.puts.erase p).map (fun q => if q.target = target ∧ q.land ≤ now then { q with land := now + 1 } else q)
    let signals := s.signals.map (fun g =>
      if g.sender = p.sender ∧ g.target = target ∧ p.seq < g.before then { g with due := max g.due (now + 1) } else g)
    .next { s with puts := puts, signals := signals }

end Sys2Proof.Machine
end

