-- ==== Sys2Proof/Machine/Engine.lean ====
section
/-! DEFINITION. The engines (chapter 03): GANG, STAGE, TILE, C fill and DRAIN, each step with its earliest cycle, and the
conversion of a drained region. Loads of stationary sets and the sums of passes come about on their own as their cycles come
(`settle`). In the stop sequence of a task nothing more starts or completes on its tile paths (R73). -/

namespace Sys2Proof.Machine
open Sys2Proof

/-! ## The array path -/

/-- The first operation of the array path that is not a TILE whose streaming has ended, with its position. -/
def arrayHead (c : Core) (now : Nat) : Option (Nat × ArrayOp) :=
  ((List.range c.arrayPath.length).zip c.arrayPath).find? (fun p => !streamDone c now p.2)

/-- Replaces an operation of the array path. -/
def setArray (c : Core) (i : Nat) (o : ArrayOp) : Core := { c with arrayPath := c.arrayPath.set i o }

/-- GANG_START: every earlier tile-slot operation has completed (R55). -/
def execGangStart (core : Nat) (s : State) : Host.Outcome State Fault Refusal :=
  let c := coreNow s core
  if coreStopped s core then .next s else
  match c.arrayPath with
  | o :: _ =>
    if o.kind = 4 ∧ o.phase = .queued ∧ c.drainPath.all (fun d => o.issue < d.issue) then
      .next (setCore s core (setArray c 0 { o with phase := .running, start := cycleOf s core }))
    else .next s
  | [] => .next s

/-- GANG_COMPLETE: 16 cycles after its start the configuration changes and every register is idle (R55). -/
def execGangComplete (core : Nat) (s : State) : Host.Outcome State Fault Refusal :=
  let c := coreNow s core
  let now := cycleOf s core
  if coreStopped s core then .next s else
  match c.arrayPath with
  | o :: l =>
    if o.kind = 4 ∧ o.phase = .running ∧ o.start + 16 ≤ now then
      .next (setCore s core
        { c with gang := o.gang, active := none, shadow := none, arrayPath := l, loadDone := now, loaded := false, arrayFree := now })
    else .next s
  | [] => .next s

/-- The first STAGE of the array path before which only TILEs with their last pass swapped in stand, with its position. -/
def stageHead (c : Core) : Option (Nat × ArrayOp) :=
  match loadHead c with
  | some (i, o) => if o.kind = 2 then some (i, o) else none
  | none => none

/-- STAGE_START: after the swap into the last pass of the preceding TILE (R70). -/
def execStageStart (core : Nat) (s : State) : Host.Outcome State Fault Refusal :=
  let c := coreNow s core
  if coreStopped s core then .next s else
  match stageHead c with
  | some (i, o) =>
    if o.phase = .queued then
      .next (setCore s core (setArray { c with loaded := false } i { o with phase := .running, start := cycleOf s core }))
    else .next s
  | none => .next s

/-- STAGE_COMPLETE: 128 cycles after its start the shadow holds the record's first set (R57, R70). -/
def execStageComplete (core : Nat) (s : State) : Host.Outcome State Fault Refusal :=
  let c := coreNow s core
  let now := cycleOf s core
  if coreStopped s core then .next s else
  match stageHead c with
  | some (i, o) =>
    if o.phase = .running ∧ o.start + 128 ≤ now then
      .next (setCore s core { c with loadDone := now, loaded := false, arrayFree := now, arrayPath := c.arrayPath.eraseIdx i })
    else .next s
  | none => .next s

/-- The next pass of a TILE may swap in (R64, R68 to R70). -/
def swapReady (c : Core) (now : Nat) (o : ArrayOp) : Bool :=
  if o.pass = 0 then
    o.issue + 6 ≤ now
      && (if o.tile.preload then c.shadow.any (fun t => t.recd == o.recAddr) else max o.issue c.loadDone + 128 ≤ now)
      && o.fill == 2 && o.fillAt ≤ now
      && c.drainPath.all (fun d => o.issue ≤ d.issue || !overlaps d.tile o.tile)
  else o.start + max o.stream 128 ≤ now

/-- TILE_PASS_SWAP: active and shadow registers are exchanged and a pass starts to stream, its rows read by the render stage
from 6 cycles before; the loader turns to the next pass's set, if there is one (R51, R66 to R68). -/
def execTilePassSwap (core : Nat) (s : State) : Host.Outcome State Fault Refusal :=
  let c := coreNow s core
  let now := cycleOf s core
  if coreStopped s core then .next s else
  match arrayHead c now with
  | some (i, o) =>
    if o.kind = 1 ∧ o.pass < passes c.gang o.tile ∧ swapReady c now o then
      .next (setCore s core (setArray { c with active := c.shadow, shadow := c.active, loadDone := now, loaded := false }
        i { o with phase := .running, start := now, pass := o.pass + 1 }))
    else .next s
  | none => .next s

/-- TILE_COMPLETE: every entry of the region holds its final value (R68). -/
def execTileComplete (core : Nat) (s : State) : Host.Outcome State Fault Refusal :=
  let c := coreNow s core
  if coreStopped s core then .next s else
  match c.arrayPath with
  | o :: l =>
    if lastSwapped c.gang o ∧ o.start + o.stream + (gangShape c.gang).2.2 ≤ cycleOf s core then
      .next (setCore s core { c with arrayPath := l })
    else .next s
  | [] => .next s

/-! ## The drain path -/

/-- The TILE of a C fill, with its position on the array path, once it has started: it has issued and no GANG issued
before it is still on the path (R68, R70; DEDUCED: a TILE's times count from its issue, or from the completion of a
GANG before it). -/
def fillTile (c : Core) (d : DrainOp) : Option (Nat × ArrayOp) :=
  match ((List.range c.arrayPath.length).zip c.arrayPath).find? (fun p => p.2.kind == 1 && p.2.issue == d.issue) with
  | some (i, o) => if (c.arrayPath.take i).all (fun q => q.kind != 4) then some (i, o) else none
  | none => none

/-- C_FILL_START: at the TILE's start and with the drain path free (R64). -/
def execCFillStart (core : Nat) (s : State) : Host.Outcome State Fault Refusal :=
  let c := coreNow s core
  let now := cycleOf s core
  if coreStopped s core then .next s else
  match c.drainPath with
  | d :: l =>
    match fillTile c d with
    | some (i, o) =>
      if d.isFill ∧ !d.running ∧ drainFreeOf c d then
        .next (setCore s core (setArray { c with drainPath := { d with running := true, start := now } :: l } i { o with fill := 1, fillAt := now }))
      else .next s
    | none => .next s
  | [] => .next s

/-- The initial C of a TILE in the accumulator entries (R36, R64), 256 elements read in each cycle of the fill from its start
on (DESIGN CHOICE: R64 gives the interval and no schedule within it). -/
def fillAcc (c : Core) (d : DrainOp) : Tab Word :=
  let v := viewOf d.desc none
  (List.range (ceilDiv (d.tile.m * d.tile.n) 256)).foldl (fun acc k =>
    let m := storeAt c (d.start + k)
    (drainGroup d.tile k).foldl (fun acc i =>
      tput 0 acc (d.tile.base + i) (BitVec.ofNat 32 (widenInit d.desc.fmt (v.read (mread m) (entryCoords d.tile i))))) acc) c.acc

/-- C_FILL_COMPLETE: 4 + ⌈M × N / 256⌉ cycles after its start the entries hold the initial C. -/
def execCFillComplete (core : Nat) (s : State) : Host.Outcome State Fault Refusal :=
  let c := coreNow s core
  let now := cycleOf s core
  if coreStopped s core then .next s else
  match c.drainPath with
  | d :: l =>
    if d.isFill ∧ d.running ∧ d.start + drainTime d.tile ≤ now then
      .next (setCore s core
        { c with
          acc := fillAcc c d, drainPath := l, drainFree := now,
          arrayPath := c.arrayPath.map (fun o => if o.kind = 1 ∧ o.issue = d.issue then { o with fill := 2, fillAt := now } else o) })
    else .next s
  | [] => .next s

/-- DRAIN_START: after every earlier overlapping TILE has completed (R69). -/
def execDrainStart (core : Nat) (s : State) : Host.Outcome State Fault Refusal :=
  let c := coreNow s core
  if coreStopped s core then .next s else
  match c.drainPath with
  | d :: l =>
    if !d.isFill ∧ !d.running ∧ drainFreeOf c d then
      .next (setCore s core { c with drainPath := { d with running := true, start := cycleOf s core } :: l })
    else .next s
  | [] => .next s

/-- The inputs of the output block that holds a position: 32 accumulator values along the block dimension, +0 out of
bounds (R121). -/
def drainBlock (c : Core) (d : DrainOp) (v : View) (p : List Nat) : List Nat :=
  let b := d.desc.blkDim
  let start := nth p b / 32 * 32
  (List.range 32).map (fun i =>
    let q := p.set b (start + i)
    if v.inside q && nth q 0 < d.tile.n && nth q 1 < d.tile.m then (tget 0 c.acc (d.tile.base + nth q 1 * d.tile.n + nth q 0)).toNat else 0)

/-- The bits a DRAIN writes (R71, R118, R121): each in-bounds element converted under OUT_DESC, and its block's scale. -/
def drainWrites (c : Core) (d : DrainOp) : List BitWrite :=
  let o := d.desc
  let v := viewOf o none
  (List.range (d.tile.m * d.tile.n)).flatMap (fun i =>
    let p := entryCoords d.tile i
    if v.inside p then
      let x := (tget 0 c.acc (d.tile.base + i)).toNat
      let r := if o.round then some (srWord o.seed (localIdx o p)) else none
      if o.scaled then
        let sc := blockScale o.fmt (drainBlock c d v p)
        v.write p (convScaled o.fmt sc r x) sc
      else v.write p (convUnscaled o.fmt r x) 0
    else [])

/-- DRAIN_COMPLETE: the converted outputs stand in the core store; the accumulator is unchanged (R71). -/
def execDrainComplete (core : Nat) (s : State) : Host.Outcome State Fault Refusal :=
  let c := coreNow s core
  let now := cycleOf s core
  if coreStopped s core then .next s else
  match c.drainPath with
  | d :: l =>
    if !d.isFill ∧ d.running ∧ d.start + drainTime d.tile ≤ now then
      .next (setCore s core { (drainWrites c d).foldl (fun c w => storeBits c now w) c with drainPath := l, drainFree := now })
    else .next s
  | [] => .next s

end Sys2Proof.Machine
end

