-- ==== Sys2Proof/Machine/LifeCycle.lean ====
section
/-! DEFINITION. Life cycle and debug authorisation (chapter 15): tokens and nonces, transitions, the debug port and its closure. -/

namespace Sys2Proof.Machine
open Sys2Proof

/-- The platform in LOCAL mode. -/
def isPlatform (s : State) (v : Spdm) : Bool := s.sp.authority == 0 && v.cls == .platform

/-! ## Codes and the debug port -/

/-- The transitions that exist (R382). -/
def transition (a b : Nat) : Bool := [(0, 1), (1, 2), (2, 3), (3, 4), (4, 5), (3, 5)].contains (a, b)
/-- DEBUG_KILL closes the port for ever once any bit of its field reads 1 (R394). -/
def killed (s : State) : Bool := s.sp.debugKill != 0
/-- The IEEE 1149.1 port is open (Table 15.6, R392, R394). -/
def debugPortOpen (s : State) : Bool :=
  !killed s && (match lcState s.sp.lcWord with
    | 0 => true | 1 => true | 4 => true
    | 2 => s.sp.debugOpen.isSome | 3 => s.sp.debugOpen.isSome
    | _ => false)

/-! ## What the debug port reaches (R390 to R392). The command table has no row for an access through the port: REGISTER_WRITE and
RC_FIELD_READ of addresses above BAR0 stand for such accesses (Registers.lean, log entry 56). -/

/-- What an access through the port can ask for. -/
inductive DebugTarget where
  | trace | counters | pages      -- SCOPE 1 and 2
  | hubCores                      -- SCOPE 2: halt, step and memory access of the hub firmware cores
  | testModes                     -- the memory factory test modes
  | island | keyStore | otp | bitmaps
  deriving DecidableEq, Repr, Inhabited

/-- The life-cycle states that permit the memory factory test modes: TEST and RMA (Table 15.6). -/
def testModes (state : Nat) : Bool := state == 1 || state == 4
/-- A write of the select bits through the debug port: dropped where the port is closed, and in states other than TEST and RMA,
where the hardware holds the bits at 0 (R391). -/
def testSelectWrite (s : State) (on : Bool) : State :=
  if debugPortOpen s && testModes (lcState s.sp.lcWord) then { s with sp := { s.sp with testAccess := on } } else s
/-- What the port reaches: by SCOPE in PROVISIONED and FIELD, where a token opens it (R392); in BLANK, TEST and RMA, where it is open,
what SCOPE 2 reaches, and in TEST and RMA the test modes (R391). Never the island, the key store, OTP or the bitmaps. DEDUCED:
without a token there is no SCOPE that narrows the reach. -/
def debugReach (s : State) (t : DebugTarget) : Bool :=
  let scope := match s.sp.debugOpen with | some (c, _, _, _) => c | none => 2
  debugPortOpen s && (match t with
    | .trace => true | .counters => true | .pages => true
    | .hubCores => scope == 2
    | .testModes => testModes (lcState s.sp.lcWord)
    | .island => false | .keyStore => false | .otp => false | .bitmaps => false)
/-- Halts the hub firmware cores, or lets them go on (R392). The flag alone: the rules say nothing of what the firmware then leaves
undone. -/
def hubHaltWrite (s : State) (on : Bool) : State := if debugReach s .hubCores then { s with sp := { s.sp with hubHalt := on } } else s
/-- Direct access to the arrays is open: the select bits are set, the port is open, and the state permits it. -/
def arrayOpen (s : State) : Bool := s.sp.testAccess && debugPortOpen s && testModes (lcState s.sp.lcWord)
/-- A direct read of a line: the stored ciphertext and metadata, past the cipher, the tags and the Primer (R391). -/
def arrayRead (s : State) (a : Nat) : Option (Bytes × Bytes) :=
  if arrayOpen s then some ((lineInfo s (lineBase a)).cipher, lineMeta s (lineBase a)) else none
/-- A direct write of a line's ciphertext and of its metadata's TAG, generation and POISON, past the cipher, the tags and the Primer
(R391): the line carries the TAG of no key, which key index 512 stands for. CHECK follows, since the write goes through the
code of R189. -/
def arrayWrite (s : State) (a : Nat) (cipher : Bytes) (tag gen : Nat) (poison : Bool) : State :=
  let l : Line := { key := 512, gen := gen % 4, poison := poison, cipher := cipher, tag := tag % 2 ^ 28 }
  if arrayOpen s then { s with mem := { s.mem with lines := tins s.mem.lines (lineBase a) l } } else s

/-! ## Nonces and tokens (R385, R386) -/

/-- A fresh outstanding nonce: it replaces the one before. `debug`: for DEBUG_UNLOCK (Table 15.2). -/
def freshNonce (s : State) (debug : Bool) : State :=
  if !drbgOk s then answerSp s .entropyNotReady [] []
  else
    let (r, s) := draw s
    let n : BitVec 256 := r.truncate 256
    answerSp { s with sp := { s.sp with nonce := some n, nonceAt := s.ns, nonceDebug := debug } } .ok [] (keyBytes n)

/-- A token presents the outstanding nonce. -/
def presents (s : State) (t : AuthToken) : Bool := match s.sp.nonce with | some n => le t.bytes 0x50 32 == n.toNat | none => false
/-- Checks 1 to 5 of R386 for a token of a kind; the nonce is the outstanding one, and of the request that issues such nonces (Table
15.2, R392). -/
def tokenOk (s : State) (t : AuthToken) (kind : Nat) : Bool :=
  let b := t.bytes
  let target := le b 5 1
  t.sigsOk && b.length == 4979
    && le b 0 4 == 0x5A4C4331 && le b 4 1 == kind && le b 7 1 == 0 && le b 0x0C 4 == 0 && bits (le b 0x70 4) 31 3 == 0
    && le b 0x74 4 == 0 && le b 0xB0 80 == 0
    && ((kind == 1 && target == 2 && !bit (le b 0x70 4) 0) || le b 0x80 48 == 0)
    && le b 0x10 16 == Config.serial.toNat
    && ((rootBank s).isNone || bytesDigest (slice b 0x20 48) == ownIdentity s)
    && presents s t && s.sp.nonceDebug == (kind == 2)
    && (kind != 2 || (decide (1 ≤ le b 8 4) && decide (le b 8 4 ≤ 86400)))
/-- The outstanding nonce is consumed. -/
def useNonce (s : State) : State := { s with sp := { s.sp with nonce := none } }
/-- A token request that presents the outstanding nonce consumes it, whatever becomes of the request (R385). -/
def spendNonce (s : State) (t : AuthToken) : State := if presents s t then useNonce s else s

/-- What LC_GET answers: state number, raw word, DEBUG_KILL, SERIAL (R384). -/
def answerState (s : State) : State :=
  answerSp s .ok [lcState s.sp.lcWord, s.sp.lcWord.toNat, s.sp.debugKill.toNat] (leBytes 16 Config.serial.toNat)
/-- LC_GET. In INVALID and SCRAP, where no SPDM session is, it alone is answered, without one (R383, R389). -/
def execLcGet (sess : Nat) (s : State) : Host.Outcome State Fault Refusal :=
  if spRuns s && lcHalted (settleProgramming s) then .next (answerState (settleProgramming s))
  else request s sess anyone (fun _ s => answerState s)
/-- LC_NONCE (R385). -/
def execLcNonce (sess : Nat) (s : State) : Host.Outcome State Fault Refusal := request s sess anyone (fun _ s => freshNonce s false)
/-- DEBUG_CHALLENGE (R385). -/
def execDebugChallenge (sess : Nat) (s : State) : Host.Outcome State Fault Refusal := request s sess anyone (fun _ s => freshNonce s true)

/-- NONCE_LAPSE: 600 s after issue (R385). -/
def execNonceLapse (s : State) : Host.Outcome State Fault Refusal :=
  .next (if s.sp.nonce.isSome && decide (s.sp.nonceAt + 600000000000 ≤ s.ns) then useNonce s else s)

/-! ## Transitions (R387 to R389) -/

/-- Clusters that the mask enables in a die. -/
def maskBits (m d : Nat) : Nat := ((List.range 16).filter (fun i => bit m (16 * d + i))).length
/-- The condition of Table 15.4 for a target, with the token's fields. -/
def lcCondition (s : State) (target : Nat) (b : Bytes) : Bool :=
  match target with
  | 1 => true
  | 2 =>
    let part := bits (le b 0x70 4) 2 1
    let m := le b 0x78 8
    decide (part ≤ 2) && (List.range 4).all (fun d => maskBits m d == 16 - part) && !s.sp.testAccess
  | 3 => (rootBank s).isSome && s.sp.certStored && Config.leafIdentity == ownIdentity s
  | _ => s.sp.sessions.all (fun x => x.2.state == .ended) && s.sp.debugOpen.isNone && s.sp.sessions.all (fun x => !x.2.ckptBusy)

/-- Programming may start (R388): 44 V, BRAKE_IN# deasserted, no dust sheet. -/
def mayProgram (s : State) : Bool := decide (44000 ≤ s.pow.mv) && !s.pow.brake && !s.pow.dustSheet

/-- Programming of a state begins: what Table 15.4 writes before the state bits stands in OTP, the bits follow one by one, and the
request completes when the last has (R388, Reset.lean). -/
def advanceTo (s : State) (target : Nat) (b : Bytes) : State :=
  { s with sp := { s.sp with
    programming := some (target, s.ns)
    part := if target = 2 then bits (le b 0x70 4) 2 1 else s.sp.part
    mask := if target = 2 then BitVec.ofNat 64 (le b 0x78 8) else s.sp.mask
    authority := if target = 2 then le b 0x70 4 % 2 else s.sp.authority
    platform := if target = 2 then bytesDigest (slice b 0x80 48) else s.sp.platform } }

/-- A transition that is authorised: it exists, its conditions hold, and programming may start (R382, R387, R388). -/
def advance (s : State) (target : Nat) (b : Bytes) : State :=
  if !transition (lcState s.sp.lcWord) target || !lcCondition s target b then answerSp s .policyDenied [] []
  else if !mayProgram s then answerSp s .notReady [] []
  else advanceTo s target b
/-- LC_ADVANCE: token, transition, conditions, programming (R386 to R389). In LOCAL mode the platform needs no token for
FIELD to RMA and FIELD to SCRAP. -/
def execLcAdvance (sess : Nat) (by' : Advance) (s : State) : Host.Outcome State Fault Refusal :=
  request s sess anyone (fun v s =>
    match by' with
    | .token t => if tokenOk s t 1 then advance (spendNonce s t) (le t.bytes 5 1) t.bytes else answerSp (spendNonce s t) .policyDenied [] []
    | .target n =>
      if isPlatform s v && lcState s.sp.lcWord == 3 && (n == 4 || n == 5) then advance s n []
      else answerSp s .policyDenied [] [])

/-! ## Debug (R392 to R394) -/

/-- The debug session ends and the port closes; halted hub firmware cores resume (R393, Table 15.7). -/
def closeDebug (s : State) : State := { s with sp := { s.sp with debugOpen := none, hubHalt := false } }

/-- DEBUG_UNLOCK (R392): in PROVISIONED and FIELD, with a KIND 2 token; in FIELD only while no session is open or PENDING. -/
def execDebugUnlock (sess : Nat) (token : AuthToken) (s : State) : Host.Outcome State Fault Refusal :=
  request s sess anyone (fun _ s =>
    let b := token.bytes
    let now := lcState s.sp.lcWord
    let scope := le b 6 1
    let ok := tokenOk s token 2 && (scope == 1 || scope == 2)
    let s := spendNonce s token
    if !ok then answerSp s .policyDenied [] []
    else
      if (now ≠ 2 ∧ now ≠ 3) ∨ killed s = true ∨ (now = 3 ∧ s.sp.sessions.all (fun x => x.2.state == .ended) = false) then
        answerSp s .policyDenied [] []
      else answerSp { s with sp := { s.sp with debugOpen := some (scope, s.ns, le b 8 4, some sess), debugged := s.sp.debugged || now == 3 } } .ok [] [])

/-- DEBUG_LOCK: from the SPDM session that unlocked, or the platform (Table 15.2). -/
def execDebugLock (sess : Nat) (s : State) : Host.Outcome State Fault Refusal :=
  request s sess anyone (fun v s =>
    let mine := match s.sp.debugOpen with | some (_, _, _, u) => u == some sess | none => false
    if mine || isPlatform s v then answerSp (closeDebug s) .ok [] [] else answerSp s .policyDenied [] [])

/-- DEBUG_KILL: with a KIND 3 token, or from the platform in LOCAL mode; the field is programmed and an open session ends (R394). -/
def execDebugKill (sess : Nat) (token : Option AuthToken) (s : State) : Host.Outcome State Fault Refusal :=
  request s sess anyone (fun v s =>
    let kill := fun (s : State) => answerSp (closeDebug { s with sp := { s.sp with debugKill := 0xFF#8 } }) .ok [] []
    match token with
    | none => if isPlatform s v then kill s else answerSp s .policyDenied [] []
    | some t => if tokenOk s t 3 then kill (spendNonce s t) else answerSp (spendNonce s t) .policyDenied [] [])

/-- DEBUG_DURATION_EXPIRY: the session's DURATION lapses (R393). -/
def execDebugDurationExpiry (s : State) : Host.Outcome State Fault Refusal :=
  match s.sp.debugOpen with
  | some (_, t, d, _) => .next (if t + d * 1000000000 ≤ s.ns then closeDebug s else s)
  | none => .next s

end Sys2Proof.Machine
end

