-- ==== Sys2Proof/Machine/Mgmt.lean ====
section
/-! DEFINITION. Management over MCTP: the platform's management requests in LOCAL mode (R158), and PLDM firmware update (R480). -/

namespace Sys2Proof.Machine
open Sys2Proof

/-- The requester is the platform in its secured session, in LOCAL mode (Table 7.2). -/
def platformSession (s : State) (sess : Nat) : Bool :=
  s.sp.authority == 0 && (match tlook s.sp.spdm sess with
    | some v => v.finished && v.pqSigned && v.cls == .platform
    | none => false)

/-- PLATFORM_MANAGEMENT_REQUEST: the security processor executes PARTITION_*, POWER_SET, FW_ACTIVATE or MODULE_RESET for the
platform; its record stands in `mgmtQueue` and its end is a COMMAND_COMPLETION of that queue. The opcode and operands
lie as in a submission entry. -/
def execPlatformManagementRequest (sess : Nat) (entry : Bytes) (s : State) : Host.Outcome State Fault Refusal :=
  if !spRuns s then .next s
  else
    let s := settleProgramming s
    if lcHalted s then .next (answerSp s .notReady [] [])
    else if !platformSession s sess || !localOp (opcodeOf entry) then .next (answerSp s .policyDenied [] [])
    else if s.sp.fwWait || (queueOf s mgmtQueue).running.isSome then .next (answerSp s .busy [] [])
    else if !hostServed s then .next (answerSp s .notReady [] [])
    else .next (progress (manage (modQueue s mgmtQueue (fun v => { v with running := some (freshRunning s entry) })) mgmtQueue entry))

/-! ## Firmware update (R480) -/

/-- The target of a component identifier: 0x0001 security processor, 0x0002 hub. -/
def componentTarget (component : Nat) : Option Nat :=
  if component = 1 then some 0 else if component = 2 then some 1 else none
/-- A PLDM firmware command: silent in SCRAP, NOT_READY in INVALID (R383, R389); one that meets life-cycle programming waits for its
end. -/
def pldm (s : State) (f : State → State) : Host.Outcome State Fault Refusal :=
  let s := settleProgramming s
  if !mctpServed s then .next s
  else if lcHalted s then .next (answerSp s .notReady [] [])
  else .next (f s)
/-- Completion code INVALID_STATE_FOR_COMMAND of DSP0267. -/
def invalidState : Nat := 0x84

/-- PLDM_FW_TRANSFER: an image is transferred and its signatures verified; one that fails is discarded. -/
def execPldmFwTransfer (component : Nat) (image : Digest) (version : Nat) (sigsOk : Bool) (s : State) : Host.Outcome State Fault Refusal :=
  pldm s (fun s => match componentTarget component with
    | none => answerSp s .unsupported [] []
    | some t =>
      if sigsOk then answerSp { s with sp := { s.sp with transfer := some (t, image, version) } } .ok [] []
      else answerSp { s with sp := { s.sp with transfer := none } } .policyDenied [] [])

/-- PLDM_APPLY: ApplyComplete places the verified image in its component's staging area, over any earlier one. -/
def execPldmApply (component : Nat) (s : State) : Host.Outcome State Fault Refusal :=
  pldm s (fun s => match s.sp.transfer, componentTarget component with
    | some (t, image, version), some t' =>
      if t = t' then answerSp { s with sp := { s.sp with transfer := none, staged := tins s.sp.staged t (image, version) } } .ok [] []
      else answerSp s .notReady [invalidState] []
    | _, _ => answerSp s .notReady [invalidState] [])

/-- PLDM_ACTIVATE_FIRMWARE: in LOCAL mode, in the platform's secured session, FW_ACTIVATE on both staged components; any other
completes with INVALID_STATE_FOR_COMMAND. -/
def execPldmActivateFirmware (sess : Nat) (s : State) : Host.Outcome State Fault Refusal :=
  pldm s (fun s =>
    if !platformSession s sess || s.sp.staged.isEmpty then answerSp s .notReady [invalidState] []
    else if s.sp.fwWait || (queueOf s mgmtQueue).running.isSome then answerSp s .busy [] []
    else if (tlook s.sp.staged 0).isSome && keyOpInFlight s then
      let r := { freshRunning s (0x59#8 :: List.replicate 127 0#8) with phase := 1 }
      modQueue { s with sp := { s.sp with fwWait := true } } mgmtQueue (fun v => { v with running := some r })
    else
      let (st, s) := fwBoth s
      answerSp s st [] [])

end Sys2Proof.Machine
end

