-- ==== Sys2Proof/Machine/Registers.lean ====
section
/-! DEFINITION. Register pages (chapter 19, R6 to R8, R434 to R440): which page a BAR0 address lies in, when it reads as gated, the
value of every register, what a read clears and what a write does. -/

namespace Sys2Proof.Machine
open Sys2Proof

/-! ## Pages (Tables 19.2 to 19.4) -/

/-- A register page. -/
inductive Blk where
  | device | clkgate | power | sched | qcache | health | grout | trowel | event
  | uncore (die : Nat)       -- 0 to 3 CD0 to CD3, 4 HD
  | ctl (k : Nat)            -- memory controller: HBM stack 0 to 7, capacity controller 16 to 23
  | port (p : Nat)
  | doorbell (i : Nat)
  | cluster (n : Nat)
  | core (c : Nat)
  deriving DecidableEq, Repr, Inhabited

/-- The page of a BAR0 page number. -/
def blkAt (pn : Nat) : Option Blk :=
  match pn with
  | 0 => some .device | 1 => some .clkgate | 2 => some .power | 3 => some .sched
  | 4 => some .qcache | 5 => some .health | 6 => some .grout | 7 => some .trowel | 8 => some (.uncore 4)
  | pn =>
    if 0x10 ≤ pn ∧ pn < 0x18 then some (.ctl pn)
    else if 0x20 ≤ pn ∧ pn < 0x40 then some (.port (pn - 0x20))
    else if 0x100 ≤ pn ∧ pn < 0x140 then some (.doorbell (pn - 0x100))
    else if pn = 0x140 then some .event
    else if 0x800 ≤ pn ∧ pn < 0x900 then
      let d := (pn - 0x800) / 0x40
      match pn % 0x40 with
      | 0 => some (.ctl (2 * d)) | 1 => some (.ctl (2 * d + 1)) | 2 => some (.uncore d) | _ => none
    else if 0x1000 ≤ pn ∧ pn < 0x1800 then
      let n := (pn - 0x1000) / 0x20
      let j := pn % 0x20
      if j = 0 then some (.cluster n) else if j ≤ 16 then some (.core (16 * n + (j - 1))) else none
    else none

/-- Block type and instance (Table 19.3). -/
def blkId : Blk → Nat × Nat
  | .device => (0x0001, 0) | .clkgate => (0x0002, 0) | .power => (0x0003, 0) | .sched => (0x0004, 0)
  | .qcache => (0x0005, 0) | .health => (0x0006, 0) | .doorbell i => (0x0007, i) | .event => (0x0008, 0)
  | .ctl k => (0x0010, k) | .port p => (0x0020, p) | .grout => (0x0030, 0) | .trowel => (0x0031, 0)
  | .uncore d => (0x0050, d) | .cluster n => (0x0060, n) | .core c => (0x0061, c % 16)

/-- Defined event bits and ERR_INFO registers in use. -/
def blkCaps : Blk → Nat × Nat
  | .power => (4, 2) | .sched => (2, 3) | .health => (11, 0) | .ctl _ => (4, 6) | .port _ => (2, 1) | .grout => (2, 3)
  | .trowel => (1, 2) | _ => (0, 0)

/-- The power domains of a page, where Table 17.3 holds its block; the Trowel page is that of eight units, each in a domain of its
own. -/
def blkDomains : Blk → List Nat
  | .cluster n => [n] | .core c => [clusterNo c]
  | .ctl k => [ctlDomain k] | .port p => [80 + p / 4]
  | .grout => [92] | .uncore d => [if d = 4 then 95 else 88 + d]
  | .sched => [94] | .qcache => [94] | .health => [94]
  | .trowel => [72, 73, 74, 75, 76, 77, 78, 79]
  | _ => []

/-- A block's gate is open, or its closing has not yet taken effect (R415). -/
def gateOpen (s : State) (b : Nat) : Bool := gateBit s b || s.pow.cgPend.contains b
/-- No gate of CLKGATE closes a page. -/
def blkOpen (s : State) : Blk → Bool
  | .cluster n => enabled s n && gateOpen s n
  | .core c => enabled s (clusterNo c) && gateOpen s (clusterNo c)
  | .port p => gateOpen s (64 + p)
  | .ctl k => gateOpen s (if k < 16 then 96 + k else 104 + (k - 16))
  | .trowel => (List.range 8).all (fun k => gateOpen s (112 + k))
  | .grout => gateOpen s 120
  | _ => true

/-- A page can be accessed (R450): not gated, not absent, not in a domain that is SEALED, RETAIN, OFF or WAKING, and, the device
page apart, only once RESET_DONE reads 1. DESIGN CHOICE: one such domain among several closes the page (log entry 39). -/
def readable (s : State) (b : Blk) : Bool :=
  if b = .device then !s.pow.perst && (s.pow.state == .active || s.pow.state == .standby || s.pow.state == .halted)
  else hostServed s && blkOpen s b
    && (blkDomains b).all (fun d => (domOf s d).state == .on || (domOf s d).state == .draining)

/-! ## The value of a register -/

/-- Coding of a domain state (Table 19.6). -/
def dstateCode : DState → Nat
  | .on => 0 | .draining => 1 | .sealed => 2 | .retain => 3 | .off => 4 | .waking => 5
/-- Coding of a queue state (Table 7.6). -/
def qstateCode : QState → Nat
  | .enabled => 0 | .held => 1 | .stopping => 2

/-- Registers of the common header (Table 19.1). -/
def headerReg (s : State) (b : Blk) (pn off : Nat) : Nat :=
  let p := pageOf s pn
  let (ty, ins) := blkId b
  let (ev, inf) := blkCaps b
  match off with
  | 0x000 => 1 + ins * 2 ^ 8 + ty * 2 ^ 16
  | 0x004 => ev + inf * 2 ^ 8
  | 0x008 => p.msix + b2n p.msixEn * 2 ^ 11
  | 0x00C => b2n ((blkDomains b).any (fun d => (domOf s d).state == .draining))
  | 0x010 => p.raw.toNat
  | 0x014 => p.sticky.toNat
  | 0x018 => p.enable.toNat
  | 0x01C => p.count
  | _ => (tget 0 p.info ((off - 0x20) / 4)).toNat

/-- Device page (Table 19.5). -/
def deviceReg (s : State) (off : Nat) : Nat :=
  let q := queueOf s 0
  match off with
  | 0x040 => s.sp.part % 4 + s.sp.authority % 2 * 4 + b2n (s.sp.debugKill != 0) * 8 + lcState s.sp.lcWord * 16
  | 0x044 => s.sp.mask.toNat % 2 ^ 32
  | 0x048 => s.sp.mask.toNat / 2 ^ 32
  | 0x04C => b2n s.pow.resetDone + 2 * b2n s.pow.failed
  | 0x050 => s.fab.member.node % 2 ^ 16 + b2n s.fab.member.isMember * 2 ^ 16 + b2n s.fab.plumb.locked * 2 ^ 17
  | 0x054 => s.fab.member.epoch % 2 ^ 32
  | 0x060 => b2n s.pow.dtEn + 2 * b2n (dtActive s) + s.pow.dtFreq * 2 ^ 8
  | 0x064 => s.pow.memExc + s.pow.linkExc * 2 ^ 16
  | 0x070 => q.sqLog2 + q.cqLog2 * 2 ^ 5 + q.msix * 2 ^ 10 + b2n q.msixEn * 2 ^ 21 + b2n q.valid * 2 ^ 31
  | 0x074 => q.sqBase % 2 ^ 32
  | 0x078 => q.sqBase / 2 ^ 32
  | 0x07C => q.cqBase % 2 ^ 32
  | 0x080 => q.cqBase / 2 ^ 32
  | 0x084 => s.sp.verHub % 2 ^ 32
  | 0x088 => s.fab.plumb.time % 2 ^ 32
  | 0x08C => s.fab.plumb.latch
  | 0x090 => s.fab.plumb.epoch % 2 ^ 16
  | _ => 0

/-- CLKGATE page (Table 17.2): each register holds the bits of its blocks. -/
def clkgateReg (s : State) (off : Nat) : Nat :=
  if off = 0x054 then s.pow.cgPend.length % 256
  else
    let bs := gateBlocks off
    ((List.range bs.length).zip bs).foldl (fun v (x : Nat × Nat) => v + b2n (gateBit s x.2) * 2 ^ x.1) 0

/-- PCAP in force: 1,000 W in the brown-out band (R469). -/
def pcapInForce (s : State) : Nat := if s.pow.brownOut then min 1000 s.pow.pcap else s.pow.pcap
/-- Frequency of a cluster as CL_FREQ reports it (Table 19.6). -/
def freqOf (s : State) (n : Nat) : Nat := if awake s n then (clusterOf s n).n else 0
/-- The sensor that reads the highest temperature, the lowest-numbered of several. -/
def hottestDie (s : State) : Nat := ((List.range 5).find? (fun i => tget 0 s.pow.temps i == hottest s)).getD 0

/-- Power page (Table 19.6). -/
def powerReg (s : State) (off : Nat) : Nat :=
  let p := s.pow
  if 0x040 ≤ off ∧ off < 0x070 then
    (List.range 8).foldl (fun v j => v + dstateCode (domOf s (8 * ((off - 0x40) / 4) + j)).state * 2 ^ (4 * j)) 0
  else if 0x080 ≤ off ∧ off < 0x0C0 then
    (List.range 4).foldl (fun v j => v + freqOf s (4 * ((off - 0x80) / 4) + j) % 128 * 2 ^ (8 * j)) 0
  else match off with
    | 0x070 => b2n (p.state == .standby) + 2 * b2n p.dustSheet + 4 * b2n p.floor + 8 * b2n p.throttle + 16 * b2n p.brake + 32 * b2n (!p.crystalOk)
    | 0x074 => min p.watts 4095 + min p.mvRead 65535 * 2 ^ 16
    | 0x078 => min (hottest s) 255 + hottestDie s * 2 ^ 8
    | 0x07C => pcapInForce s
    | _ => 0

/-- Scheduler page (Table 19.7). -/
def schedReg (s : State) (off : Nat) : Nat :=
  let r := s.regs
  match off with
  | 0x040 => ((allTasks s).filter (fun t => t.2.state == .ahead)).length % 256
  | 0x044 => s.plans.length
  | 0x048 => r.dispatch | 0x04C => r.squash | 0x050 => r.bypass | 0x054 => r.dbDrop | 0x058 => r.dbWait | 0x05C => r.wdog
  | _ => 0

/-- Queue cache page (Table 19.8). -/
def qcacheReg (s : State) (off : Nat) : Nat :=
  let v := queueOf s s.regs.qcSel
  match off with
  | 0x040 => pinnedCount s
  | 0x044 => (cachedQueues s).length
  | 0x048 => s.regs.qcMiss | 0x04C => s.regs.qcEvict | 0x050 => s.regs.qcSel
  | 0x054 => b2n v.valid + qstateCode v.state * 2 + v.prio * 2 ^ 3 + b2n v.cached * 2 ^ 6 + b2n (v.cached && pinned v) * 2 ^ 7 + v.context * 2 ^ 16
  | 0x058 => v.sqHead + v.cqTail * 2 ^ 16
  | _ => 0

/-- Memory controller page (Table 19.9). -/
def ctlReg (s : State) (k off : Nat) : Nat :=
  let c := ctlOf s k
  match off with
  | 0x040 =>
    let fills := s.mem.granules.any (fun g => g.2.filling && (granLines g.1).any (fun a => ctlNo a == k))
    let sands := (s.sp.keyCtxs.filter (fun x => x.2.state == .sanding && decide (tget 0 x.2.sweep (sweepNo k) < ctlLines k))).length
    b2n c.selfRefresh + 2 * b2n (!dtActive s && !c.selfRefresh) + 4 * b2n fills + sands % 256 * 2 ^ 8
  | 0x044 => c.corr | 0x048 => c.reread | 0x04C => c.tagFail | 0x050 => c.uncorr | 0x054 => c.poisonRead | 0x058 => c.poisonSet
  | 0x05C => c.zeroFills | 0x060 => c.patrols | 0x064 => c.refreshes
  | _ => 0

/-- Lath port page (Table 19.10). -/
def portReg (s : State) (p off : Nat) : Nat :=
  let v := portOf s p
  let d := (domOf s (80 + p / 4)).state
  match off with
  | 0x040 => pstateCode v.state + b2n (portUp s p) * 2 ^ 2 + b2n (d == .sealed || d == .off) * 2 ^ 3 + min v.fails 3 * 2 ^ 4
  | 0x044 => b2n v.enable
  | 0x048 => b2n s.regs.sprayPin + s.regs.respTimeout * 2 ^ 16
  | 0x04C => v.fecCorr | 0x050 => v.fecUncorr | 0x054 => v.crc | 0x058 => v.gcm | 0x05C => v.replay | 0x060 => v.retrain
  | 0x064 => v.dropKey | 0x068 => v.dropMalf | 0x06C => v.dropReplay | 0x070 => v.dropResp | 0x074 => v.slip | 0x078 => v.epochDisc
  | _ => 0

/-- Grout page (Table 19.11). -/
def groutReg (s : State) (off : Nat) : Nat :=
  match off with
  | 0x040 => s.fab.grouts.length % 2 ^ 16 + (16 - min 16 s.fab.lanes.length) * 2 ^ 16 + b2n s.fab.plumb.withdrawn * 2 ^ 21
  | 0x044 => s.regs.grDone | 0x048 => s.regs.grAbortTx | 0x04C => s.regs.grAbortRx | 0x050 => s.regs.grLease | 0x054 => s.regs.grBusy
  | _ => 0

/-- Trowel page (Table 19.11). -/
def trowelReg (s : State) (off : Nat) : Nat :=
  match off with
  | 0x040 => match s.fab.trowel with
    | some t => 1 + t.op % 4 * 2 + trowelBusy s t * 2 ^ 8
    | none => 0
  | 0x044 => match s.fab.trowel with
    | some t => (t.progress - t.first) % 2 ^ 31
    | none => 0
  | 0x048 => s.regs.twDone | 0x04C => s.regs.twSkipped | 0x050 => s.regs.twDirty
  | _ => 0

/-- Health-counter page (Table 19.12). -/
def healthReg (s : State) (off : Nat) : Nat :=
  let m := (off - 0x40) / 8
  if 0x040 ≤ off ∧ m ≤ 10 then (if off % 8 = 0 then monThresh s m else (monOf s m).count) else 0

/-- A core is busy: a task or a scrub holds it. -/
def coreBusy (s : State) (c : Nat) : Bool := !coreFree s c

/-- Cluster page (R464). -/
def clusterReg (s : State) (n off : Nat) : Nat :=
  let v := clusterOf s n
  match off with
  | 0x040 => (List.range 16).foldl (fun x k => x + b2n (coreBusy s (16 * n + k)) * 2 ^ k) 0 + b2n v.clock * 2 ^ 16
      + v.partition.getD 0 * 2 ^ 17 + b2n v.partition.isSome * 2 ^ 22 + b2n (!v.skim.isEmpty) * 2 ^ 23
  | 0x044 => v.tasks | 0x048 => v.portF
  | _ => 0

/-- Core page (R464). -/
def coreReg (s : State) (c off : Nat) : Nat :=
  let v := coreOf s c
  match off with
  | 0x040 => b2n (coreBusy s c) + 2 * b2n v.scrub.isSome + 4 * b2n v.wait.isSome + v.gang * 8
  | 0x044 => v.bundles
  | _ => 0

/-- The state that the hub's page gives for its four links: theirs where they agree, else a free value. -/
def hubLink (s : State) (fv : Nat) : Nat :=
  let a := pstateCode (d2dOf s 0).state
  if (List.range 4).all (fun d => pstateCode (d2dOf s d).state == a) then a else fv % 4
/-- Die uncore pages (R464); translation-cache misses are a free value. -/
def uncoreReg (s : State) (d fv off : Nat) : Nat :=
  match off with
  | 0x040 => if d = 4 then hubLink s fv else pstateCode (d2dOf s d).state
  | 0x044 => if d = 4 then s.regs.hubReplay else (d2dOf s d).replays
  | 0x048 => if d = 4 then s.regs.hubRetrain else (d2dOf s d).retrains
  | 0x04C => tget 0 s.mem.xlatMiss (64 + d)
  | _ => 0

/-- Event page (Table 18.3); a ring number above 0x1000 selects nothing (R434). -/
def eventReg (s : State) (off : Nat) : Nat :=
  let g := ringOf s s.regs.evrSel
  if off = 0x040 then s.regs.evrSel
  else if 0x044 ≤ off ∧ off ≤ 0x058 then
    if moduleRing < s.regs.evrSel then 0
    else match off with
      | 0x044 => b2n g.en + g.log2 * 2 + b2n g.msixEn * 2 ^ 6 + g.msix * 2 ^ 8
      | 0x048 => g.base % 2 ^ 32
      | 0x04C => g.base / 2 ^ 32
      | 0x050 => g.head
      | 0x054 => g.tail + b2n g.ovf * 2 ^ 16
      | _ => g.drop
  else if off = 0x060 then (List.range 16).foldl (fun v w => v + b2n (markOf s w).hit * 2 ^ w) 0
  else if 0x100 ≤ off ∧ off < 0x200 then
    let m := markOf s ((off - 0x100) / 16)
    match off % 16 with
    | 0 => m.level | 4 => m.thresh | 8 => m.count | _ => 0
  else 0

/-- The value of the register at an offset of a page; `fv` is the free value of this read. Doorbell registers read 0 (R168), as does
an offset that no table defines (R447). -/
def regVal (s : State) (b : Blk) (pn off fv : Nat) : Nat :=
  if off < 0x040 then headerReg s b pn off
  else match b with
    | .device => deviceReg s off
    | .clkgate => clkgateReg s off
    | .power => powerReg s off
    | .sched => schedReg s off
    | .qcache => qcacheReg s off
    | .health => healthReg s off
    | .grout => groutReg s off
    | .trowel => trowelReg s off
    | .event => eventReg s off
    | .uncore d => uncoreReg s d fv off
    | .ctl k => ctlReg s k off
    | .port p => portReg s p off
    | .doorbell _ => 0
    | .cluster n => clusterReg s n off
    | .core c => coreReg s c off

/-! ## RC fields (R7, R8) -/

/-- Changes the RC fields of a register: `f field width count`. `none`: the register has no RC field. -/
def rcMod (s : State) (b : Blk) (pn off : Nat) (f : Nat → Nat → Nat → Nat) : Option State :=
  let r := s.regs
  let g := f 0 32
  let regs := fun (r : Regs) => some { s with regs := r }
  if off = 0x01C then let p := pageOf s pn; some (setPage s pn { p with count := g p.count })
  else match b with
    | .device =>
      if off = 0x064 then some { s with pow := { s.pow with memExc := f 0 16 s.pow.memExc, linkExc := f 1 16 s.pow.linkExc } } else none
    | .sched => match off with
      | 0x048 => regs { r with dispatch := g r.dispatch }
      | 0x04C => regs { r with squash := g r.squash }
      | 0x050 => regs { r with bypass := g r.bypass }
      | 0x054 => regs { r with dbDrop := g r.dbDrop }
      | 0x058 => regs { r with dbWait := g r.dbWait }
      | 0x05C => regs { r with wdog := g r.wdog }
      | _ => none
    | .qcache => match off with
      | 0x048 => regs { r with qcMiss := g r.qcMiss }
      | 0x04C => regs { r with qcEvict := g r.qcEvict }
      | _ => none
    | .grout => match off with
      | 0x044 => regs { r with grDone := g r.grDone }
      | 0x048 => regs { r with grAbortTx := g r.grAbortTx }
      | 0x04C => regs { r with grAbortRx := g r.grAbortRx }
      | 0x050 => regs { r with grLease := g r.grLease }
      | 0x054 => regs { r with grBusy := g r.grBusy }
      | _ => none
    | .trowel => match off with
      | 0x048 => regs { r with twDone := g r.twDone }
      | 0x04C => regs { r with twSkipped := g r.twSkipped }
      | 0x050 => regs { r with twDirty := g r.twDirty }
      | _ => none
    | .ctl k =>
      let c := ctlOf s k
      match off with
      | 0x044 => some (setCtl s k { c with corr := g c.corr })
      | 0x048 => some (setCtl s k { c with reread := g c.reread })
      | 0x04C => some (setCtl s k { c with tagFail := g c.tagFail })
      | 0x050 => some (setCtl s k { c with uncorr := g c.uncorr })
      | 0x054 => some (setCtl s k { c with poisonRead := g c.poisonRead })
      | 0x058 => some (setCtl s k { c with poisonSet := g c.poisonSet })
      | 0x05C => some (setCtl s k { c with zeroFills := g c.zeroFills })
      | 0x060 => some (setCtl s k { c with patrols := g c.patrols })
      | 0x064 => some (setCtl s k { c with refreshes := g c.refreshes })
      | _ => none
    | .port p =>
      let v := portOf s p
      match off with
      | 0x04C => some (setPort s p { v with fecCorr := g v.fecCorr })
      | 0x050 => some (setPort s p { v with fecUncorr := g v.fecUncorr })
      | 0x054 => some (setPort s p { v with crc := g v.crc })
      | 0x058 => some (setPort s p { v with gcm := g v.gcm })
      | 0x05C => some (setPort s p { v with replay := g v.replay })
      | 0x060 => some (setPort s p { v with retrain := g v.retrain })
      | 0x064 => some (setPort s p { v with dropKey := g v.dropKey })
      | 0x068 => some (setPort s p { v with dropMalf := g v.dropMalf })
      | 0x06C => some (setPort s p { v with dropReplay := g v.dropReplay })
      | 0x070 => some (setPort s p { v with dropResp := g v.dropResp })
      | 0x074 => some (setPort s p { v with slip := g v.slip })
      | 0x078 => some (setPort s p { v with epochDisc := g v.epochDisc })
      | _ => none
    | .uncore d => match off with
      | 0x044 => if d = 4 then regs { r with hubReplay := g r.hubReplay } else some (setD2d s d { d2dOf s d with replays := g (d2dOf s d).replays })
      | 0x048 => if d = 4 then regs { r with hubRetrain := g r.hubRetrain } else some (setD2d s d { d2dOf s d with retrains := g (d2dOf s d).retrains })
      | 0x04C => some { s with mem := { s.mem with xlatMiss := tput 0 s.mem.xlatMiss (64 + d) (g (tget 0 s.mem.xlatMiss (64 + d))) } }
      | _ => none
    | .event =>
      if off = 0x058 ∧ r.evrSel ≤ moduleRing then
        let v := ringOf s r.evrSel
        some (setRing s r.evrSel { v with drop := g v.drop })
      else if 0x100 ≤ off ∧ off < 0x200 ∧ off % 16 = 8 then
        let w := (off - 0x100) / 16
        some (setMark s w { markOf s w with count := f 0 16 (markOf s w).count })
      else none
    | .cluster n => match off with
      | 0x044 => some (modCluster s n (fun c => { c with tasks := g c.tasks }))
      | 0x048 => some (modCluster s n (fun c => { c with portF := g c.portF }))
      | _ => none
    | .core c => if off = 0x044 then some (modCore s c (fun v => { v with bundles := g v.bundles })) else none
    | _ => none

/-- The increments that race a read, field by field: DET_EXC has two fields of 16 bits. -/
def racingOf (racing field width : Nat) : Nat := if width = 16 then bits racing (16 * field + 15) (16 * field) else racing

/-- The read of a register (R7, R8): its value; an RC field then clears. Increments that race it are in the value or are kept for
the next read, as the free value decides. A read of PLUMB_LO latches PLUMB_HI (R455). -/
def readReg (s : State) (b : Blk) (pn off racing : Nat) : Nat × State :=
  let fv := (Config.free s.fresh).toNat
  let bump := fun field width c => satAdd width c (racingOf racing field width)
  match rcMod s b pn off (fun _ _ _ => 0) with
  | some z =>
    if racing = 0 then (regVal s b pn off fv, z)
    else
      let z := { z with fresh := s.fresh + 1 }
      if bit fv 0 then (regVal ((rcMod s b pn off bump).getD s) b pn off fv, z)
      else (regVal s b pn off fv, (rcMod z b pn off bump).getD z)
  | none =>
    let v := regVal s b pn off fv
    if b = .device ∧ off = 0x088 then (v, { s with fab := { s.fab with plumb := { s.fab.plumb with latch := s.fab.plumb.time / 2 ^ 32 % 2 ^ 32 } } })
    else match b with
      | .uncore _ => (v, { s with fresh := s.fresh + 1 })
      | _ => (v, s)

/-! ## The MSI-X table (R453) -/

/-- A word of the MSI-X region; bit 0 of a vector control word is kept inverted, so that it reads 1 at reset. -/
def msixWord (s : State) (w : Nat) : Word :=
  let v := tget 0 s.regs.msixTab w
  if w < pbaWord ∧ w % 4 = 3 then v ^^^ 1#32 else v
/-- Writes a word of the table; the pending-bit array is not written. An unmasked vector sends its pending message. -/
def msixWrite (s : State) (w : Nat) (v : Word) : State :=
  if pbaWord ≤ w then s
  else
    let v := if w % 4 = 3 then (v &&& 1#32) ^^^ 1#32 else if w % 4 = 0 then v &&& 0xFFFFFFFC#32 else v
    let s := { s with regs := { s.regs with msixTab := tput 0 s.regs.msixTab w v } }
    if w % 4 = 3 ∧ msixPending s (w / 4) = true ∧ msixMasked s (w / 4) = false ∧ s.regs.msixMask = false ∧ s.regs.msixOn = true then sendMsix (flipPending s (w / 4)) (w / 4) else s

/-- The word of the MSI-X region at a BAR0 address (Table 19.4). -/
def msixAt (addr : Nat) : Option Nat := if 0x180000 ≤ addr ∧ addr < 0x188100 then some ((addr - 0x180000) / 4) else none

/-! ## Reads -/

/-- A read returns its value to the host. -/
def giveRead (r : Nat × State) : State := { r.2 with regs := { r.2.regs with readData := BitVec.ofNat 64 r.1 } }

/-- A read of BAR0 (R6, R450, R451): of another size or alignment, or of a gated or absent page, it returns 0. -/
def readBar (s : State) (addr size racing : Nat) : Nat × State :=
  if addr % size ≠ 0 then (0, s)
  else match msixAt addr with
    | some w =>
      if !hostServed s then (0, s)
      else if size = 4 then ((msixWord s w).toNat, s)
      else if size = 8 then ((msixWord s w).toNat + (msixWord s (w + 1)).toNat * 2 ^ 32, s)
      else (0, s)
    | none =>
      if size ≠ 4 then (0, s)
      else match blkAt (addr / 4096) with
        | none => (0, s)
        | some b => if readable s b then readReg s b (addr / 4096) (addr % 4096) racing else (0, s)

/-! ## Accesses through the debug port (R391, R392). The command table has no row for them: RC_FIELD_READ and REGISTER_WRITE of an
address from `debugBase` on stand for them. DESIGN CHOICE (log entry 56): from there on, 0 holds the select bits of the memory
factory test modes, 8 the halt of the hub firmware cores, 2^32 the register pages, 2^48 the stored ciphertext of the arrays, and
2^49 its metadata, TAG in bits [27:0], GEN in [29:28], POISON in [30]. -/

/-- Where the addresses of the debug port begin. -/
def debugBase : Nat := 2 ^ 50
/-- The places an access through the port can name. -/
inductive DebugPlace where
  | select | halt | page (addr : Nat) | data (addr : Nat) | metadata (addr : Nat) | nothing
  deriving DecidableEq, Repr, Inhabited
/-- The place of an address, counted from `debugBase`. -/
def debugPlace (a : Nat) : DebugPlace :=
  if a = 0 then .select else if a = 8 then .halt
  else if 2 ^ 49 ≤ a then .metadata (a - 2 ^ 49)
  else if 2 ^ 48 ≤ a then .data (a - 2 ^ 48)
  else if 2 ^ 32 ≤ a then .page (a - 2 ^ 32)
  else .nothing
/-- A read through the port; what it does not reach reads 0. -/
def debugRead (s : State) (a size racing : Nat) : Nat × State :=
  match debugPlace a with
  | .select => (b2n (s.sp.testAccess && debugReach s .testModes), s)
  | .halt => (b2n (s.sp.hubHalt && debugReach s .hubCores), s)
  | .page addr => if debugReach s .pages then readBar s addr size racing else (0, s)
  | .data addr => ((match arrayRead s addr with | some r => le r.1 (addr % 64 / 8 * 8) 8 | none => 0), s)
  | .metadata addr =>
    let l := lineInfo s (lineBase addr)
    (if arrayOpen s then l.tag + l.gen % 4 * 2 ^ 28 + b2n l.poison * 2 ^ 30 else 0, s)
  | .nothing => (0, s)

/-- RC_FIELD_READ: a read of a register while `racing` increments of the field arrive. -/
def execRcFieldRead (addr size racing : Nat) (s : State) : Host.Outcome State Fault Refusal :=
  .next (giveRead (if debugBase ≤ addr then debugRead s (addr - debugBase) size racing else readBar s addr size racing))

/-- PLUMB_LO_READ: the low half of Plumb time; the high half is latched with it. -/
def execPlumbLoRead (s : State) : Host.Outcome State Fault Refusal := .next (giveRead (readBar s 0x088 4 0))

/-! ## Writes (R7) -/

/-- Writes of the common header: PAGE_CTRL, EVT_STICKY, EVT_ENABLE. A sticky bit whose level is still high stays clear (R448). -/
def headerWrite (s : State) (pn off v : Nat) : State :=
  let p := pageOf s pn
  match off with
  | 0x008 => setPage s pn { p with msix := bits v 10 0, msixEn := bit v 11 }
  | 0x014 => setPage s pn { p with sticky := p.sticky &&& ~~~(BitVec.ofNat 32 v) }
  | 0x018 => setPage s pn { p with enable := BitVec.ofNat 32 v }
  | _ => s

/-- Q0_CFG (R454): while EN is 1 only EN is written; EN from 0 to 1 zeroes the indices and sets the CQ phase. -/
def q0CfgWrite (s : State) (v : Nat) : State :=
  let q := queueOf s 0
  let en := bit v 31
  if q.valid then setQueue s 0 { q with valid := en }
  else
    let q := { q with sqLog2 := clamp 4 16 (bits v 4 0), cqLog2 := clamp 4 16 (bits v 9 5), msix := bits v 20 10, msixEn := bit v 21 }
    setQueue s 0 (if en then { q with valid := true, sqHead := 0, sqTail := 0, cqHead := 0, cqTail := 0, phase := true } else q)

/-- A new low or high half of a base address, bits [11:0] written as 0. -/
def baseLow (base v : Nat) : Nat := base / 2 ^ 32 * 2 ^ 32 + v / 4096 * 4096
def baseHigh (base v : Nat) : Nat := base % 2 ^ 32 + v * 2 ^ 32

/-- Device page. -/
def deviceWrite (s : State) (off v : Nat) : State :=
  let q := queueOf s 0
  match off with
  | 0x060 => { s with pow := { s.pow with dtEn := bit v 0, dtFreq := clamp 0x10 0x42 (bits v 14 8) } }
  | 0x070 => q0CfgWrite s v
  | 0x074 => if q.valid then s else setQueue s 0 { q with sqBase := baseLow q.sqBase v }
  | 0x078 => if q.valid then s else setQueue s 0 { q with sqBase := baseHigh q.sqBase v }
  | 0x07C => if q.valid then s else setQueue s 0 { q with cqBase := baseLow q.cqBase v }
  | 0x080 => if q.valid then s else setQueue s 0 { q with cqBase := baseHigh q.cqBase v }
  | _ => s

/-- LP_CTRL (R239, Table 10.2): 0 takes an UP or TRAINING port DOWN; 1 starts training of a DOWN port, and of a FAILED one from
DOWN. In LOCAL mode a BAR0 write is dropped (R456). -/
def lpCtrlWrite (s : State) (p v : Nat) : State :=
  if s.sp.authority = 0 then s
  else
    let on := bit v 0
    let s := modPort s p (fun x => { x with enable := on })
    match on, (portOf s p).state with
    | true, .failed => trainPort (movePort (modPort s p (fun x => { x with fails := 0 })) p .down) p
    | true, _ => trainPort s p
    | false, .failed => s
    | false, .down => s
    | false, _ => downPort s p

/-- Lath port page: LP_CTRL, and LP_GLOBAL of the module (R461). -/
def portWrite (s : State) (p off v : Nat) : State :=
  match off with
  | 0x044 => lpCtrlWrite s p v
  | 0x048 => { s with regs := { s.regs with sprayPin := bit v 0, respTimeout := clamp 10 10000 (bits v 29 16) } }
  | _ => s

/-- EVR_CFG (R434) of the selected ring: LOG2 only while EN is 0; EN from 0 to 1 zeroes EVR_HEAD and EVR_TAIL with its OVF, and the
next record carries PHASE 1. -/
def evrCfgWrite (s : State) (v : Nat) : State :=
  let r := s.regs.evrSel
  if moduleRing < r then s
  else
    let g := ringOf s r
    let en := bit v 0
    let h := { g with en := en, log2 := if g.en then g.log2 else clamp 4 16 (bits v 5 1), msixEn := bit v 6, msix := bits v 18 8 }
    if en && !g.en then followRing (setRing s r { h with head := 0, tail := 0, ovf := false, lost := 0, phase := true }) r
    else setRing s r h

/-- EVR_HEAD (R437) of the selected ring: an index outside the span from head to tail is dropped; a ring in overflow that falls
below S - 2 unconsumed records gets its second EVENT_OVERFLOW and leaves overflow. -/
def evrHeadWrite (s : State) (v : Nat) : State :=
  let r := s.regs.evrSel
  if moduleRing < r then s
  else
    let g := ringOf s r
    let n := 2 ^ g.log2
    let h := bits v 15 0
    if n ≤ h ∨ ringUsed g < (h + n - g.head) % n then s
    else
      let g' := { g with head := h }
      if g.ovf && g.en && decide (ringUsed g' + 2 < n) then
        let s := followRing (setRing s r { g' with ovf := false, lost := 0 }) r
        followRing (ringWrite s r 0x000B 0 false g.lost 0) r
      else followRing (setRing s r g') r

/-- WM_STICKY (R440): each 1 re-arms the notice of its source. -/
def wmStickyWrite (s : State) (v : Nat) : State :=
  (List.range 16).foldl (fun s w => if bit v w then setMark s w { markOf s w with hit := false } else s) s

/-- Event page (Table 18.3). -/
def eventWrite (s : State) (off v : Nat) : State :=
  let r := s.regs.evrSel
  let g := ringOf s r
  if off = 0x040 then { s with regs := { s.regs with evrSel := bits v 12 0 } }
  else if off = 0x044 then evrCfgWrite s v
  else if off = 0x048 then (if moduleRing < r ∨ g.en = true then s else setRing s r { g with base := baseLow g.base v })
  else if off = 0x04C then (if moduleRing < r ∨ g.en = true then s else setRing s r { g with base := baseHigh g.base v })
  else if off = 0x050 then evrHeadWrite s v
  else if off = 0x060 then wmStickyWrite s v
  else if 0x100 ≤ off ∧ off < 0x200 ∧ off % 16 = 4 then
    let w := (off - 0x100) / 16
    setMark s w { markOf s w with thresh := v }
  else s

/-- HC_THRESH (R463): the threshold is compared at the next counted event. -/
def healthWrite (s : State) (off v : Nat) : State :=
  let m := (off - 0x40) / 8
  if m ≤ 10 ∧ off % 8 = 0 then setMon s m { monOf s m with thresh := some v } else s

/-- Doorbell page i: the SQ tails and CQ heads of queues 256 i to 256 i + 255 (R168). -/
def doorbellWrite (s : State) (i off v : Nat) : State :=
  if 0x400 ≤ off ∧ off < 0x800 then sqTailWrite s (256 * i + (off - 0x400) / 4) v
  else if 0x800 ≤ off ∧ off < 0xC00 then cqHeadWrite s (256 * i + (off - 0x800) / 4) v
  else s

/-- A write at an offset of a page, under the access code of each field (R7, R447). -/
def regWrite (s : State) (b : Blk) (pn off v : Nat) : State :=
  -- in LOCAL mode the host writes nothing of the CLKGATE page, its header included (R456)
  if s.sp.authority = 0 ∧ b = .clkgate then s
  else if off < 0x040 then headerWrite s pn off v
  else match b with
    | .device => deviceWrite s off v
    | .clkgate => clkgateWrite s off v
    | .qcache => if off = 0x050 then { s with regs := { s.regs with qcSel := bits v 13 0 } } else s
    | .health => healthWrite s off v
    | .event => eventWrite s off v
    | .port p => portWrite s p off v
    | .doorbell i => doorbellWrite s i off v
    | .power => s
    | .sched => s
    | .grout => s
    | .trowel => s
    | .uncore _ => s
    | .ctl _ => s
    | .cluster _ => s
    | .core _ => s

/-- A write of BAR0 (R6, R450, R451, R453): of another size or alignment, or to a gated or absent page, it is dropped. -/
def writeBar (s : State) (addr size v : Nat) : State :=
  if addr % size ≠ 0 then s
  else match msixAt addr with
    | some w =>
      if !hostServed s then s
      else if size = 4 then msixWrite s w (BitVec.ofNat 32 v)
      else if size = 8 then msixWrite (msixWrite s w (BitVec.ofNat 32 v)) (w + 1) (BitVec.ofNat 32 (v / 2 ^ 32))
      else s
    | none =>
      if size ≠ 4 then s
      else match blkAt (addr / 4096) with
        | none => s
        | some b => if readable s b then regWrite s b (addr / 4096) (addr % 4096) (v % 2 ^ 32) else s

/-- A write through the port; what it does not reach is dropped (R391, R392). -/
def debugWrite (s : State) (a size v : Nat) : State :=
  match debugPlace a with
  | .select => testSelectWrite s (bit v 0)
  | .halt => hubHaltWrite s (bit v 0)
  | .page addr => if debugReach s .pages then writeBar s addr size v else s
  | .data addr =>
    let l := lineInfo s (lineBase addr)
    arrayWrite s addr (patch l.cipher (addr % 64 / 8 * 8) (leBytes 8 v)) l.tag l.gen l.poison
  | .metadata addr => arrayWrite s addr (lineInfo s (lineBase addr)).cipher (v % 2 ^ 28) (bits v 29 28) (bit v 30)
  | .nothing => s

/-- REGISTER_WRITE. -/
def execRegisterWrite (addr size : Nat) (value : DWord) (s : State) : Host.Outcome State Fault Refusal :=
  .next (if debugBase ≤ addr then debugWrite s (addr - debugBase) size value.toNat else writeBar s addr size value.toNat)
/-- EVR_CFG_WRITE. -/
def execEvrCfgWrite (value : Word) (s : State) : Host.Outcome State Fault Refusal := .next (writeBar s 0x140044 4 value.toNat)
/-- EVR_HEAD_WRITE. -/
def execEvrHeadWrite (value : Word) (s : State) : Host.Outcome State Fault Refusal := .next (writeBar s 0x140050 4 value.toNat)
/-- WM_STICKY_WRITE. -/
def execWmStickyWrite (value : Word) (s : State) : Host.Outcome State Fault Refusal := .next (writeBar s 0x140060 4 value.toNat)
/-- EVT_STICKY_WRITE: of the page with this BAR0 page number. -/
def execEvtStickyWrite (page : Nat) (value : Word) (s : State) : Host.Outcome State Fault Refusal := .next (writeBar s (4096 * page + 0x14) 4 value.toNat)
/-- Q0_CFG_WRITE. -/
def execQ0CfgWrite (value : Word) (s : State) : Host.Outcome State Fault Refusal := .next (writeBar s 0x070 4 value.toNat)
/-- LP_CTRL_WRITE. -/
def execLpCtrlWrite (port : Nat) (value : Word) (s : State) : Host.Outcome State Fault Refusal :=
  if port < 32 then .next (writeBar s (0x20000 + port * 0x1000 + 0x44) 4 value.toNat) else .next s

end Sys2Proof.Machine
end

