-- ==== Sys2Proof/Machine/Spdm.lean ====
section
/-! DEFINITION. The SPDM responder (R348, R350, R356, R364 to R367): discovery, secured sessions and their hybrid set-up, the
attestation report. -/

namespace Sys2Proof.Machine
open Sys2Proof

/-- An SPDM message is answered only by a running security processor that has not lost its life cycle (R383, R389); while a
target-0 FW_ACTIVATE waits or runs it is BUSY (R181, R350). -/
def spdm (s : State) (f : State → State) : Host.Outcome State Fault Refusal :=
  if !spRuns s then .next s
  else
    let s := settleProgramming s
    if lcHalted s then .next (answerSp s .notReady [] [])
    else if s.sp.fwWait then .next (answerSp s .busy [] [])
    else .next (f s)
/-- An SPDM ERROR response (DSP0274): 0x01 InvalidRequest, 0x03 Busy, 0x06 DecryptError, 0x07 UnsupportedRequest. -/
def spdmError (s : State) (code : Nat) : State := answerSp s .ok [0x7F, code] []
/-- Needs the identity keys: without a root secret it completes with NOT_READY (R354). -/
def withIdentity (s : State) (f : State → State) : State := if (rootBank s).isNone then answerSp s .notReady [] [] else f s

/-- SPDM_GET_VERSION: 1.2 and 1.3 (R364). -/
def execSpdmGetVersion (_sess : Nat) (s : State) : Host.Outcome State Fault Refusal := spdm s (fun s => answerSp s .ok [0x12, 0x13] [])
/-- Capability flags of DSP0274 for CERT, CHAL, MEAS with signature, ENCRYPT, MAC, MUT_AUTH, KEY_EX, HBEAT, KEY_UPD and CHUNK. -/
def capabilityFlags : Nat := 2 ^ 1 + 2 ^ 2 + 2 ^ 4 + 2 ^ 6 + 2 ^ 7 + 2 ^ 8 + 2 ^ 9 + 2 ^ 13 + 2 ^ 14 + 2 ^ 17
/-- SPDM_GET_CAPABILITIES (R364). -/
def execSpdmGetCapabilities (_sess : Nat) (s : State) : Host.Outcome State Fault Refusal := spdm s (fun s => answerSp s .ok [capabilityFlags] [])
/-- SPDM_NEGOTIATE_ALGORITHMS: the offered bits must hold those of Table 14.7, which alone are selected (R364): BaseAsymAlgo,
ReqBaseAsymAlg, BaseHashAlgo, MeasurementHashAlgo, DHE, AEAD, KeySchedule, MeasurementSpecification. A requester that does not
authenticate, or asks for no measurements, offers none of theirs, and none is selected. -/
def execSpdmNegotiateAlgorithms (_sess : Nat) (asym : AsymOffer) (hash dhe : Nat) (aead : AeadOffer) (s : State) :
    Host.Outcome State Fault Refusal :=
  spdm s (fun s =>
    if bit asym.base 7 && bit hash 1 && bit dhe 4 && bit aead.aead 1 && bit aead.schedule 0 then
      let meas := b2n (bit aead.meas 0)
      answerSp s .ok [0x80, 0x80 * b2n (bit asym.req 7), 0x2, 0x4 * meas, 0x10, 0x2, 0x1, meas] []
    else spdmError s 0x01)
/-- SPDM_GET_DIGESTS: slot 0 is the only slot (R356). -/
def execSpdmGetDigests (_sess : Nat) (s : State) : Host.Outcome State Fault Refusal :=
  spdm s (fun s => withIdentity s (fun s => answerSp s .ok [1] (digestBytes (Config.sha384 Config.certificate))))
/-- SPDM_GET_CERTIFICATE: the chain of slot 0 (R356). -/
def execSpdmGetCertificate (_sess : Nat) (s : State) : Host.Outcome State Fault Refusal :=
  spdm s (fun s => withIdentity s (fun s => answerSp s .ok [0] Config.certificate))
/-- SPDM_CHALLENGE: answered under the identity key, over the certificate and the measurements (R364). -/
def execSpdmChallenge (_sess : Nat) (s : State) : Host.Outcome State Fault Refusal :=
  spdm s (fun s => withIdentity s (fun s =>
    let m := digestBytes (Config.sha384 Config.certificate) ++ digestBytes (Config.sha384 (allBlocks s))
    answerSp s .ok [] (m ++ (Config.sign m).take 96)))
/-- The message transcript that a MEASUREMENTS signature covers (R366): what was asked for, and the blocks. -/
def measTranscript (index : Nat) (b : Bytes) : Bytes := leBytes 1 index ++ b
/-- SPDM_GET_MEASUREMENTS: 0 asks for the number of blocks, 0xFF for all of them, another index for one; the answer is signed, and
its transcript kept for PQ_COUNTERSIGN (R366, R367). -/
def execSpdmGetMeasurements (sess index : Nat) (s : State) : Host.Outcome State Fault Refusal :=
  spdm s (fun s => withIdentity s (fun s =>
    let signed := fun (b : Bytes) =>
      let t := measTranscript index b
      answerSp { s with sp := { s.sp with measured := tins s.sp.measured sess t } } .ok [] (b ++ (Config.sign t).take 96)
    if index = 0 then answerSp s .ok [((List.range 0x80).filter (fun i => (block s i).isSome)).length] []
    else if index = 0xFF then signed (allBlocks s)
    else match block s index with
      | some b => signed b
      | none => spdmError s 0x01))
/-- A vendor request code that R384 reserves: 0x27 to 0x2F. -/
def reservedCode (code : Nat) : Bool := decide (0x27 ≤ code) && decide (code ≤ 0x2F)
/-- SPDM_UNSUPPORTED_REQUEST: PSK_EXCHANGE, GET_CSR and SET_CERTIFICATE (R364); a reserved vendor request of R384, which comes in a
secured session, completes with UNSUPPORTED. -/
def execSpdmUnsupportedRequest (sess code : Nat) (s : State) : Host.Outcome State Fault Refusal :=
  if reservedCode code then request s sess anyone (fun _ s => answerSp s .unsupported [] [])
  else spdm s (fun s => spdmError s 0x07)

/-- PQ_OFFER: an ML-KEM encapsulation key, answered by PQ_ACCEPT with the ciphertext and a handle (R365 steps 1 and 2). -/
def execPqOffer (sess : Nat) (encapsKey : Bytes) (s : State) : Host.Outcome State Fault Refusal :=
  spdm s (fun s =>
    if !drbgOk s then answerSp s .entropyNotReady [] []
    else
      let (r, s) := draw s
      let h := s.sp.nextHandle
      let ct := Config.kemEncaps encapsKey r
      let accept := ct ++ leBytes 8 h
      let offer := (h, sess, Config.sha384 (encapsKey ++ accept), keyBytes (Config.kemSecret encapsKey r))
      let s := { s with sp := { s.sp with offers := s.sp.offers ++ [offer], nextHandle := h + 1 } }
      answerSp s .ok [h] accept)

/-- The requester class that a KEY_EXCHANGE gives (R348): 0 owner, 1 peer, 2 platform, each by mutual authentication; 3 the MCTP
endpoint on PCI Express without requester authentication, the driver in HOST mode. One without requester authentication over
the SMBus sideband, or another number, has no class. -/
def classOf (s : State) (requester : Nat) (identity : Digest) : Option ReqClass :=
  match requester with
  | 0 => if s.sp.sessions.any (fun x => x.2.state != .ended && x.2.manifest.ownerIds.contains identity) then some (.owner identity) else none
  | 1 => some (.peer identity)
  | 2 => if s.sp.authority = 0 ∧ identity = s.sp.platform then some .platform else none
  | 3 => if s.sp.authority = 1 then some .driver else none
  | _ => none

/-- SPDM_KEY_EXCHANGE: a hybrid secured session for an offer that its OpaqueData names (R365 step 3); at most 64 (R350). The ECDH
secret and then the ML-KEM shared secret enter its key schedule (step 4). DEDUCED: a module without a root secret, which takes
life-cycle requests (R384) in secured sessions alone (R348), opens them too, and then does not authenticate itself. -/
def execSpdmKeyExchange (sess requester : Nat) (identity : Digest) (handle : Nat) (offerDigest : Digest) (s : State) :
    Host.Outcome State Fault Refusal :=
  spdm s (fun s =>
    if 64 ≤ s.sp.spdm.length then spdmError s 0x03
    else match s.sp.offers.find? (fun o => o.1 == handle && o.2.1 == sess && o.2.2.1 == offerDigest) with
      | none => spdmError s 0x01
      | some o =>
        if (tlook s.sp.spdm sess).isSome then spdmError s 0x01
        else match classOf s requester identity with
          | none => spdmError s 0x01
          | some c =>
            if !drbgOk s then answerSp s .entropyNotReady [] []
            else
              let (r, s) := draw s
              let secret := leBytes 48 (Config.ecdhSecret r s.fresh).toNat ++ o.2.2.2
              let s := { s with fresh := s.fresh + 1, sp := { s.sp with
                spdm := tins s.sp.spdm sess { cls := c, secret := secret }
                offers := s.sp.offers.filter (· != o) } }
              answerSp s .ok [] (digestBytes (ownIdentity s)))

/-- Ends a secured session: its place is free (R350), and a debug session that it unlocked is left to the platform. -/
def dropSpdm (s : State) (sess : Nat) : State :=
  { s with sp := { s.sp with
      spdm := tdel s.sp.spdm sess
      measured := tdel s.sp.measured sess
      debugOpen := s.sp.debugOpen.map (fun d => if d.2.2.2 = some sess then (d.1, d.2.1, d.2.2.1, none) else d) } }

/-- SPDM_FINISH: completes the handshake; one that does not verify ends the session. TH2 is settled with it, and the responder sends
its own PQ_SIGN over it (R365 step 5). A driver authenticates with nothing, so no PQ_SIGN of its own is required (R348). -/
def execSpdmFinish (sess : Nat) (verifies : Bool) (s : State) : Host.Outcome State Fault Refusal :=
  spdm s (fun s => match tlook s.sp.spdm sess with
    | none => spdmError s 0x01
    | some v =>
      if v.finished then spdmError s 0x01
      else if !verifies then spdmError (dropSpdm s sess) 0x06
      else
        let t : Digest := Config.transcript s.fresh
        let s := setSpdm { s with fresh := s.fresh + 1 } sess { v with finished := true, pqSigned := v.cls == .driver, th2 := t }
        answerSp s .ok [] (if (rootBank s).isSome then (Config.sign (digestBytes t)).drop 96 else []))
/-- PQ_SIGN: a requester's ML-DSA signature over TH2; only then does the session carry vendor requests (R365). -/
def execPqSign (sess : Nat) (verifies : Bool) (s : State) : Host.Outcome State Fault Refusal :=
  spdm s (fun s => match tlook s.sp.spdm sess with
    | none => s
    | some v =>
      if !v.finished || !verifies then answerSp s .policyDenied [] []
      else answerSp (setSpdm s sess { v with pqSigned := true }) .ok [] [])
/-- PQ_COUNTERSIGN: the ML-DSA signature over the transcript of the session's last signed MEASUREMENTS response (R366). DESIGN CHOICE:
over the empty string where there has been none. -/
def execPqCountersign (sess : Nat) (s : State) : Host.Outcome State Fault Refusal :=
  request s sess anyone (fun _ s => withIdentity s (fun s =>
    answerSp s .ok [] ((Config.sign (tget [] s.sp.measured sess)).drop 96)))
/-- SPDM_HEARTBEAT (R364). -/
def execSpdmHeartbeat (sess : Nat) (s : State) : Host.Outcome State Fault Refusal :=
  spdm s (fun s => if (tlook s.sp.spdm sess).any (·.finished) then answerSp s .ok [] [] else spdmError s 0x01)
/-- SPDM_KEY_UPDATE (R364). -/
def execSpdmKeyUpdate (sess : Nat) (s : State) : Host.Outcome State Fault Refusal :=
  spdm s (fun s => match tlook s.sp.spdm sess with
    | some v => if v.finished then answerSp (setSpdm s sess { v with keyGen := v.keyGen + 1 }) .ok [] [] else spdmError s 0x01
    | none => spdmError s 0x01)
/-- SPDM_END_SESSION (R350). -/
def execSpdmEndSession (sess : Nat) (s : State) : Host.Outcome State Fault Refusal :=
  spdm s (fun s => if (tlook s.sp.spdm sess).isSome then answerSp (dropSpdm s sess) .ok [] [] else spdmError s 0x01)

end Sys2Proof.Machine
end

