-- ==== Sys2Proof/Machine/Dispatch.lean ====
section
/-! DEFINITION. `exec`: one arm for each command, each a direct call of its meaning. -/

namespace Sys2Proof.Machine
open Sys2Proof

/-- The effect of a command on everything but the queue of waiting commands. -/
def exec (i : Instr) (s : State) : Host.Outcome State Fault Refusal :=
  match i with
  | .bundleIssue core => Sys2Proof.Machine.execBundleIssue core s
  | .waitTokRelease core => Sys2Proof.Machine.execWaitTokRelease core s
  | .waitSigRelease core => Sys2Proof.Machine.execWaitSigRelease core s
  | .waitArrRelease core => Sys2Proof.Machine.execWaitArrRelease core s
  | .crewSyncRelease queue task barrier cluster => Sys2Proof.Machine.execCrewSyncRelease queue task barrier cluster s
  | .endRelease core => Sys2Proof.Machine.execEndRelease core s
  | .taskScrubComplete core => Sys2Proof.Machine.execTaskScrubComplete core s
  | .signalIncrement sender target counter => Sys2Proof.Machine.execSignalIncrement sender target counter s
  | .meshPutLand target => Sys2Proof.Machine.execMeshPutLand target s
  | .dmaOperationStart core queue => Sys2Proof.Machine.execDmaOperationStart core queue s
  | .dmaOperationComplete core token => Sys2Proof.Machine.execDmaOperationComplete core token s
  | .gangStart core => Sys2Proof.Machine.execGangStart core s
  | .gangComplete core => Sys2Proof.Machine.execGangComplete core s
  | .stageStart core => Sys2Proof.Machine.execStageStart core s
  | .stageComplete core => Sys2Proof.Machine.execStageComplete core s
  | .tilePassSwap core => Sys2Proof.Machine.execTilePassSwap core s
  | .tileComplete core => Sys2Proof.Machine.execTileComplete core s
  | .cFillStart core => Sys2Proof.Machine.execCFillStart core s
  | .cFillComplete core => Sys2Proof.Machine.execCFillComplete core s
  | .drainStart core => Sys2Proof.Machine.execDrainStart core s
  | .drainComplete core => Sys2Proof.Machine.execDrainComplete core s
  | .taskStopComplete queue task => Sys2Proof.Machine.execTaskStopComplete queue task s
  | .planLoad queue => Sys2Proof.Machine.execPlanLoad queue s
  | .arbitrationDecision resource => Sys2Proof.Machine.execArbitrationDecision resource s
  | .skimAdmission partition => Sys2Proof.Machine.execSkimAdmission partition s
  | .prologueLoadIssue queue task entry cluster => Sys2Proof.Machine.execPrologueLoadIssue queue task entry cluster s
  | .aheadDispatch queue task cluster => Sys2Proof.Machine.execAheadDispatch queue task cluster s
  | .skimRangeZero cluster base => Sys2Proof.Machine.execSkimRangeZero cluster base s
  | .watchdogExpiry queue task => Sys2Proof.Machine.execWatchdogExpiry queue task s
  | .signalLimitExpiry queue task => Sys2Proof.Machine.execSignalLimitExpiry queue task s
  | .submissionFetch queue entry body busError => Sys2Proof.Machine.execSubmissionFetch queue entry body busError s
  | .commandCompletion queue => Sys2Proof.Machine.execCommandCompletion queue s
  | .sqTailDoorbell queue value => Sys2Proof.Machine.execSqTailDoorbell queue value s
  | .cqHeadDoorbell queue value => Sys2Proof.Machine.execCqHeadDoorbell queue value s
  | .primeBitsSet queue => Sys2Proof.Machine.execPrimeBitsSet queue s
  | .unmapAccessTimeout queue => Sys2Proof.Machine.execUnmapAccessTimeout queue s
  | .clusterRemovalTimeout cluster => Sys2Proof.Machine.execClusterRemovalTimeout cluster s
  | .queueDestroyTimeout queue => Sys2Proof.Machine.execQueueDestroyTimeout queue s
  | .lineRead req first second => Sys2Proof.Machine.execLineRead req first second s
  | .lineWrite req data first second => Sys2Proof.Machine.execLineWrite req data first second s
  | .zeroFillComplete granule => Sys2Proof.Machine.execZeroFillComplete granule s
  | .patrolScrubRead addr raw => Sys2Proof.Machine.execPatrolScrubRead addr raw s
  | .memoryRefresh controller bank delayed => Sys2Proof.Machine.execMemoryRefresh controller bank delayed s
  | .sandingRetry key => Sys2Proof.Machine.execSandingRetry key s
  | .sandingLineStep key controller first second => Sys2Proof.Machine.execSandingLineStep key controller first second s
  | .d2dFrameSend link dir payload => Sys2Proof.Machine.execD2dFrameSend link dir payload s
  | .d2dFrameReceive link dir tagOk => Sys2Proof.Machine.execD2dFrameReceive link dir tagOk s
  | .linkKeyInstall link dir => Sys2Proof.Machine.execLinkKeyInstall link dir s
  | .linkKeyTimeout link dir => Sys2Proof.Machine.execLinkKeyTimeout link dir s
  | .portTrainingComplete port ok => Sys2Proof.Machine.execPortTrainingComplete port ok s
  | .linkFrameReceive port seq fecOk fecFixed crcOk tagOk => Sys2Proof.Machine.execLinkFrameReceive port seq fecOk fecFixed crcOk tagOk s
  | .linkNakReceive port seq => Sys2Proof.Machine.execLinkNakReceive port seq s
  | .linkAckReceive port seq credits => Sys2Proof.Machine.execLinkAckReceive port seq credits s
  | .store rx => Sys2Proof.Machine.execStore rx s
  | .put rx => Sys2Proof.Machine.execPut rx s
  | .load rx => Sys2Proof.Machine.execLoad rx s
  | .get rx => Sys2Proof.Machine.execGet rx s
  | .fetchAdd rx => Sys2Proof.Machine.execFetchAdd rx s
  | .compareSwap rx => Sys2Proof.Machine.execCompareSwap rx s
  | .leaseAcquire rx => Sys2Proof.Machine.execLeaseAcquire rx s
  | .leaseRelease rx => Sys2Proof.Machine.execLeaseRelease rx s
  | .resp rx => Sys2Proof.Machine.execResp rx s
  | .respTimeout node xid => Sys2Proof.Machine.execRespTimeout node xid s
  | .completionRecordExpiry node xid => Sys2Proof.Machine.execCompletionRecordExpiry node xid s
  | .epochHoldTimeout node xid => Sys2Proof.Machine.execEpochHoldTimeout node xid s
  | .plumbSyncTimer => Sys2Proof.Machine.execPlumbSyncTimer s
  | .syncReq rx => Sys2Proof.Machine.execSyncReq rx s
  | .syncResp rx => Sys2Proof.Machine.execSyncResp rx s
  | .plumbLockLoss => Sys2Proof.Machine.execPlumbLockLoss s
  | .ppsInEdge => Sys2Proof.Machine.execPpsInEdge s
  | .ppsOutPulse => Sys2Proof.Machine.execPpsOutPulse s
  | .slotSlip rx => Sys2Proof.Machine.execSlotSlip rx s
  | .scheduledLaneReturn => Sys2Proof.Machine.execScheduledLaneReturn s
  | .epochUpdate rx record => Sys2Proof.Machine.execEpochUpdate rx record s
  | .epochAck rx => Sys2Proof.Machine.execEpochAck rx s
  | .epochAckTimeout => Sys2Proof.Machine.execEpochAckTimeout s
  | .lathKeyRetire key => Sys2Proof.Machine.execLathKeyRetire key s
  | .lathPairWaitTimeout core token => Sys2Proof.Machine.execLathPairWaitTimeout core token s
  | .reduceData rx => Sys2Proof.Machine.execReduceData rx s
  | .bcastData rx => Sys2Proof.Machine.execBcastData rx s
  | .credit rx => Sys2Proof.Machine.execCredit rx s
  | .hold rx => Sys2Proof.Machine.execHold rx s
  | .abort rx => Sys2Proof.Machine.execAbort rx s
  | .holdTimer partition group tag receiver => Sys2Proof.Machine.execHoldTimer partition group tag receiver s
  | .slotLeaseExpiry partition group tag sender => Sys2Proof.Machine.execSlotLeaseExpiry partition group tag sender s
  | .trowelChunkRetire => Sys2Proof.Machine.execTrowelChunkRetire s
  | .healthWindowExpiry monitor => Sys2Proof.Machine.execHealthWindowExpiry monitor s
  | .ckptCapture sess session operands => Sys2Proof.Machine.execCkptCapture sess session operands s
  | .ckptRestore sess session context targets source => Sys2Proof.Machine.execCkptRestore sess session context targets source s
  | .ckptVerify sess session context targets source => Sys2Proof.Machine.execCkptVerify sess session context targets source s
  | .sessionOpen sess manifest sigsOk partition founder => Sys2Proof.Machine.execSessionOpen sess manifest sigsOk partition founder s
  | .sessionApprove sess session owner kind object sigsOk => Sys2Proof.Machine.execSessionApprove sess session owner kind object sigsOk s
  | .sessionJoin sess session report => Sys2Proof.Machine.execSessionJoin sess session report s
  | .sessionEnd sess session => Sys2Proof.Machine.execSessionEnd sess session s
  | .keyImport sess session slot cls key => Sys2Proof.Machine.execKeyImport sess session slot cls key s
  | .keyCtxBind sess partition session key role => Sys2Proof.Machine.execKeyCtxBind sess partition session key role s
  | .keyCtxErase sess key immediate => Sys2Proof.Machine.execKeyCtxErase sess key immediate s
  | .keyRollInstall sess session role count => Sys2Proof.Machine.execKeyRollInstall sess session role count s
  | .keyRollRetire sess session role => Sys2Proof.Machine.execKeyRollRetire sess session role s
  | .sandStart sess key => Sys2Proof.Machine.execSandStart sess key s
  | .windowOpen sess window entry => Sys2Proof.Machine.execWindowOpen sess window entry s
  | .windowClose sess window => Sys2Proof.Machine.execWindowClose sess window s
  | .groupOpen sess partition operands => Sys2Proof.Machine.execGroupOpen sess partition operands s
  | .groupClose sess partition group => Sys2Proof.Machine.execGroupClose sess partition group s
  | .epochRequest sess record => Sys2Proof.Machine.execEpochRequest sess record s
  | .domainForm sess node record => Sys2Proof.Machine.execDomainForm sess node record s
  | .domainJoin sess node record key => Sys2Proof.Machine.execDomainJoin sess node record key s
  | .releasePrepare sess session rule context addr len key => Sys2Proof.Machine.execReleasePrepare sess session rule context addr len key s
  | .releaseKeyGet sess session ticket => Sys2Proof.Machine.execReleaseKeyGet sess session ticket s
  | .slotErase sess slot immediate => Sys2Proof.Machine.execSlotErase sess slot immediate s
  | .slotZeroize slot => Sys2Proof.Machine.execSlotZeroize slot s
  | .slotRemask => Sys2Proof.Machine.execSlotRemask s
  | .measLogRead sess partition seq => Sys2Proof.Machine.execMeasLogRead sess partition seq s
  | .pqOffer sess encapsKey => Sys2Proof.Machine.execPqOffer sess encapsKey s
  | .pqSign sess verifies => Sys2Proof.Machine.execPqSign sess verifies s
  | .pqCountersign sess => Sys2Proof.Machine.execPqCountersign sess s
  | .levelPair sess partition peer va len key halt detail => Sys2Proof.Machine.execLevelPair sess partition peer va len key halt detail s
  | .spLogRead sess seq => Sys2Proof.Machine.execSpLogRead sess seq s
  | .spdmKeyExchange sess requester identity handle offerDigest => Sys2Proof.Machine.execSpdmKeyExchange sess requester identity handle offerDigest s
  | .spdmFinish sess verifies => Sys2Proof.Machine.execSpdmFinish sess verifies s
  | .spdmGetMeasurements sess index => Sys2Proof.Machine.execSpdmGetMeasurements sess index s
  | .spdmUnsupportedRequest sess code => Sys2Proof.Machine.execSpdmUnsupportedRequest sess code s
  | .entropyStartup samples => Sys2Proof.Machine.execEntropyStartup samples s
  | .entropyTestFailure => Sys2Proof.Machine.execEntropyTestFailure s
  | .drbgReseed entropyOk => Sys2Proof.Machine.execDrbgReseed entropyOk s
  | .rootSecretGenerate => Sys2Proof.Machine.execRootSecretGenerate s
  | .lcGet sess => Sys2Proof.Machine.execLcGet sess s
  | .lcNonce sess => Sys2Proof.Machine.execLcNonce sess s
  | .lcAdvance sess token => Sys2Proof.Machine.execLcAdvance sess token s
  | .debugChallenge sess => Sys2Proof.Machine.execDebugChallenge sess s
  | .debugUnlock sess token => Sys2Proof.Machine.execDebugUnlock sess token s
  | .debugLock sess => Sys2Proof.Machine.execDebugLock sess s
  | .debugKill sess token => Sys2Proof.Machine.execDebugKill sess token s
  | .nonceLapse => Sys2Proof.Machine.execNonceLapse s
  | .debugDurationExpiry => Sys2Proof.Machine.execDebugDurationExpiry s
  | .levelPeerSilent partition => Sys2Proof.Machine.execLevelPeerSilent partition s
  | .clkgateWrite offset value => Sys2Proof.Machine.execClkgateWrite offset value s
  | .clkgateTakeEffect block => Sys2Proof.Machine.execClkgateTakeEffect block s
  | .domainDrainEnd domain => Sys2Proof.Machine.execDomainDrainEnd domain s
  | .domainWakeComplete domain => Sys2Proof.Machine.execDomainWakeComplete domain s
  | .clusterClockStop cluster => Sys2Proof.Machine.execClusterClockStop cluster s
  | .clusterOffDelay cluster => Sys2Proof.Machine.execClusterOffDelay cluster s
  | .clockLadderStep clock => Sys2Proof.Machine.execClockLadderStep clock s
  | .dvfsDecision cluster n => Sys2Proof.Machine.execDvfsDecision cluster n s
  | .clockLoss source => Sys2Proof.Machine.execClockLoss source s
  | .clockRecovery => Sys2Proof.Machine.execClockRecovery s
  | .fastCurrentOverride => Sys2Proof.Machine.execFastCurrentOverride s
  | .sustainedCurrentStep => Sys2Proof.Machine.execSustainedCurrentStep s
  | .voltageDroop die => Sys2Proof.Machine.execVoltageDroop die s
  | .temperatureThrottleStep => Sys2Proof.Machine.execTemperatureThrottleStep s
  | .temperatureFloor => Sys2Proof.Machine.execTemperatureFloor s
  | .temperatureTrip => Sys2Proof.Machine.execTemperatureTrip s
  | .tripCooldownRelease => Sys2Proof.Machine.execTripCooldownRelease s
  | .throttleOutRelease => Sys2Proof.Machine.execThrottleOutRelease s
  | .brakeAssertedRepeat => Sys2Proof.Machine.execBrakeAssertedRepeat s
  | .brakeInTrigger => Sys2Proof.Machine.execBrakeInTrigger s
  | .brakeRelease => Sys2Proof.Machine.execBrakeRelease s
  | .loanReclaim node => Sys2Proof.Machine.execLoanReclaim node s
  | .evrCfgWrite value => Sys2Proof.Machine.execEvrCfgWrite value s
  | .evrHeadWrite value => Sys2Proof.Machine.execEvrHeadWrite value s
  | .wmStickyWrite value => Sys2Proof.Machine.execWmStickyWrite value s
  | .evtStickyWrite page value => Sys2Proof.Machine.execEvtStickyWrite page value s
  | .rcFieldRead addr size racing => Sys2Proof.Machine.execRcFieldRead addr size racing s
  | .plumbLoRead => Sys2Proof.Machine.execPlumbLoRead s
  | .q0CfgWrite value => Sys2Proof.Machine.execQ0CfgWrite value s
  | .lpCtrlWrite port value => Sys2Proof.Machine.execLpCtrlWrite port value s
  | .registerWrite addr size value => Sys2Proof.Machine.execRegisterWrite addr size value s
  | .inputPowerUp millivolts => Sys2Proof.Machine.execInputPowerUp millivolts s
  | .inputBrownOut millivolts => Sys2Proof.Machine.execInputBrownOut millivolts s
  | .inputLockout millivolts => Sys2Proof.Machine.execInputLockout millivolts s
  | .inputOvervoltage millivolts => Sys2Proof.Machine.execInputOvervoltage millivolts s
  | .perstAssert => Sys2Proof.Machine.execPerstAssert s
  | .perstDeassert slotId => Sys2Proof.Machine.execPerstDeassert slotId s
  | .cableInsert connector => Sys2Proof.Machine.execCableInsert connector s
  | .cableRemove connector => Sys2Proof.Machine.execCableRemove connector s
  | .smbusStuck scl sda => Sys2Proof.Machine.execSmbusStuck scl sda s
  | .smbusResume => Sys2Proof.Machine.execSmbusResume s
  | .smbusAlertResponse => Sys2Proof.Machine.execSmbusAlertResponse s
  | .mctpControlMessage binding eid => Sys2Proof.Machine.execMctpControlMessage binding eid s
  | .pldmFwTransfer component image version sigsOk => Sys2Proof.Machine.execPldmFwTransfer component image version sigsOk s
  | .pldmApply component => Sys2Proof.Machine.execPldmApply component s
  | .pldmActivateFirmware sess => Sys2Proof.Machine.execPldmActivateFirmware sess s
  | .pldmSensorRead sensor => Sys2Proof.Machine.execPldmSensorRead sensor s
  | .pldmFruRead => Sys2Proof.Machine.execPldmFruRead s
  | .sensorRefresh millivolts watts temps inlet outlet => Sys2Proof.Machine.execSensorRefresh millivolts watts temps inlet outlet s
  | .d2dLinkTrainingComplete link ok => Sys2Proof.Machine.execD2dLinkTrainingComplete link ok s
  | .clusterScrubComplete cluster => Sys2Proof.Machine.execClusterScrubComplete cluster s
  | .safetyOverrideEnd loop => Sys2Proof.Machine.execSafetyOverrideEnd loop s
  | .brownOutRecovery millivolts => Sys2Proof.Machine.execBrownOutRecovery millivolts s
  | .overvoltageRecovery millivolts => Sys2Proof.Machine.execOvervoltageRecovery millivolts s
  | .crystalReturn => Sys2Proof.Machine.execCrystalReturn s
  | .laneSlotStart lane => Sys2Proof.Machine.execLaneSlotStart lane s
  | .platformManagementRequest sess entry => Sys2Proof.Machine.execPlatformManagementRequest sess entry s
  | .spdmGetVersion sess => Sys2Proof.Machine.execSpdmGetVersion sess s
  | .spdmGetCapabilities sess => Sys2Proof.Machine.execSpdmGetCapabilities sess s
  | .spdmNegotiateAlgorithms sess asym hash dhe aead => Sys2Proof.Machine.execSpdmNegotiateAlgorithms sess asym hash dhe aead s
  | .spdmGetDigests sess => Sys2Proof.Machine.execSpdmGetDigests sess s
  | .spdmGetCertificate sess => Sys2Proof.Machine.execSpdmGetCertificate sess s
  | .spdmChallenge sess => Sys2Proof.Machine.execSpdmChallenge sess s
  | .spdmHeartbeat sess => Sys2Proof.Machine.execSpdmHeartbeat sess s
  | .spdmKeyUpdate sess => Sys2Proof.Machine.execSpdmKeyUpdate sess s
  | .spdmEndSession sess => Sys2Proof.Machine.execSpdmEndSession sess s

end Sys2Proof.Machine
end

