-- ==== Sys2Proof/Safety.lean ====
section
/-! DEFINITION. What counts as a safe run of the module, and the few words in which the statements about it are written. -/

namespace Sys2Proof.Machine
open Sys2Proof

/-- The life-cycle word, with the bits that programming under way still sets, spells a state of the OTP table (Table 15.1). Only the
loss of all power while it is being programmed leads to another word (R388). -/
def lifeCycleLegal (s : State) : Prop := lcState (lcSettled s.sp) ≠ 7

/-- A run is safe while the life-cycle word to be stays legal; every other bad end (a failed line, a lost link, a trip) is an effect
that the spec gives and that `State` holds. -/
def Safe (s : State) : Prop := lifeCycleLegal s

/-- The module's life-cycle word to be is as before, or the programming of one transition of R382 has begun on top of it. -/
def lifeCycleStep (s t : State) : Prop :=
  lcSettled t.sp = lcSettled s.sp ∨
    ∃ target, transition (lcState (lcSettled s.sp)) target = true ∧ lcSettled t.sp = lcSettled s.sp ||| lcCode target

/-- The security processor serves requests: it runs, the life cycle has not halted it, and none is being programmed. -/
def SpServes (s : State) : Prop := spRuns s = true ∧ lcHalted s = false ∧ s.sp.programming = none

/-- A vendor request of a connection is served and answered at once: the connection is a finished and signed secured session of a
requester, no firmware activation holds requests back, and no earlier request of the session has still to complete (R349, R350,
R365, R181). -/
def Vendor (s : State) (sess : Nat) (v : Spdm) : Prop :=
  SpServes s ∧ tlook s.sp.spdm sess = some v ∧ v.finished = true ∧ v.pqSigned = true ∧ s.sp.fwWait = false ∧
    heldBack s sess v = false

/-- What the security processor answered last. -/
def Answered (t : State) (st : Status) (data : List Nat) (bytes : Bytes) : Prop := t.sp.answer = some ⟨st, data, bytes⟩

/-- Two states differ at most in their cores. -/
def sameButCores (s t : State) : Prop := t = { s with cores := t.cores }

/-- Two states differ at most in the Lath unit (ports, flows, replay state, loans, membership). -/
def sameButFabric (s t : State) : Prop := t = { s with fab := t.fab }

/-- Every core but one is as it was. -/
def otherCoresKept (s t : State) (core : Nat) : Prop := ∀ c, c ≠ core → coreOf t c = coreOf s c

/-- One byte of device memory, as the state holds it. -/
def memByte (s : State) (a : Nat) : Byte := mread s.mem.bytes a

/-- A request reaches its controller now: it lies in one line outside the reserved region, it is neither sealed nor held at the
boundary router, the clock of its controller is not gated, and its granule is in no zero-fill. -/
def memServes (s : State) (r : MemReq) : Prop :=
  reqOk r = true ∧ isReserved r.addr = false ∧ r.key ≠ 0 ∧ sealedAt s r.addr = false ∧ s.pow.dustSheet = false ∧
  (domOf s (ctlDomain (ctlNo r.addr))).state ≠ .draining ∧ ctlGated s (ctlNo r.addr) = false ∧
  (tlook s.mem.granules (granOf r.addr)).any (·.filling) = false

/-- A request that has passed checks 1 to 6 and is due, as it passes its receive buffer and is executed, answered, recorded, and followed by the held packets
whose turn it brings; `u` is the state after the checks. -/
def dueServed (u : State) (rx : Rx) : State :=
  let s := serveDue (passBuffer (renewLoan u rx.pkt.srcNode) rx) rx.port rx.pkt
  let h := serveHeld s s.fab.heldFlow.length
  pumpEverything (setLevel h 3 (heldFlows h).length)

end Sys2Proof.Machine
end

