-- ==== Sys2Proof/Certificates/Slice0/Obligations.lean ====
section
/-! DEFINITION. The statements for the provers. A statement is a conjunction, one clause for each command or form that it names; a
clause's hypotheses speak of the state and the operands before the command. -/

open Sys2Proof Sys2Proof.Machine

/-- A step takes the command at the front of the queue and runs it on the state with the queue's rest. -/
def Obligations.StepRunsFrontCommand : Prop :=
  ∀ (c : Instr) (rest : List Instr) (s : State), step { s with pending := c :: rest } = exec c { s with pending := rest }

/-- With no command waiting, a step is half a nanosecond of module time, every second one ends a nanosecond, and the life-cycle
word to be stays (DESIGN CHOICE, log entry 4). In the first half, and where no checkpoint request, no life-cycle programming and
no answer of the security processor waits, only the clocks move, and port F of a core with work on a tile path of a cluster whose
clock runs (R93, R94): a core with both paths empty and a cluster whose clock is gated stay as they are. -/
def Obligations.IdleStepMovesOnlyClocks : Prop :=
  ∀ s : State, s.pending = [] → ∃ t, step s = .next t ∧ t.ns = (if s.half then s.ns + 1 else s.ns) ∧ t.pending = [] ∧
    lcSettled t.sp = lcSettled s.sp ∧
    (s.half = false ∨ (ckptSessions s = [] ∧ s.sp.programming = none ∧ ∀ x ∈ s.sp.spdm, x.2.late = []) →
      t.half = !s.half ∧ t.plans = s.plans ∧ t.queues = s.queues ∧ t.contexts = s.contexts ∧ t.parts = s.parts ∧ t.mem = s.mem ∧
      t.sp = s.sp ∧ t.pow = s.pow ∧ t.regs = s.regs ∧ t.puts = s.puts ∧ t.signals = s.signals ∧
      t.fab = { s.fab with plumb := t.fab.plumb } ∧ (s.fab.plumb.running = false → t.fab.plumb = s.fab.plumb) ∧
      (∀ c, (coreOf s c).arrayPath = [] → (coreOf s c).drainPath = [] → coreOf t c = coreOf s c) ∧
      (∀ c, (clusterOf s (clusterNo c)).clock = false → coreOf t c = coreOf s c) ∧
      ∀ k, (clusterOf s k).clock = false → (clusterOf s k).portF < 2 ^ 32 → clusterOf t k = clusterOf s k)

/-- The module right after reset: no command waits, the module is in ISLAND with PERST# asserted, nothing is opened, loaded,
mapped or cached, no port is up, Plumb does not run, PCAP reads 2,800 W, RESP_TIMEOUT 50 us, DT_FREQ 0x3C, every peripheral
enabled. -/
def Obligations.ResetStateHoldsNothingOpen : Prop :=
  let s := State.reset
  s.pending = [] ∧ s.pow.state = .island ∧ s.pow.perst = true ∧ s.pow.resetDone = false ∧
  s.cores = [] ∧ s.plans = [] ∧ s.queues = [] ∧ s.contexts = [] ∧ s.parts = [] ∧ s.mem.granules = [] ∧ s.mem.tlb = [] ∧
  s.sp.sessions = [] ∧ s.sp.keyCtxs = [] ∧ s.sp.slots = [] ∧ s.sp.spdm = [] ∧ s.fab.windows = [] ∧ s.fab.groups = [] ∧
  s.fab.plumb.running = false ∧ (∀ p, (portOf s p).state = .down) ∧ (∀ k, (keyOf s k).state = .free) ∧
  (∀ a, memByte s a = 0) ∧ s.pow.pcap = 2800 ∧ s.regs.respTimeout = 50 ∧ s.pow.dtFreq = 0x3C ∧
  s.pow.cgCluster = 0xFFFFFFFFFFFFFFFF#64 ∧ s.pow.cgLath = 0xFFFFFFFF#32

/-- The reset state's life-cycle word is legal. -/
def Obligations.ResetLifeCycleIsLegal : Prop := lifeCycleLegal State.reset

/-- Whatever command runs, in whatever state: a legal life-cycle word, with the bits that programming under way still sets, stays
legal, but for the loss of all power while it is being programmed. -/
def Obligations.LifeCycleWordStaysLegal : Prop :=
  ∀ s t : State, lifeCycleLegal s → step s = .next t →
    (s.sp.programming = none ∨ ∀ mv rest, s.pending ≠ .inputLockout mv :: rest ∧ s.pending ≠ .inputOvervoltage mv :: rest) →
    lifeCycleLegal t

/-- Only the transitions of R382 exist: a step leaves the life-cycle word to be as it is or begins to program one of them on top
of it, keeping every bit; no command but LC_ADVANCE changes it; a served LC_ADVANCE to any other target completes with
POLICY_DENIED and sets no bit. A loss of all power leaves in OTP the bits programmed so far (R388), and no other command takes a
bit back: programming under way, settled, is the word to be, with none under way. -/
def Obligations.LifeCycleBitsOnlyAdvance : Prop :=
  (∀ s t : State, step s = .next t →
    (s.sp.programming = none ∨ ∀ mv rest, s.pending ≠ .inputLockout mv :: rest ∧ s.pending ≠ .inputOvervoltage mv :: rest) →
    lifeCycleStep s t ∧ lcSettled t.sp &&& lcSettled s.sp = lcSettled s.sp ∧
    ((∀ sess by' rest, s.pending ≠ .lcAdvance sess by' :: rest) → lcSettled t.sp = lcSettled s.sp)) ∧
  (∀ (sess : Nat) (v : Spdm) (by' : Advance) (s : State), Vendor s sess v →
    transition (lcState s.sp.lcWord) (match by' with | .token k => le k.bytes 5 1 | .target n => n) = false →
    ∃ t, exec (.lcAdvance sess by') s = .next t ∧ Answered t .policyDenied [] [] ∧ t.sp.lcWord = s.sp.lcWord) ∧
  (∀ (mv : Nat) (s : State), (losePower s mv).sp.programming = none ∧ (losePower s mv).sp.lcWord = s.sp.lcWord) ∧
  (∀ s : State, (settleProgramming s).sp.programming = none ∧ (settleProgramming s).sp.lcWord = lcSettled s.sp) ∧
  (∀ a b, transition a b = true ↔ (a, b) ∈ [(0, 1), (1, 2), (2, 3), (3, 4), (4, 5), (3, 5)])

/-- A command takes no module time, and it leaves the commands that wait behind it as they are. -/
def Obligations.CommandsTakeNoTimeAndKeepQueue : Prop :=
  ∀ (c : Instr) (rest : List Instr) (s t : State), s.pending = c :: rest → step s = .next t → t.ns = s.ns ∧ t.pending = rest

/-- Every command answers a next state in every state: none ends in a fault or a refusal. -/
def Obligations.EveryCommandAnswersNext : Prop := ∀ (c : Instr) (s : State), ∃ t, exec c s = .next t

/-- WAIT_TOK_RELEASE, WAIT_SIG_RELEASE, WAIT_ARR_RELEASE: a wait point whose condition holds, on a core whose task's edges have
resolved or that has committed, and that no stop or due abort overtakes, releases: the core stops waiting, is committed, and may
issue its next bundle a cycle later, and the faults that its tokens held until this commit point are reported (R99, R165); a
strict WAIT_TOK with a failed token ends the task instead (second clause; R97 to R99). A wait point whose condition does not hold,
or whose task has an unresolved edge before its commit point, stays: no release command changes anything. Completes (exec answers
a next state): WAIT_TOK_RELEASE, WAIT_SIG_RELEASE, WAIT_ARR_RELEASE. -/
def Obligations.WaitPointsReleaseOnlyWhenTrue : Prop :=
  ((∀ (core l g m : Nat) (s : State), (coreOf s core).wait = some (.tok (l = 1) g m) → waitHolds s core (.tok (l = 1) g m) = true →
    mayCommit s core = true → (l ≠ 1 → firstBad (coreOf s core) (maskedTokens g m) = none) →
    ∃ t, exec (.waitTokRelease core) s = .next t ∧ sameButCores (reportHeld s core) t ∧ otherCoresKept s t core ∧
      coreOf t core = { coreOf s core with wait := none, committed := true, nextIssue := cycleOf s core + 1 }) ∧
  (∀ (core g m tok : Nat) (st : Status) (s : State), (coreOf s core).wait = some (.tok false g m) →
    waitHolds s core (.tok false g m) = true → mayCommit s core = true → firstBad (coreOf s core) (maskedTokens g m) = some (tok, st) →
    ∃ u, exec (.waitTokRelease core) s = .next (endByCore u core st) ∧ sameButCores (reportHeld s core) u ∧ otherCoresKept s u core ∧
      (coreOf u core).wait = none ∧ (coreOf u core).committed = true ∧ (coreOf u core).resultVa = tlook (coreOf s core).faultVa tok) ∧
  (∀ (core n : Nat) (v : Word) (s : State), (coreOf s core).wait = some (.sig n v) → waitHolds s core (.sig n v) = true →
    mayCommit s core = true →
    ∃ t, exec (.waitSigRelease core) s = .next t ∧ sameButCores (reportHeld s core) t ∧ otherCoresKept s t core ∧
      coreOf t core = { coreOf s core with wait := none, committed := true, nextIssue := cycleOf s core + 1 }) ∧
  (∀ (core n : Nat) (v : Word) (s : State), (coreOf s core).wait = some (.arr n v) → waitHolds s core (.arr n v) = true →
    mayCommit s core = true →
    ∃ t, exec (.waitArrRelease core) s = .next t ∧ sameButCores (reportHeld s core) t ∧ otherCoresKept s t core ∧
      coreOf t core = { coreOf s core with wait := none, committed := true, nextIssue := cycleOf s core + 1 })) ∧
  (∀ (core : Nat) (w : Wait) (s : State), (coreOf s core).wait = some w → (waitHolds s core w = false ∨ mayCommit s core = false) →
    exec (.waitTokRelease core) s = .next s ∧ exec (.waitSigRelease core) s = .next s ∧ exec (.waitArrRelease core) s = .next s ∧
    exec (.endRelease core) s = .next s) ∧
  (∀ (core : Nat) (s : State), (reportHeld s core).cores = s.cores ∧ (reportHeld s core).mem = s.mem ∧ (reportHeld s core).plans = s.plans ∧
    (heldSealed s core = [] → reportHeld s core = s))

/-- SIGNAL_INCREMENT and MESH_PUT_LAND: wherever it stands in the list of those on their way, a signal that is due makes
SIGNAL_INCREMENT take one due signal of its sender, target and counter off the list and add 1 (modulo 2^32) to the counter of the
target core. Where a put to a core has come to its landing cycle, MESH_PUT_LAND lands the one of the lowest crew index: it is on
its way no longer, its bytes go to the core's store for the reads of the next cycle on, and the others that could have landed wait
a cycle (R95, R96). Nothing else of the module changes. Completes (exec answers a next state): SIGNAL_INCREMENT, MESH_PUT_LAND. -/
def Obligations.SignalsAndPutsLand : Prop :=
  (∀ (g : Signal) (s : State), g ∈ s.signals → signalDue s g = true →
    ∃ t h, exec (.signalIncrement g.sender g.target g.counter) s = .next t ∧ h ∈ s.signals ∧ h.sender = g.sender ∧ h.target = g.target ∧
      h.counter = g.counter ∧ signalDue s h = true ∧ t = { s with cores := t.cores, signals := s.signals.erase h } ∧
      otherCoresKept s t g.target ∧
      coreOf t g.target = { coreOf s g.target with
        signals := tput 0 (coreOf s g.target).signals g.counter (tget 0 (coreOf s g.target).signals g.counter + 1) }) ∧
  (∀ (target : Nat) (q : MeshPut) (s : State), q ∈ s.puts → q.target = target → q.land ≤ clusterCycle s target →
    ∃ t p, exec (.meshPutLand target) s = .next t ∧ nextPut s target = some p ∧ p ∈ s.puts ∧ p.target = target ∧
      p.land ≤ clusterCycle s target ∧ p.crewIndex ≤ q.crewIndex ∧
      t = { s with cores := t.cores, signals := t.signals, puts := t.puts } ∧ otherCoresKept s t target ∧
      t.puts = (s.puts.erase p).map (fun q => if q.target = target ∧ q.land ≤ clusterCycle s target
        then { q with land := clusterCycle s target + 1 } else q) ∧
      coreOf t target = { coreOf s target with
        pend := (coreOf s target).pend ++ [.put (clusterCycle s target + 1) p.addr (regBytes p.data)] })

/-- BUNDLE_ISSUE of a bundle that is ready, passes every check and meets no stall: the bundle's effect. A bundle all of whose
slots are no-ops moves only the issuing core: its pc by one, its next issue by one cycle, its bundle counter, and the model's
notes of its last issue cycle and of the banks it used. A bundle that stalls changes nothing. Completes (exec answers a next
state): BUNDLE_ISSUE. -/
def Obligations.BundlesIssueWhenReady : Prop :=
  (∀ (core : Nat) (i : Issue) (b : BitVec 128) (s : State), issueOf s core = some i → canIssue s core = true →
    i.core.image[i.core.pc]? = some b → bundleCheck s i (slotsOf b) = none → stalled i (slotsOf b) (cycleOf s core) = false →
    exec (.bundleIssue core) s = .next (bundleEffect s i (slotsOf b) (cycleOf s core))) ∧
  (∀ (core : Nat) (i : Issue) (s : State), issueOf s core = some i → canIssue s core = true → i.core.image[i.core.pc]? = some 0#128 →
    i.core.loops = [] →
    ∃ t, exec (.bundleIssue core) s = .next t ∧ sameButCores s t ∧ otherCoresKept s t core ∧
      coreOf t core = { i.core with bundles := satAdd 32 i.core.bundles 1, pc := i.core.pc + 1, nextIssue := cycleOf s core + 1,
                                    wait := none, arrived := cycleOf s core + i.core.held, portUse := some (cycleOf s core, []) }) ∧
  (∀ (core : Nat) (i : Issue) (b : BitVec 128) (s : State), issueOf s core = some i → canIssue s core = true →
    i.core.image[i.core.pc]? = some b → stalled i (slotsOf b) (cycleOf s core) = true → exec (.bundleIssue core) s = .next s)

/-- A bundle that fails a check of any slot has no effect of any slot: the core ends its task with the status of the first failing
check. Past the image's last bundle without END the task ends with DESC_INVALID (R81, R487). -/
def Obligations.FailedBundlesHaveNoEffect : Prop :=
  (∀ (core : Nat) (i : Issue) (b : BitVec 128) (st : Status) (s : State), issueOf s core = some i → canIssue s core = true →
    i.core.image[i.core.pc]? = some b → bundleCheck s i (slotsOf b) = some st → stalled i (slotsOf b) (cycleOf s core) = false →
    exec (.bundleIssue core) s = .next (endByCore s core st)) ∧
  (∀ (core : Nat) (i : Issue) (s : State), issueOf s core = some i → canIssue s core = true → i.core.image.length ≤ i.core.pc →
    exec (.bundleIssue core) s = .next (endByCore s core .descInvalid)) ∧
  (∀ (core : Nat) (st : Status) (s : State), ∃ t, endByCore s core st = t ∧ t.mem = s.mem ∧ t.clusters = s.clusters ∧ t.fab = s.fab ∧
    (coreOf t core).store = (coreOf s core).store ∧ (coreOf t core).xregs = (coreOf s core).xregs ∧
    (coreOf t core).sregs = (coreOf s core).sregs)

/-- CREW_SYNC_RELEASE: the crew cores of one cluster that stand at a barrier whose condition holds release together: in a crew of
one cluster 4 cycles after the last arrival, in a larger one in the next cycle. A core's own cycles are its cluster's less those
for which port F held it. The store, registers and tokens of every core stay (R97); device memory and the plans stay, and where no
core's token holds a fault for this commit point, so does all but the cores. Completes (exec answers a next state):
CREW_SYNC_RELEASE. -/
def Obligations.CrewSyncReleasesTogether : Prop :=
  ∀ (queue task barrier cluster : Nat) (t : Task) (s : State), taskOf s ⟨queue, task⟩ = some t →
    ∃ u, exec (.crewSyncRelease queue task barrier cluster) s = .next u ∧ u.mem = s.mem ∧ u.plans = s.plans ∧
      ((∀ c ∈ syncReady s ⟨queue, task⟩ t barrier cluster, heldSealed s c = []) → sameButCores s u) ∧
      (∀ c, c ∉ syncReady s ⟨queue, task⟩ t barrier cluster → coreOf u c = coreOf s c) ∧
      ((syncReady s ⟨queue, task⟩ t barrier cluster).Nodup → ∀ c ∈ syncReady s ⟨queue, task⟩ t barrier cluster,
        coreOf u c = { coreOf s c with
          wait := none, committed := true
          nextIssue := (if t.clusterCount = 1 then t.cores.foldl (fun m c' => max m (coreOf s c').arrived) 0 + 4
            else (clusterOf s cluster).cycle + 1) - (coreOf s c).held })

/-- END_RELEASE and TASK_SCRUB_COMPLETE: a core whose END condition holds ends; the last of its crew ends the task. A core that
has been scrubbed for 256 cycles is free with every row of Table 4.14 at its task-start value, and what waited for it goes on
(R97, R104). Completes (exec answers a next state): END_RELEASE, TASK_SCRUB_COMPLETE. -/
def Obligations.EndsAndScrubsComplete : Prop :=
  (∀ (core : Nat) (r : TaskRef) (t : Task) (s : State), (coreOf s core).wait = some .fin → (coreOf s core).task = some r →
    waitHolds s core .fin = true → mayCommit s core = true → taskOf (releaseWait s core (cycleOf s core + 1)) r = some t →
    (crewDone (releaseWait s core (cycleOf s core + 1)) t = true →
      exec (.endRelease core) s = .next (progress (crewEnd (releaseWait s core (cycleOf s core + 1)) r))) ∧
    (crewDone (releaseWait s core (cycleOf s core + 1)) t = false →
      exec (.endRelease core) s = .next (releaseWait s core (cycleOf s core + 1)) ∧
      coreOf (releaseWait s core (cycleOf s core + 1)) core =
        { coreOf s core with wait := none, committed := true, ended := true, nextIssue := cycleOf s core + 1 })) ∧
  (∀ (core c0 : Nat) (s : State), (coreOf s core).scrub = some c0 → c0 + 256 ≤ clusterCycle s core →
    exec (.taskScrubComplete core) s = .next (progress (refreshClusters (passReserved (modCore s core scrubbed) (clusterNo core)))) ∧
    (coreOf (modCore s core scrubbed) core).store = [] ∧ (coreOf (modCore s core scrubbed) core).xregs = [] ∧
    (coreOf (modCore s core scrubbed) core).acc = [] ∧ (coreOf (modCore s core scrubbed) core).task = none)

/-- GANG_START, GANG_COMPLETE, STAGE_START, STAGE_COMPLETE: the head GANG starts once every earlier tile-slot operation has
completed, and 16 cycles later the configuration holds and both register sets are empty (R55); the STAGE at the head of the loader
starts, and 128 cycles later the shadow set holds its first pass's stationary elements and the loader is free (R61, R70). Only the
named core changes, and in the stop sequence of its task nothing (R73). Completes (exec answers a next state): GANG_START,
GANG_COMPLETE, STAGE_START, STAGE_COMPLETE. -/
def Obligations.GangAndStageRunOnTime : Prop :=
  (∀ (core : Nat) (o : ArrayOp) (l : List ArrayOp) (s : State), (coreNow s core).arrayPath = o :: l → o.kind = 4 → o.phase = .queued →
    (coreNow s core).drainPath.all (fun d => o.issue < d.issue) = true → coreStopped s core = false →
    ∃ t, exec (.gangStart core) s = .next t ∧ sameButCores s t ∧ otherCoresKept s t core ∧
      coreOf t core = { coreNow s core with arrayPath := { o with phase := .running, start := cycleOf s core } :: l }) ∧
  (∀ (core : Nat) (o : ArrayOp) (l : List ArrayOp) (s : State), (coreNow s core).arrayPath = o :: l → o.kind = 4 → o.phase = .running →
    o.start + 16 ≤ cycleOf s core → coreStopped s core = false →
    ∃ t, exec (.gangComplete core) s = .next t ∧ sameButCores s t ∧ otherCoresKept s t core ∧
      coreOf t core = { coreNow s core with
        gang := o.gang, active := none, shadow := none, arrayPath := l, loadDone := cycleOf s core, loaded := false
        arrayFree := cycleOf s core }) ∧
  (∀ (core i : Nat) (o : ArrayOp) (s : State), stageHead (coreNow s core) = some (i, o) → o.phase = .queued → coreStopped s core = false →
    ∃ t, exec (.stageStart core) s = .next t ∧ sameButCores s t ∧ otherCoresKept s t core ∧
      coreOf t core = setArray { coreNow s core with loaded := false } i { o with phase := .running, start := cycleOf s core }) ∧
  (∀ (c : Core) (o : ArrayOp) (pass now t : Nat), loadJob c = some (o, pass, t) → c.loaded = false → t + 128 ≤ now →
    landLoad now c = { c with shadow := some (loadSet c o pass t), loaded := true }) ∧
  (∀ (c : Core) (i : Nat) (o : ArrayOp), stageHead c = some (i, o) → o.phase = .running → loadJob c = some (o, 0, o.start)) ∧
  (∀ (core i : Nat) (o : ArrayOp) (s : State), stageHead (coreNow s core) = some (i, o) → o.phase = .running →
    o.start + 128 ≤ cycleOf s core → coreStopped s core = false →
    ∃ t, exec (.stageComplete core) s = .next t ∧ sameButCores s t ∧ otherCoresKept s t core ∧
      coreOf t core = { coreNow s core with
        loadDone := cycleOf s core, loaded := false, arrayFree := cycleOf s core, arrayPath := (coreNow s core).arrayPath.eraseIdx i }) ∧
  (∀ (core : Nat) (s : State), coreStopped s core = true →
    ∀ c ∈ [.gangStart core, .gangComplete core, .stageStart core, .stageComplete core, .tilePassSwap core, .tileComplete core,
      .cFillStart core, .cFillComplete core, .drainStart core, .drainComplete core], exec c s = .next s)

/-- TILE_PASS_SWAP, TILE_COMPLETE: the swap into pass p exchanges the active and the shadow set, and the loader turns to the set
of pass p + 1, whose column chunk and K chunk are its quotient and remainder by nk; once the pass has streamed, every row past the
active set stands in the accumulator file; after the last pass's stream and the pipeline depth the TILE leaves the array path
(R51, R66 to R68). Core store, registers, tokens and every other core stay. Completes (exec answers a next state): TILE_PASS_SWAP,
TILE_COMPLETE. -/
def Obligations.TilePassesAccumulate : Prop :=
  (∀ (core i : Nat) (o : ArrayOp) (s : State), arrayHead (coreNow s core) (cycleOf s core) = some (i, o) → o.kind = 1 →
    o.pass < passes (coreNow s core).gang o.tile → swapReady (coreNow s core) (cycleOf s core) o = true → coreStopped s core = false →
    ∃ t, exec (.tilePassSwap core) s = .next t ∧ sameButCores s t ∧ otherCoresKept s t core ∧
      coreOf t core = { coreNow s core with
        active := (coreNow s core).shadow, shadow := (coreNow s core).active, loadDone := cycleOf s core, loaded := false
        arrayPath := (coreNow s core).arrayPath.set i { o with phase := .running, start := cycleOf s core, pass := o.pass + 1 } }) ∧
  (∀ (c : Core) (o : ArrayOp) (pass t : Nat), (loadSet c o pass t).recd = o.recAddr ∧
    (loadSet c o pass t).jn = pass / nkOf c.gang o.tile ∧ (loadSet c o pass t).jk = pass % nkOf c.gang o.tile ∧
    ∀ b ∈ (loadSet c o pass t).blocks, b.col < (gangShape c.gang).2.1 ∧
      pass / nkOf c.gang o.tile * (gangShape c.gang).2.1 + b.col < o.tile.ns) ∧
  (∀ (c : Core) (i : Nat) (o : ArrayOp) (st : StatSet) (now : Nat), streaming c = some (i, o) → c.active = some st →
    o.start + o.stream ≤ now →
    sumPass now c = { c with acc := runPass c o st, arrayPath := c.arrayPath.set i { o with summed := o.pass } }) ∧
  (∀ (core : Nat) (o : ArrayOp) (l : List ArrayOp) (s : State), (coreNow s core).arrayPath = o :: l →
    lastSwapped (coreNow s core).gang o = true → o.start + o.stream + (gangShape (coreNow s core).gang).2.2 ≤ cycleOf s core →
    coreStopped s core = false →
    ∃ t, exec (.tileComplete core) s = .next t ∧ sameButCores s t ∧ otherCoresKept s t core ∧
      coreOf t core = { coreNow s core with arrayPath := l })

/-- C_FILL_START, C_FILL_COMPLETE, DRAIN_START, DRAIN_COMPLETE: at the head of the drain path a C fill whose TILE no GANG stands
before, and a DRAIN, start when the accumulator entries they touch are free; a C fill has then written the initial C into the
accumulator file, a DRAIN has converted it into the core store, and the drain path is free (R64, R69). Only the named core
changes. Completes (exec answers a next state): C_FILL_START, C_FILL_COMPLETE, DRAIN_START, DRAIN_COMPLETE. -/
def Obligations.DrainPathRunsInOrder : Prop :=
  (∀ (core i : Nat) (d : DrainOp) (l : List DrainOp) (o : ArrayOp) (s : State), (coreNow s core).drainPath = d :: l →
    fillTile (coreNow s core) d = some (i, o) → d.isFill = true → d.running = false →
    drainFreeOf (coreNow s core) d = true → coreStopped s core = false →
    ∃ t, exec (.cFillStart core) s = .next t ∧ sameButCores s t ∧ otherCoresKept s t core ∧
      (coreOf t core).drainPath = { d with running := true, start := cycleOf s core } :: l ∧
      (coreOf t core).arrayPath = (coreNow s core).arrayPath.set i { o with fill := 1, fillAt := cycleOf s core }) ∧
  (∀ (core : Nat) (d : DrainOp) (l : List DrainOp) (s : State), (coreNow s core).drainPath = d :: l → d.isFill = true → d.running = true →
    d.start + drainTime d.tile ≤ cycleOf s core → coreStopped s core = false →
    ∃ t, exec (.cFillComplete core) s = .next t ∧ sameButCores s t ∧ otherCoresKept s t core ∧
      (coreOf t core).acc = fillAcc (coreNow s core) d ∧ (coreOf t core).drainPath = l ∧ (coreOf t core).drainFree = cycleOf s core ∧
      (coreOf t core).store = (coreNow s core).store) ∧
  (∀ (core : Nat) (d : DrainOp) (l : List DrainOp) (s : State), (coreNow s core).drainPath = d :: l → d.isFill = false → d.running = false →
    drainFreeOf (coreNow s core) d = true → coreStopped s core = false →
    ∃ t, exec (.drainStart core) s = .next t ∧ sameButCores s t ∧ otherCoresKept s t core ∧
      coreOf t core = { coreNow s core with drainPath := { d with running := true, start := cycleOf s core } :: l }) ∧
  (∀ (core : Nat) (d : DrainOp) (l : List DrainOp) (s : State), (coreNow s core).drainPath = d :: l → d.isFill = false → d.running = true →
    d.start + drainTime d.tile ≤ cycleOf s core → coreStopped s core = false →
    ∃ t, exec (.drainComplete core) s = .next t ∧ sameButCores s t ∧ otherCoresKept s t core ∧
      (coreOf t core).store = (drainWrites (coreNow s core) d).foldl applyBits (coreNow s core).store ∧
      (coreOf t core).xregs = (coreNow s core).xregs ∧ (coreOf t core).tokens = (coreNow s core).tokens ∧
      (coreOf t core).drainPath = l ∧ (coreOf t core).drainFree = cycleOf s core ∧ (coreOf t core).acc = (coreNow s core).acc)

/-- DMA_OPERATION_START, DMA_OPERATION_COMPLETE, LATH_PAIR_WAIT_TIMEOUT: the next operation of a queue whose fence is open and
whose stores can be reached starts: one with no core store at its ends on a free channel of its cluster, in issue order, and with
all six channels taken it waits; a Lath operation sends under its pair, one with a source to read once no die-to-die link waits
(R229); a started COPY or GATHER completes its token; a prologue load token completes its load; a Lath operation that has waited 1
s for its pair completes with NOT_READY (R85, R86, R98, R246, R233). Completes (exec answers a next state): DMA_OPERATION_START,
DMA_OPERATION_COMPLETE, LATH_PAIR_WAIT_TIMEOUT. -/
def Obligations.DmaOperationsStartAndComplete : Prop :=
  (∀ (core queue : Nat) (r : TaskRef) (o : DmaOp) (p : Plan) (t : Task) (s : State), (coreOf s core).task = some r →
    nextStart (coreOf s core) queue = some o → planOf s r.queue = some p → taskOf s r = some t → t.stop = none →
    fenceOpen (coreOf s core) o = true → s.pow.dustSheet = false → copyReady s r t core o = true → o.op ≤ 2 →
    (onChannel t core o = false → exec (.dmaOperationStart core queue) s = .next (putOp s core { o with started := true })) ∧
    (∀ n, onChannel t core o = true → freeChan s (clusterNo core) 0 6 = some n → firstForChannel s core o = true →
      exec (.dmaOperationStart core queue) s = .next (putOp (modCluster s (clusterNo core) (fun k =>
        { k with channels := tins k.channels n (.dma core o.seq) })) core { o with started := true })) ∧
    (onChannel t core o = true → freeChan s (clusterNo core) 0 6 = none → exec (.dmaOperationStart core queue) s = .next s)) ∧
  (∀ (core queue : Nat) (r : TaskRef) (o : DmaOp) (p : Plan) (t : Task) (s : State), (coreOf s core).task = some r →
    nextStart (coreOf s core) queue = some o → planOf s r.queue = some p → taskOf s r = some t → t.stop = none →
    fenceOpen (coreOf s core) o = true → s.pow.dustSheet = false → copyReady s r t core o = true → 3 ≤ o.op → maySend s ((pairActive s o.key).getD o.key) = true →
    (o.op = 3 ∨ dieWaits s hubDie = false) →
    exec (.dmaOperationStart core queue) s = .next (startLath s core r p.ctx t o)) ∧
  (∀ (core token : Nat) (r : TaskRef) (o : DmaOp) (p : Plan) (t : Task) (s : State), s.pow.dustSheet = false → dieWaits s (core / 256) = false →
    token < 56 →
    (coreOf s core).task = some r → opOfToken (coreOf s core) token = some o → planOf s r.queue = some p → taskOf s r = some t →
    o.started = true → o.op ≤ 2 → t.stop = none →
    exec (.dmaOperationComplete core token) s = .next (completeCopy s core r p.ctx t o)) ∧
  (∀ (core token : Nat) (s : State), s.pow.dustSheet = false → dieWaits s (core / 256) = false → 56 ≤ token →
    exec (.dmaOperationComplete core token) s = .next (completeLoad s core (token - 56))) ∧
  (∀ (core token : Nat) (o : DmaOp) (s : State), opOfToken (coreOf s core) token = some o → 3 ≤ o.op → o.started = false →
    maySend s ((pairActive s o.key).getD o.key) = false → o.issuedNs + 1000000000 ≤ s.ns →
    exec (.lathPairWaitTimeout core token) s = .next (endLath s core token .notReady))

/-- A task's end by its own stop sequence, by the watchdog and by the signal limit: TASK_STOP_COMPLETE, WATCHDOG_EXPIRY and
SIGNAL_LIMIT_EXPIRY end the task with the status the stop was begun with, or with ABORTED (Table 4.15, R137, R138). Completes
(exec answers a next state): TASK_STOP_COMPLETE, WATCHDOG_EXPIRY, SIGNAL_LIMIT_EXPIRY. -/
def Obligations.TaskLimitsAndStopsEndTasks : Prop :=
  (∀ (queue task : Nat) (t : Task) (st : Status × Nat) (s : State), taskOf s ⟨queue, task⟩ = some t → t.stop = some st →
    stopScrubbed s ⟨queue, task⟩ t = true →
    exec (.taskStopComplete queue task) s =
      .next (progress ((t.place.map (·.1)).foldl passReserved (stopComplete s ⟨queue, task⟩)))) ∧
  (∀ (queue task : Nat) (p : Plan) (t : Task) (s : State), planOf s queue = some p → taskOf s ⟨queue, task⟩ = some t →
    t.state = .running → t.stop = none → p.watchdog ≠ 0 → t.runSince + p.watchdog * 1000 ≤ s.ns → s.pow.dustSheet = false →
    exec (.watchdogExpiry queue task) s = .next (progress (stopTask (noteLimit s queue task) ⟨queue, task⟩ .aborted))) ∧
  (∀ (queue task at' : Nat) (p : Plan) (t : Task) (s : State), planOf s queue = some p → taskOf s ⟨queue, task⟩ = some t →
    (t.state = .blocked ∨ t.state = .ahead) → t.stop = none → t.edges.any (fun e => e.type == 2 && e.resolved.isNone) = true → t.notTaken = false →
    t.resolved = some at' → p.sigLimit ≠ 0 → at' + p.sigLimit * 1000000 ≤ s.ns → s.pow.dustSheet = false →
    exec (.signalLimitExpiry queue task) s =
      .next (progress (settleAll (endTask (noteLimit s queue task) ⟨queue, task⟩ .aborted) queue)))

/-- ARBITRATION_DECISION: the winner of a resource has the highest effective priority, of equal ones the highest AGE and then the
lowest queue; it loses its age there, every other candidate grows one older, and the winner's task is dispatched (R144, R145).
Completes (exec answers a next state): ARBITRATION_DECISION. -/
def Obligations.ArbitrationAgesLosers : Prop :=
  ∀ (resource : Resource) (w : Candidate) (rest : List Candidate) (s : State), s.pow.dustSheet = false →
    candidates s resource = w :: rest →
    ∃ u, exec (.arbitrationDecision resource) s = .next (progress (refreshClusters (dispatchWinner u resource w))) ∧
      u = { s with queues := u.queues } ∧ (∀ c ∈ rest, c.before w = false) ∧
      (rest.all (fun c => c.queue != w.queue) = true → tget 0 (queueOf u w.queue).ages (resourceKey resource) = 0) ∧
      (∀ c ∈ rest, (rest.map (·.queue)).Nodup → c.queue ≠ w.queue →
        tget 0 (queueOf u c.queue).ages (resourceKey resource) = tget 0 (queueOf s c.queue).ages (resourceKey resource) + 1)

/-- PLAN_LOAD of a plan that reads whole and breaks no rule: every status word is written as NOT_READY and the plan stands at the
queue with its header's limits and flags and no task run; a plan that cannot be read is rejected with the status of the read, one
whose records break a rule with DESC_INVALID, and one whose status words cannot be written with the status of that write, nothing
loaded (R133). While a die-to-die link of the hub waits, so does the load (R229), and so it does in the dust-sheet state (R425).
Completes (exec answers a next state): PLAN_LOAD. -/
def Obligations.PlansLoadWholeOrNotAtAll : Prop :=
  (∀ (queue base key : Nat) (s : State), (queueOf s queue).planWait = some (base, key) → planOf s queue = none → dieWaits s hubDie = false →
    s.pow.dustSheet = false →
    let s0 := modQueue s queue (fun v => { v with planWait := none })
    let ctx := (queueOf s queue).context
    let r := readPlan s0 ctx base key
    let h := r.2.1
    let tasks := recordsOf r.2.2.1 64 h.tasks
    let edges := recordsOf r.2.2.2.1 16 h.edges
    let pros := recordsOf r.2.2.2.2.1 192 h.pros
    let built := tasks.map (fun b => buildTask b (edges.map decodeEdge) (pros.map decodePro))
    let w := vwrite r.2.2.2.2.2 ctx key (base + h.statOff) (List.replicate h.tasks (leBytes 4 0x0600)).flatten false
    let good := tasks.all taskOk && edges.all edgeOk && pros.all (fun b => proOk b ((partOf s (ctxOf s ctx).partition).skimUnits * 262144))
      && rangesOk tasks h.edges h.pros && (List.range built.length).all (fun i => (built[i]?).all (ownedOk i))
    (r.1 = .ok → partOf r.2.2.2.2.2 (ctxOf s ctx).partition = partOf s (ctxOf s ctx).partition → good = true → w.1 = .ok →
      ∃ u p, exec (.planLoad queue) s = .next (progress (settleAll u queue)) ∧ planOf u queue = some p ∧ p.ctx = ctx ∧ p.key = key ∧
        p.base = base ∧ p.tasks = built ∧ p.halted = none ∧ p.watchdog = h.watchdog ∧ p.sigLimit = h.limit ∧
        p.flags = BitVec.ofNat 64 h.flags ∧ u.mem.bytes = w.2.mem.bytes) ∧
    (r.1 = .ok → partOf r.2.2.2.2.2 (ctxOf s ctx).partition = partOf s (ctxOf s ctx).partition → good = false →
      exec (.planLoad queue) s = .next (progress (finishCommand r.2.2.2.2.2 queue .descInvalid 0xFFFFFFFF 0 0))) ∧
    (r.1 = .ok → partOf r.2.2.2.2.2 (ctxOf s ctx).partition = partOf s (ctxOf s ctx).partition → good = true → w.1 ≠ .ok →
      ∃ va, exec (.planLoad queue) s = .next (progress (finishCommand
        (failedAt (afterFailed r.2.2.2.2.2 ctx key (base + h.statOff) (4 * h.tasks)) queue va) queue w.1 0xFFFFFFFF 0 0))) ∧
    (r.1 ≠ .ok → ∃ va, exec (.planLoad queue) s = .next (progress (finishCommand (failedAt r.2.2.2.2.2 queue va) queue r.1 0xFFFFFFFF 0 0)))) ∧
  (∀ (queue base key : Nat) (s : State), (queueOf s queue).planWait = some (base, key) → planOf s queue = none →
    (dieWaits s hubDie = true ∨ s.pow.dustSheet = true) → exec (.planLoad queue) s = .next s)

/-- SKIM_ADMISSION, PROLOGUE_LOAD_ISSUE, AHEAD_DISPATCH, SKIM_RANGE_ZERO: of a partition with fewer than four AHEAD tasks and room
in its Level buffer the next task becomes AHEAD with its placement; a prologue load whose range clashes with none of another task
and none still to be zeroed, on a cluster that the task reserves or ran ahead to, is held and on its way; a placement cluster that
is free takes the task's cores; a range whose transfers have stopped is zeroed and given back (R147 to R151). Completes (exec
answers a next state): SKIM_ADMISSION, PROLOGUE_LOAD_ISSUE, AHEAD_DISPATCH, SKIM_RANGE_ZERO. -/
def Obligations.SkimPreparesTasksAhead : Prop :=
  (∀ (partition : Nat) (r : TaskRef) (t : Task) (s : State),
    ((allTasks s).filter (fun t => t.2.state == .ahead && (match planOf s t.1.queue with
      | some p => (ctxOf s p.ctx).partition == partition | none => false))).length < 4 →
    s.pow.dustSheet = false → levelFull s partition = false → nextAhead s partition = some r → taskOf s r = some t →
    let place : List (Nat × List Nat) :=
      if t.unit = 1 then ((placeClusters s partition r t.crew).getD []).map (fun c => (c, List.range 16))
      else match placeCores s partition r t.crew with
        | some (c, true) => [(c, (freeCores s c).take t.crew)]
        | some (c, false) => [(c, [])]
        | none => []
    exec (.skimAdmission partition) s = .next (refreshClusters (place.foldl (fun s x => if awake s x.1 then s else startWake s x.1)
      (modTask s r (fun t => { t with state := .ahead, place := place, admitted := true }))))) ∧
  (∀ (queue task entry cluster : Nat) (p : Plan) (t : Task) (e : Prologue) (s : State), planOf s queue = some p →
    taskOf s ⟨queue, task⟩ = some t → t.pros[entry]? = some e → t.final = false → t.stop = none → t.place.any (fun x => x.1 == cluster) = true →
    (loadTargets t entry).contains cluster = true → t.loads.any (fun l => l.1 == entry && l.2.1 == cluster) = false → awake s cluster = true →
    (clusterOf s cluster).skim.any (fun x => (x.2.2.1 != ⟨queue, task⟩ || x.2.2.2) && decide (e.dest.addr < x.2.1) &&
      decide (x.1 < e.dest.addr + e.dest.lay.footprint)) = false → s.pow.dustSheet = false →
    (t.admitted = true ∨ t.entered.contains cluster = true) →
    let src := loadSource e (t.rankOf cluster)
    let issued := fun st => modTask (modCluster s cluster (fun k => { k with
        skim := k.skim ++ [(e.dest.addr, e.dest.addr + e.dest.lay.footprint, ⟨queue, task⟩, false)] })) ⟨queue, task⟩
      (fun t => { t with loads := t.loads ++ [(entry, cluster, st, tensorAt s p.ctx src)] })
    (descRow2 src (ctxOf s p.ctx).tensors (tensorAt s p.ctx src) = true →
      exec (.prologueLoadIssue queue task entry cluster) s =
        .next ((takeChan (issued .pending) cluster 6 8 (.load ⟨queue, task⟩ entry)).getD (issued .pending))) ∧
    (descRow2 src (ctxOf s p.ctx).tensors (tensorAt s p.ctx src) = false →
      exec (.prologueLoadIssue queue task entry cluster) s =
        .next (setLoad (issued (.done .descInvalid)) ⟨queue, task⟩ entry cluster .descInvalid none))) ∧
  (∀ (queue task cluster : Nat) (p : Plan) (t : Task) (s : State), planOf s queue = some p → taskOf s ⟨queue, task⟩ = some t →
    (clusterOf s cluster).reserved = some ⟨queue, task⟩ → t.final = false → p.halted = none → (clusterOf s cluster).removing = none →
    s.pow.dustSheet = false → levelFull s (ctxOf s p.ctx).partition = false →
    exec (.aheadDispatch queue task cluster) s = .next (progress (refreshClusters (tryEnter s ⟨queue, task⟩ cluster)))) ∧
  (∀ (cluster base top : Nat) (r : TaskRef) (l : List (Nat × Nat × TaskRef × Bool)) (s : State),
    (clusterOf s cluster).skim = (base, top, r, true) :: l →
    ∃ u, exec (.skimRangeZero cluster base) s = .next (refreshClusters u) ∧
      u = { s with clusters := u.clusters } ∧ (clusterOf u cluster).skim = l ∧
      (clusterOf u cluster).store = mzero (clusterOf s cluster).store base (top - base))

/-- CLUSTER_REMOVAL_TIMEOUT, CLUSTER_SCRUB_COMPLETE: 2 ms after a removal began, the running tasks on the cluster begin to stop
with ABORTED and those ahead go back to BLOCKED; after its scrub a cluster holds zeros in its store and in all 16 cores (R162).
Completes (exec answers a next state): CLUSTER_REMOVAL_TIMEOUT, CLUSTER_SCRUB_COMPLETE. -/
def Obligations.RemovedClustersAreScrubbed : Prop :=
  (∀ (cluster t0 : Nat) (s : State), (clusterOf s cluster).removing = some t0 → t0 + 2000000 ≤ s.ns →
    exec (.clusterRemovalTimeout cluster) s = .next ((tasksOn s cluster).foldl (fun s r =>
      if r.2.state = .running then beginStop s r.1 .aborted
      else if r.2.state = .ahead then squash s r.1 .blocked else s) s)) ∧
  (∀ (cluster t0 : Nat) (s : State), (clusterOf s cluster).scrub = some t0 → (clusterOf s cluster).removing.isSome = true →
    ∃ u, exec (.clusterScrubComplete cluster) s = .next (progress (refreshClusters u)) ∧ (clusterOf u cluster).store = [] ∧
      (clusterOf u cluster).partition = none ∧ (clusterOf u cluster).scrub = none ∧
      (∀ l < 16, (coreOf u (16 * cluster + l)).store = [] ∧ (coreOf u (16 * cluster + l)).xregs = [] ∧ (coreOf u (16 * cluster + l)).acc = [])) ∧
  (∀ (cluster t0 : Nat) (s : State), (clusterOf s cluster).scrub = some t0 → (clusterOf s cluster).removing = none →
    exec (.clusterScrubComplete cluster) s = .next (progress (refreshClusters (zeroCluster s cluster))))

/-- SQ_TAIL_DOORBELL and CQ_HEAD_DOORBELL of a valid queue that the hub serves take the value; where the queue is not cached and
every cache entry is pinned the doorbell is kept instead; an invalid queue number or an index outside the ring is dropped, with no
queue changed (R166 to R168). Completes (exec answers a next state): SQ_TAIL_DOORBELL, CQ_HEAD_DOORBELL. -/
def Obligations.DoorbellsMoveRingIndices : Prop :=
  (∀ (queue value : Nat) (s : State), hubServes s queue = true → queue < 16384 → (queueOf s queue).valid = true →
    value < 2 ^ (queueOf s queue).sqLog2 → doorbellDead s queue = false →
    (queue = 0 ∨ (queueOf s queue).cached = true ∨ (loadQueue s queue).1 = true →
      ∃ t, exec (.sqTailDoorbell queue value) s = .next t ∧ (queueOf t queue).sqTail = value ∧
        (queueOf t queue).sqHead = (queueOf s queue).sqHead ∧ (queueOf t queue).cqHead = (queueOf s queue).cqHead ∧
        (∀ q, q ≠ queue → queueOf t q = queueOf s q ∨ queueOf t q = { queueOf s q with cached := false }) ∧ t.mem = s.mem ∧ t.sp = s.sp) ∧
    (queue ≠ 0 → (queueOf s queue).cached = false → (loadQueue s queue).1 = false →
      ∃ t, exec (.sqTailDoorbell queue value) s = .next t ∧ queueOf t queue = { queueOf s queue with waiting := some value } ∧
        (∀ q, q ≠ queue → queueOf t q = queueOf s q) ∧ t.mem = s.mem ∧ t.sp = s.sp)) ∧
  (∀ (queue value : Nat) (s : State), hubServes s queue = true → queue < 16384 → (queueOf s queue).valid = true →
    value < 2 ^ (queueOf s queue).cqLog2 →
    (value + 2 ^ (queueOf s queue).cqLog2 - (queueOf s queue).cqHead) % 2 ^ (queueOf s queue).cqLog2 ≤
      ((queueOf s queue).cqTail + 2 ^ (queueOf s queue).cqLog2 - (queueOf s queue).cqHead) % 2 ^ (queueOf s queue).cqLog2 →
    doorbellDead s queue = false →
    (queue = 0 ∨ (queueOf s queue).cached = true ∨ (loadQueue s queue).1 = true →
      ∃ t, exec (.cqHeadDoorbell queue value) s = .next t ∧ (queueOf t queue).cqHead = value ∧
        (queueOf t queue).sqTail = (queueOf s queue).sqTail ∧ (∀ q, q ≠ queue →
          (queueOf t q).cqHead = (queueOf s q).cqHead ∧ (queueOf t q).sqTail = (queueOf s q).sqTail) ∧ t.mem = s.mem ∧ t.sp = s.sp) ∧
    (queue ≠ 0 → (queueOf s queue).cached = false → (loadQueue s queue).1 = false →
      ∃ t, exec (.cqHeadDoorbell queue value) s = .next t ∧ queueOf t queue = { queueOf s queue with waitingCq := some value } ∧
        (∀ q, q ≠ queue → queueOf t q = queueOf s q) ∧ t.mem = s.mem ∧ t.sp = s.sp)) ∧
  (∀ (queue value : Nat) (s : State), hubServes s queue = true → queue < 16384 →
    ((queueOf s queue).valid = false ∨ 2 ^ (queueOf s queue).sqLog2 ≤ value) →
    ∃ t, exec (.sqTailDoorbell queue value) s = .next t ∧ t.queues = s.queues ∧ t.mem = s.mem)

/-- SUBMISSION_FETCH, COMMAND_COMPLETION: a fetch takes the entry at the head, advances the head by one modulo the ring and runs
the command, and a defective header completes with DESC_INVALID, a PLAN_SUBMIT then with INFO0 0xFFFFFFFF; a finished command's
32-byte entry is written at the CQ tail, the tail advances, and the phase bit flips when it wraps (R169 to R171). A COPY ends with
its completion, which waits while the hub's accesses wait: a body that fails its tag moves no byte and completes with TAG_MISMATCH
(R174, R363). Completes (exec answers a next state): SUBMISSION_FETCH, COMMAND_COMPLETION. -/
def Obligations.QueuesFetchAndComplete : Prop :=
  (∀ (queue : Nat) (entry : Bytes) (body : Option Body) (s : State), mayFetch s queue = true → queue ≠ 0 →
    (queueOf s queue).abortAs = none → headerOk queue entry = true →
    ∃ u, exec (.submissionFetch queue entry body false) s = .next (progress (dataCommand u queue entry body false)) ∧
      u = { s with queues := u.queues } ∧ (queueOf u queue).sqHead = ((queueOf s queue).sqHead + 1) % 2 ^ (queueOf s queue).sqLog2 ∧
      (queueOf u queue).running = some (freshRunning s entry) ∧ ∀ q, q ≠ queue → queueOf u q = queueOf s q) ∧
  (∀ (queue : Nat) (entry : Bytes) (body : Option Body) (s : State), mayFetch s queue = true → (queueOf s queue).abortAs = none →
    headerOk queue entry = false →
    ∃ u, exec (.submissionFetch queue entry body false) s = .next (progress u) ∧ u = { s with queues := u.queues } ∧
      (∃ r, (queueOf u queue).running = some r ∧ r.status = some .descInvalid ∧
        r.info0 = if opcodeOf entry = 1 then 0xFFFFFFFF else 0)) ∧
  (∀ (queue : Nat) (r : Running) (s : State), queue ≠ mgmtQueue → queue ≠ 0 → (queueOf s queue).running = some r → r.status = some .ok →
    r.use = none → (queueOf s queue).msixEn = false →
    ∃ u, exec (.commandCompletion queue) s = .next (progress (markPinned (serveWaiting u))) ∧
      (queueOf u queue).running = none ∧ (queueOf u queue).cqTail = ((queueOf s queue).cqTail + 1) % 2 ^ (queueOf s queue).cqLog2 ∧
      (queueOf u queue).phase = (if ((queueOf s queue).cqTail + 1) % 2 ^ (queueOf s queue).cqLog2 = 0
        then !(queueOf s queue).phase else (queueOf s queue).phase) ∧
      u.regs.hostMem = (hostWrite s ((queueOf s queue).cqBase + 32 * (queueOf s queue).cqTail)
        (completionBytes queue (queueOf s queue) r .ok)).regs.hostMem) ∧
  (∀ (queue : Nat) (r : Running) (u : CopyUse) (s : State), (queueOf s queue).running = some r → r.use = some u → r.status = none →
    ((dieWaits s hubDie = true ∨ s.pow.dustSheet = true) → exec (.commandCompletion queue) s = .next s) ∧
    (dieWaits s hubDie = false → s.pow.dustSheet = false → opcodeOf r.entry = 2 → u.tagOk = false →
      ∃ w, (queueOf (copyFinish s queue) queue).running = some w ∧ w.status = some .tagMismatch ∧ w.use = none ∧
        (copyFinish s queue).mem = s.mem ∧ exec (.commandCompletion queue) s = exec (.commandCompletion queue) (copyFinish s queue)))

/-- PRIME_BITS_SET, UNMAP_ACCESS_TIMEOUT, QUEUE_DESTROY_TIMEOUT: a PRIME with no fill left in its range primes its granules and
ends with OK; an UNMAP with no access left in flight ends with OK; a queue whose destroy has waited 2 ms is stopped with ABORTED
(R207, R203, R172). Completes (exec answers a next state): PRIME_BITS_SET, UNMAP_ACCESS_TIMEOUT, QUEUE_DESTROY_TIMEOUT. -/
def Obligations.WaitingHostCommandsEnd : Prop :=
  (∀ (queue : Nat) (r : Running) (s : State), (queueOf s queue).running = some r → r.status = none → queue ≠ 0 → opcodeOf r.entry = 0x06 →
    r.granules.any (fun g => match tlook s.mem.granules g with | some x => x.filling | none => false) = false → s.pow.dustSheet = false →
    exec (.primeBitsSet queue) s = .next (progress (doneAt (r.granules.foldl primeGranule s) queue .ok none 0))) ∧
  (∀ (queue : Nat) (r : Running) (s : State), (queueOf s queue).running = some r → r.status = none → queue ≠ 0 → opcodeOf r.entry = 0x08 →
    s.mem.outstanding.filter (fun o => o.1 == queue) = [] →
    ∃ u, exec (.unmapAccessTimeout queue) s = .next (progress (doneAt u queue .ok none 0)) ∧ u.mem.bytes = s.mem.bytes ∧
      u.queues = s.queues ∧ u.mem.answer = s.mem.answer) ∧
  (∀ (queue : Nat) (r : Running) (s : State), (queueOf s 0).running = some r → opcodeOf r.entry = 0x51 → r.waitFor = [queue] →
    r.status = none → r.since + 2000000 ≤ s.ns →
    exec (.queueDestroyTimeout queue) s = .next (progress (stopQueue s queue .aborted)))

/-- LINE_READ of a line that a request reaches (R192, Table 8.3): a key context that does not serve it gives its status; a primed
granule answers zeros with OK; a poisoned line answers zeros with TAG_MISMATCH; a clean line written under the request's key and
its generation answers its bytes with OK, and so does one with a single wrong symbol, which is corrected and counted; a line of
HBM with more wrong symbols than can be corrected, or whose tag fails, answers zeros with TAG_MISMATCH and is poisoned; a clean
line written otherwise whose 28-bit TAG the request's key happens to meet (R220) answers what that key makes of its ciphertext.
The first, second and third change nothing but the answer; of these none changes a stored byte, and no read changes one outside
its line. Completes (exec answers a next state): LINE_READ. -/
def Obligations.LineReadsAnswerAndKeepBytes : Prop :=
  (∀ (r : MemReq) (r1 r2 : RawRead) (s : State), memServes s r → memKeyCheck s r.ctx r.key ≠ .ok →
    exec (.lineRead r r1 r2) s = .next { s with mem := { s.mem with
      answer := some (memKeyCheck s r.ctx r.key, slice zeroLine (r.addr % 64) r.len) } }) ∧
  (∀ (r : MemReq) (r1 r2 : RawRead) (s : State), memServes s r → memKeyCheck s r.ctx r.key = .ok → isPrimed s (lineBase r.addr) = true →
    exec (.lineRead r r1 r2) s = .next { s with mem := { s.mem with answer := some (.ok, List.replicate r.len 0) } }) ∧
  (∀ (r : MemReq) (r1 r2 : RawRead) (s : State), memServes s r → memKeyCheck s r.ctx r.key = .ok → isPrimed s (lineBase r.addr) = false →
    (lineInfo s (lineBase r.addr)).poison = false → (lineInfo s (lineBase r.addr)).key = r.key →
    (lineInfo s (lineBase r.addr)).gen = assignedGen s r.key (lineBase r.addr) →
    (decodeRaw (isCap (lineBase r.addr)) r1 = .clean → exec (.lineRead r r1 r2) s = .next { s with mem := { s.mem with
      answer := some (.ok, slice (lineBytes s (lineBase r.addr)) (r.addr % 64) r.len) } }) ∧
    (decodeRaw (isCap (lineBase r.addr)) r1 = .oneSymbol → ∃ t, exec (.lineRead r r1 r2) s = .next t ∧
      t.mem.answer = some (.ok, slice (lineBytes s (lineBase r.addr)) (r.addr % 64) r.len) ∧ t.mem.bytes = s.mem.bytes ∧
      t.mem.lines = s.mem.lines ∧ (ctlOf t (ctlNo (lineBase r.addr))).corr = satAdd 32 (ctlOf s (ctlNo (lineBase r.addr))).corr 1)) ∧
  (∀ (r : MemReq) (r1 r2 : RawRead) (s : State), memServes s r → memKeyCheck s r.ctx r.key = .ok → isPrimed s (lineBase r.addr) = false →
    seenPoison s (lineBase r.addr) r1 = true →
    ∃ t, exec (.lineRead r r1 r2) s = .next t ∧ t.mem.answer = some (.tagMismatch, List.replicate r.len 0) ∧
      t.mem.bytes = s.mem.bytes ∧ t.mem.lines = s.mem.lines) ∧
  (∀ (r : MemReq) (r1 r2 : RawRead) (s : State), memServes s r → memKeyCheck s r.ctx r.key = .ok → isPrimed s (lineBase r.addr) = false →
    seenPoison s (lineBase r.addr) r1 = false → isCap (lineBase r.addr) = false →
    (decodeRaw false r1 = .manySymbols ∨ rawPasses s (lineBase r.addr) r.key r1 = false) →
    ∃ t, exec (.lineRead r r1 r2) s = .next t ∧ t.mem.answer = some (.tagMismatch, List.replicate r.len 0) ∧
      t.mem.bytes = s.mem.bytes ∧ (lineInfo t (lineBase r.addr)).poison = true) ∧
  (∀ (r : MemReq) (r1 r2 : RawRead) (s : State), memServes s r → memKeyCheck s r.ctx r.key = .ok → isPrimed s (lineBase r.addr) = false →
    decodeRaw (isCap (lineBase r.addr)) r1 = .clean → (lineInfo s (lineBase r.addr)).poison = false →
    ((lineInfo s (lineBase r.addr)).key ≠ r.key ∨ (lineInfo s (lineBase r.addr)).gen ≠ assignedGen s r.key (lineBase r.addr)) →
    tagHolds s (lineBase r.addr) r.key (lineInfo s (lineBase r.addr)) = true →
    let g := assignedGen s r.key (lineBase r.addr)
    ∃ t, exec (.lineRead r r1 r2) s = .next t ∧ t.mem.bytes = s.mem.bytes ∧ t.mem.answer = some (.ok,
      slice (openLine (rootKey s r.key g) (lineBase r.addr) r.key g (lineInfo s (lineBase r.addr)).cipher) (r.addr % 64) r.len)) ∧
  (∀ (r : MemReq) (r1 r2 : RawRead) (s : State), memServes s r → ∃ t, exec (.lineRead r r1 r2) s = .next t ∧
    ∀ a, a < lineBase r.addr ∨ lineBase r.addr + 64 ≤ a → memByte t a = memByte s a)

/-- LINE_WRITE of a whole line under the key of its granule, within the budgets: OK; the line reads back what was written, stands
sealed under the generation that the key context assigns to it, and its poison is cleared; every other byte of memory, the cores
and the host queues are unchanged (R193, R221). A write under a key that is not the granule's changes nothing but the answer,
POLICY_DENIED. Completes (exec answers a next state): LINE_WRITE. -/
def Obligations.LineWritesStoreOneLine : Prop :=
  (∀ (r : MemReq) (data : Bytes) (r1 r2 : RawRead) (g : Granule) (s : State), memServes s r → r.len = 64 → data.length = 64 →
    memKeyCheck s r.ctx r.key = .ok → (keyOf s r.key).cls ≠ 1 → tlook s.mem.granules (granOf r.addr) = some g → g.key = r.key →
    (let c := if assignedGen s r.key r.addr = (keyOf s r.key).gen then 1 else 0
     budgetOk s r.key c (1 - c) = true) →
    ∃ t, exec (.lineWrite r data r1 r2) s = .next t ∧ t.mem.answer = some (.ok, []) ∧
      (∀ i < 64, memByte t (r.addr + i) = byteAt data i) ∧
      (∀ a, a < r.addr ∨ r.addr + 64 ≤ a → memByte t a = memByte s a) ∧
      lineInfo t r.addr = sealedLine s r.key (assignedGen s r.key r.addr) r.addr data ∧
      (lineInfo t r.addr).poison = false ∧ (lineInfo t r.addr).key = r.key ∧ t.cores = s.cores ∧ t.queues = s.queues ∧ t.plans = s.plans ∧ t.fab = s.fab) ∧
  (∀ (r : MemReq) (data : Bytes) (r1 r2 : RawRead) (g : Granule) (s : State), memServes s r → data.length = r.len →
    memKeyCheck s r.ctx r.key = .ok → tlook s.mem.granules (granOf r.addr) = some g → g.key ≠ r.key →
    exec (.lineWrite r data r1 r2) s = .next { s with mem := { s.mem with answer := some (.policyDenied, []) } })

/-- The first write to a primed granule starts its zero-fill and waits; ZERO_FILL_COMPLETE ends the fill: the granule takes the
key, every line of it is sealed zeros under the generation assigned to it then, and the waiting requests run in arrival order,
first the write that started it (R208, R209, R226). PATROL_SCRUB_READ and MEMORY_REFRESH: whatever the scrub finds, it moves its
controller's patrol position and at most corrects one symbol, with no stored byte, line or granule changed; a refresh of an awake
controller counts the requests it delays, there and as memory timing exceptions (R195, R196, R403). Completes (exec answers a next
state): LINE_WRITE, ZERO_FILL_COMPLETE, PATROL_SCRUB_READ, MEMORY_REFRESH. -/
def Obligations.FillsScrubsAndRefreshesKeepMemory : Prop :=
  ((∀ (r : MemReq) (data : Bytes) (r1 r2 : RawRead) (s : State), memServes s r → data.length = r.len → memKeyCheck s r.ctx r.key = .ok →
    (keyOf s r.key).cls ≠ 1 → isPrimed s r.addr = true → (reserveFill s r.key (lineBase r.addr)).isSome = true →
    ∃ t g, exec (.lineWrite r data r1 r2) s = .next t ∧ tlook t.mem.granules (granOf r.addr) = some g ∧ g.filling = true ∧
      g.key = r.key ∧ g.waiting = [⟨r, data, r1, r2⟩] ∧ t.mem.bytes = s.mem.bytes ∧ t.mem.answer = s.mem.answer) ∧
  (∀ (g : Nat) (e : Granule) (s : State), tlook s.mem.granules g = some e → e.filling = true →
    let u := countFill (fillGranule s e.key g) e.trigger
    exec (.zeroFillComplete g) s = .next (match e.waiting with
      | [] => u
      | q :: l => l.foldl (landHeld false) (landHeld true u q)) ∧
    u = { s with mem := u.mem } ∧ u.mem.bytes = s.mem.bytes ∧ (∀ h, h ≠ g → tlook u.mem.granules h = tlook s.mem.granules h) ∧
    (∃ x, tlook u.mem.granules g = some x ∧ x.key = e.key ∧ x.filling = false ∧ x.waiting = []) ∧
    (∀ a ∈ granLines g, granOf a = g → lineInfo u a = sealedLine s e.key (assignedGen s e.key a) a zeroLine) ∧
    (∀ a, granOf a ≠ g → a ∉ granLines g → tlook u.mem.lines a = tlook s.mem.lines a))) ∧
  ((∀ (a : Nat) (raw : RawRead) (s : State), isMem a = true → dtActive s = false → s.pow.dustSheet = false → sealedAt s a = false →
    ∃ t, exec (.patrolScrubRead a raw) s = .next t ∧ t.mem.bytes = s.mem.bytes ∧ t.mem.lines = s.mem.lines ∧
      t.mem.granules = s.mem.granules ∧ t.sp = s.sp ∧ t.cores = s.cores ∧
      (ctlOf t (ctlNo (lineBase a))).patrolAt = (if localLine (lineBase a) + 1 = ctlLines (ctlNo (lineBase a)) then 0
        else localLine (lineBase a) + 1) ∧
      (decodeMeta (isCap (lineBase a)) raw ≠ .oneSymbol → (ctlOf t (ctlNo (lineBase a))).corr = (ctlOf s (ctlNo (lineBase a))).corr)) ∧
  (∀ (ctl bank n : Nat) (s : State), (ctl < 8 ∨ 16 ≤ ctl ∧ ctl < 24) → (ctlOf s ctl).selfRefresh = false → (domOf s (ctlDomain ctl)).state = .on →
    ∃ t, exec (.memoryRefresh ctl bank n) s = .next t ∧ t.mem.bytes = s.mem.bytes ∧ t.mem.lines = s.mem.lines ∧
      (ctlOf t ctl).refreshes = satAdd 32 (ctlOf s ctl).refreshes n ∧ t.pow.memExc = satAdd 16 s.pow.memExc n ∧
      ∀ c, c ≠ ctl → ctlOf t c = ctlOf s c))

/-- SANDING_RETRY, 1 ms after the last attempt, starts a deferred pass: with a free slot and a working DRBG the context goes to
SANDING under the next generation with a new key, its old slot kept. SANDING_LINE_STEP moves the pass past the next line, whose
bytes stay and which is sealed under the new generation; of its two slots those that it takes ahead of a waiting request are
timing exceptions (R403): both where one waits at the controller, else at most two; a line whose write would pass the budget is
not taken; with no line left on a controller its pointer stands at the end (R222 to R225). Completes (exec answers a next state):
SANDING_RETRY, SANDING_LINE_STEP. -/
def Obligations.SandingPassRekeysLines : Prop :=
  (∀ (key slot since : Nat) (s : State), (keyOf s key).deferred = some since → since + 1000000 ≤ s.ns → (keyOf s key).state = .active → memClass (keyOf s key) = true →
    freeSlot s = some slot → drbgOk s = true →
    ∃ t, exec (.sandingRetry key) s = .next t ∧ (keyOf t key).state = .sanding ∧ (keyOf t key).gen = (keyOf s key).gen + 1 ∧
      (keyOf t key).slotOld = (keyOf s key).slotCur ∧ (keyOf t key).slotCur = slot ∧ (keyOf t key).wCur = 0 ∧
      (keyOf t key).wOld = (keyOf s key).wCur ∧ (keyOf t key).deferred = none ∧ t.mem = s.mem ∧
      ∀ k, k ≠ key → keyOf t k = keyOf s k) ∧
  (∀ (key ctl n : Nat) (r1 r2 : RawRead) (s : State), (keyOf s key).state = .sanding → budgetOk s key 1 0 = true → passCtls.contains ctl = true →
    tget 0 (keyOf s key).sweep (sweepNo ctl) < ctlLines ctl → s.pow.dustSheet = false → (domOf s (ctlDomain ctl)).state = .on →
    nextSanded s key ctl (tget 0 (keyOf s key).sweep (sweepNo ctl)) = some n → isPrimed s (lineAt ctl n) = false → key ≠ 0 →
    memKeyCheck s 4096 key = .ok → decodeRaw (isCap (lineAt ctl n)) r1 = .clean → (lineInfo s (lineAt ctl n)).poison = false → (lineInfo s (lineAt ctl n)).key = key →
    (lineInfo s (lineAt ctl n)).gen + 1 = (keyOf s key).gen → localLine (lineAt ctl n) = n → ctlNo (lineAt ctl n) = ctl →
    ∃ u, exec (.sandingLineStep key ctl r1 r2) s = .next (finishSanding u key) ∧ u.mem.bytes = s.mem.bytes ∧
      lineInfo u (lineAt ctl n) = sealedLine s key (keyOf s key).gen (lineAt ctl n) (lineBytes s (lineAt ctl n)) ∧
      u.pow.memExc = satAdd 16 s.pow.memExc (slotsAhead s ctl).1 ∧ (keyOf u key).wCur = (keyOf s key).wCur + 1 ∧ tget 0 (keyOf u key).sweep (sweepNo ctl) = n + 1) ∧
  (∀ (ctl : Nat) (s : State), (slotsAhead s ctl).1 ≤ 2 ∧ (waitsAt s ctl = true → (slotsAhead s ctl).1 = 2)) ∧
  (∀ (key ctl : Nat) (r1 r2 : RawRead) (s : State), budgetOk s key 1 0 = false → exec (.sandingLineStep key ctl r1 r2) s = .next s) ∧
  (∀ (key ctl : Nat) (r1 r2 : RawRead) (s : State), (keyOf s key).state = .sanding → budgetOk s key 1 0 = true → passCtls.contains ctl = true →
    tget 0 (keyOf s key).sweep (sweepNo ctl) < ctlLines ctl → s.pow.dustSheet = false → (domOf s (ctlDomain ctl)).state = .on →
    nextSanded s key ctl (tget 0 (keyOf s key).sweep (sweepNo ctl)) = none →
    exec (.sandingLineStep key ctl r1 r2) s = .next (finishSanding (setKey s key { keyOf s key with
      sweep := tins (keyOf s key).sweep (sweepNo ctl) (ctlLines ctl) }) key))

/-- D2D_FRAME_SEND, D2D_FRAME_RECEIVE, LINK_KEY_INSTALL, LINK_KEY_TIMEOUT, D2D_LINK_TRAINING_COMPLETE: a frame takes the next
counter of the active phase and crosses as a clear header of 8 bytes, the payload's ciphertext and its tag under the phase's key;
at 2^36 the link switches to its fresh idle phase with the counter from 0, or holds the frame; a frame that waits for a training
or a hold stays in its order; a frame that fails its tag is sent again under a new counter, and the eighth in a row retrains the
link; an idle phase without a key takes a fresh one; a hold of 10 ms takes the link down; a successful training brings it up, a
third failed one leaves it down, and what waited for the link is then let go (R12, R13, R229). What GCM seals, GCM opens, with a
ciphertext as long as the plaintext (R228). Completes (exec answers a next state): D2D_FRAME_SEND, D2D_FRAME_RECEIVE,
LINK_KEY_INSTALL, LINK_KEY_TIMEOUT, D2D_LINK_TRAINING_COMPLETE. -/
def Obligations.DieToDieLinksKeyAndRetrain : Prop :=
  (∀ (link dir : Nat) (b : Bytes) (s : State), link < 8 → dir < 2 → b.length ≤ 256 → (d2dOf s link).state = .up →
    (linkDir s link dir).heldAt = none → bit (linkDir s link dir).keys (linkDir s link dir).phase = true →
    let v := linkDir s link dir
    ∃ t, exec (.d2dFrameSend link dir b) s = .next t ∧ t = { s with fresh := t.fresh, fab := { s.fab with d2d := t.fab.d2d } } ∧
      (∀ l, l ≠ link → d2dOf t l = d2dOf s l) ∧ (∀ d, d ≠ dir → linkDir t link d = linkDir s link d) ∧
      (tget 0 v.ctr v.phase < 2 ^ 36 → (linkDir t link dir).phase = v.phase ∧
        tget 0 (linkDir t link dir).ctr v.phase = tget 0 v.ctr v.phase + 1 ∧
        ∃ h, h.length = 8 ∧ (linkDir t link dir).wire =
          h ++ (gcm (slotKey (slotOf s (linkSlot link dir v.phase))) (d2dIv link dir v.phase (tget 0 v.ctr v.phase)) h b).1
            ++ (gcm (slotKey (slotOf s (linkSlot link dir v.phase))) (d2dIv link dir v.phase (tget 0 v.ctr v.phase)) h b).2) ∧
      (2 ^ 36 ≤ tget 0 v.ctr v.phase → bit v.fresh (1 - v.phase) = true → (linkDir t link dir).phase = 1 - v.phase ∧
        tget 0 (linkDir t link dir).ctr (1 - v.phase) = 1) ∧
      (2 ^ 36 ≤ tget 0 v.ctr v.phase → bit v.fresh (1 - v.phase) = false → (linkDir t link dir).heldAt = some s.ns ∧
        (linkDir t link dir).held = v.held ++ [b])) ∧
  (∀ (link dir : Nat) (b : Bytes) (s : State), link < 8 → dir < 2 → b.length ≤ 256 →
    ((d2dOf s link).state = .training ∨ (d2dOf s link).state = .up ∧ (linkDir s link dir).heldAt.isSome = true) →
    ∃ t, exec (.d2dFrameSend link dir b) s = .next t ∧ t = { s with fab := { s.fab with d2d := t.fab.d2d } } ∧
      linkDir t link dir = { linkDir s link dir with held := (linkDir s link dir).held ++ [b] }) ∧
  (∀ (key : BitVec 256) (iv aad plain : Bytes), (gcm key iv aad plain).1.length = plain.length ∧ (gcm key iv aad plain).2.length = 16 ∧
    gcmOpen key iv aad (gcm key iv aad plain).1 (gcm key iv aad plain).2 = some plain) ∧
  (∀ (link dir : Nat) (s : State), link < 8 → dir < 2 → (d2dOf s link).state = .up →
    ∃ t, exec (.d2dFrameReceive link dir true) s = .next t ∧ t = { s with fab := { s.fab with d2d := t.fab.d2d } } ∧
      linkDir t link dir = { linkDir s link dir with fails := 0 }) ∧
  (∀ (link dir : Nat) (s : State), link < 8 → dir < 2 → (d2dOf s link).state = .up → (linkDir s link dir).fails = 7 →
    ∃ t, exec (.d2dFrameReceive link dir false) s = .next t ∧ (d2dOf t link).state = .training ∧
      (d2dOf t link).replays = satAdd 32 (d2dOf s link).replays 1 ∧ (d2dOf t link).retrains = satAdd 32 (d2dOf s link).retrains 1 ∧
      t.mem = s.mem ∧ t.sp.slots = s.sp.slots) ∧
  (∀ (link dir : Nat) (s : State), link < 8 → dir < 2 → drbgOk s = true → (linkDir s link dir).phase < 2 →
    bit (linkDir s link dir).keys (linkDir s link dir).phase = true → bit (linkDir s link dir).keys (1 - (linkDir s link dir).phase) = false →
    (linkDir s link dir).heldAt = none →
    ∃ t, exec (.linkKeyInstall link dir) s = .next t ∧ bit (linkDir t link dir).keys (1 - (linkDir s link dir).phase) = true ∧
      tget 0 (linkDir t link dir).ctr (1 - (linkDir s link dir).phase) = 0 ∧ (linkDir t link dir).phase = (linkDir s link dir).phase ∧
      (slotOf t (linkSlot link dir (1 - (linkDir s link dir).phase))).state = .loaded ∧ t.mem = s.mem) ∧
  (∀ (link dir t0 : Nat) (s : State), (linkDir s link dir).heldAt = some t0 → t0 + 10000000 ≤ s.ns →
    exec (.linkKeyTimeout link dir) s = .next (releaseLink (dropLink s link)) ∧ (d2dOf (dropLink s link) link).state = .down ∧
      ∀ l, l ≠ link → d2dOf (dropLink s link) l = d2dOf s l) ∧
  (∀ (link : Nat) (s : State), (d2dOf s link).state = .training →
    (∃ u, exec (.d2dLinkTrainingComplete link true) s = .next (releaseLink u) ∧ (d2dOf u link).state = .up ∧ (d2dOf u link).trains = 0 ∧
      u.mem = s.mem ∧ u.sp.slots = s.sp.slots) ∧
    (2 ≤ (d2dOf s link).trains → exec (.d2dLinkTrainingComplete link false) s = .next (releaseLink (dropLink s link))) ∧
    ((d2dOf s link).trains < 2 → exec (.d2dLinkTrainingComplete link false) s =
      .next (setD2d s link { d2dOf s link with trains := (d2dOf s link).trains + 1 })))

/-- PORT_TRAINING_COMPLETE, LINK_FRAME_RECEIVE, LINK_NAK_RECEIVE, LINK_ACK_RECEIVE: a trained port is UP and replays every
unacknowledged frame, a third failure in a row makes it FAILED; a good frame in sequence advances the receive sequence, a frame
that fails its CRC is counted and NAKed and advances nothing; a NAK replays the frame, the eighth time with a retrain; an
acknowledgement frees the frames up to its own and returns credits, with which waiting frames go (R238, R239, Table 10.2). Of the
waiting frames that have credits, one of VC4 goes first, then one of VC3, and then, at a module withdrawn from its lanes, one of
VC2; a packet is queued at a port sealed under its key (R230, R256, R269). Completes (exec answers a next state):
PORT_TRAINING_COMPLETE, LINK_FRAME_RECEIVE, LINK_NAK_RECEIVE, LINK_ACK_RECEIVE. -/
def Obligations.LathPortsTrainReplayAndAcknowledge : Prop :=
  (∀ (port : Nat) (s : State), (portOf s port).state = .training →
    ∃ u, exec (.portTrainingComplete port true) s = .next (pumpEverything u) ∧ (portOf u port).state = .up ∧ (portOf u port).fails = 0 ∧
      (portOf u port).replay = satAdd 32 (portOf s port).replay (portOf s port).retry.length ∧
      u.mem = s.mem ∧ ∀ p, p ≠ port → portOf u p = portOf s p) ∧
  (∀ (port : Nat) (s : State), (portOf s port).state = .training → (portOf s port).fails = 2 →
    ∃ t, exec (.portTrainingComplete port false) s = .next t ∧ (portOf t port).state = .failed ∧ (portOf t port).retry = [] ∧
      t.mem = s.mem ∧ ∀ p, p ≠ port → portOf t p = portOf s p) ∧
  (∀ (port : Nat) (fixed : Bool) (s : State), (portOf s port).state = .up →
    ∃ t, exec (.linkFrameReceive port (portOf s port).rxSeq true fixed true true) s = .next t ∧
      t = { s with fab := { s.fab with ports := t.fab.ports } } ∧ (∀ p, p ≠ port → portOf t p = portOf s p) ∧
      portOf t port = { portOf s port with
        rxSeq := ((portOf s port).rxSeq + 1) % 4096
        fecCorr := if fixed then satAdd 32 (portOf s port).fecCorr 1 else (portOf s port).fecCorr }) ∧
  (∀ (port seq : Nat) (tag : Bool) (s : State), (portOf s port).state = .up →
    ∃ t, exec (.linkFrameReceive port seq true false false tag) s = .next t ∧
      portOf t port = { portOf s port with crc := satAdd 32 (portOf s port).crc 1, naks := (portOf s port).naks + 1 } ∧
      t.pow.linkExc = satAdd 16 s.pow.linkExc 1 ∧ t.mem = s.mem) ∧
  (∀ (port seq : Nat) (f : Frame) (s : State), (portOf s port).state = .up → (portOf s port).retry.find? (fun f => f.seq == seq) = some f →
    ∃ t, exec (.linkNakReceive port seq) s = .next t ∧ (portOf t port).replay = satAdd 32 (portOf s port).replay 1 ∧
      (portOf t port).state = (if f.replays < 7 then .up else .training) ∧ t.mem = s.mem ∧ ∀ p, p ≠ port → portOf t p = portOf s p) ∧
  (∀ (port i : Nat) (f : Frame) (credits : List Nat) (s : State), (portOf s port).state = .up → (portOf s port).retry[i]? = some f →
    (∀ j < i, ((portOf s port).retry[j]?).map (·.seq) ≠ some f.seq) →
    ∃ t, exec (.linkAckReceive port f.seq credits) s = .next (pumpPort t port) ∧ (portOf t port).retry = (portOf s port).retry.drop (i + 1) ∧
      (∀ vc < 5, tget 0 (portOf t port).credits vc = tget 0 (portOf s port).credits vc - nth credits vc) ∧
      (portOf t port).waiting = (portOf s port).waiting ∧
      t = { s with fab := { s.fab with ports := t.fab.ports } } ∧ ∀ p, p ≠ port → portOf t p = portOf s p) ∧
  (∀ (w : Bool) (v : Port) (f : Frame),
    (headOf v 4 = some f → arbitrate w v = (some f, v)) ∧
    (headOf v 4 = none → headOf v 3 = some f → arbitrate w v = (some f, v)) ∧
    (headOf v 4 = none → headOf v 3 = none → headOf v 2 = some f → arbitrate true v = (some f, v)) ∧
    ((∀ vc < 5, headOf v vc = none) → arbitrate w v = (none, v))) ∧
  (∀ (port : Nat) (p : Packet) (s : State), portUp s port = false →
    portOf (sendOn s port p) port = { portOf s port with waiting := (portOf s port).waiting ++ [sealPacket s p] } ∧
    gcmOpen (packetKey s p) (lathIv p.srcNode p.keyIdx p.dir p.ctr) (packetHeader p) (sealPacket s p).pkt.payload (sealPacket s p).tag =
      some p.payload)

/-- STORE, PUT, LOAD, GET, the two atomics, the two leases and the five COLL packets: a packet that the module receives, that
passes checks 1 to 6 (tag, key and header, counter, membership, epoch, record) and whose turn has come is executed and answered
(R253, R258, Table 10.7); one whose service needs memory waits in its receive buffer while a link trains or holds its frames, or a
memory domain drains (R229, R418). A COLL packet is first held against the receive slots of its group (R266). Completes (exec
answers a next state): STORE, PUT, LOAD, GET, FETCH_ADD, COMPARE_SWAP, LEASE_ACQUIRE, LEASE_RELEASE, REDUCE_DATA, BCAST_DATA,
CREDIT, HOLD, ABORT. -/
def Obligations.DuePacketsExecuteAndAnswer : Prop :=
  ∀ (rx : Rx) (u s : State), receiving s rx = true → turnOf (renewLoan u rx.pkt.srcNode) rx.pkt = .due →
    (rxCheck s rx = (.pass, u) → rx.pkt.op = 1 → needsMemory rx.pkt = true → dieWaits (renewLoan u rx.pkt.srcNode) hubDie = true →
      exec (.store rx) s = .next (holdLink (renewLoan u rx.pkt.srcNode) rx)) ∧
    (rxCheck s rx = (.pass, u) → (needsMemory rx.pkt = false ∨ dieWaits (renewLoan u rx.pkt.srcNode) hubDie = false) →
      (rx.pkt.op = 1 → exec (.store rx) s = .next (dueServed u rx)) ∧ (rx.pkt.op = 2 → exec (.put rx) s = .next (dueServed u rx)) ∧
      (rx.pkt.op = 3 → exec (.load rx) s = .next (dueServed u rx)) ∧ (rx.pkt.op = 4 → exec (.get rx) s = .next (dueServed u rx)) ∧
      (rx.pkt.op = 5 → rx.pkt.asub = 0 → exec (.fetchAdd rx) s = .next (dueServed u rx)) ∧
      (rx.pkt.op = 5 → rx.pkt.asub = 1 → exec (.compareSwap rx) s = .next (dueServed u rx)) ∧
      (rx.pkt.op = 5 → rx.pkt.asub = 2 → exec (.leaseAcquire rx) s = .next (dueServed u rx)) ∧
      (rx.pkt.op = 5 → rx.pkt.asub = 3 → exec (.leaseRelease rx) s = .next (dueServed u rx))) ∧
    (rxCheck (slipCheck s rx) rx = (.pass, u) → rx.pkt.op = 8 →
      (needsMemory rx.pkt = false ∨ dieWaits (renewLoan u rx.pkt.srcNode) hubDie = false) →
      (rx.pkt.asub = 0 → exec (.reduceData rx) s = .next (dueServed u rx)) ∧ (rx.pkt.asub = 1 → exec (.bcastData rx) s = .next (dueServed u rx)) ∧
      (rx.pkt.asub = 2 → exec (.credit rx) s = .next (dueServed u rx)) ∧ (rx.pkt.asub = 3 → exec (.hold rx) s = .next (dueServed u rx)) ∧
      (rx.pkt.asub = 4 → exec (.abort rx) s = .next (dueServed u rx)))

/-- What an executed request does at its window (checks 7 to 10, Table 10.5, R249, R260): a STORE or PUT writes its payload, and
an ARRIVE packet then adds 1 to the window's arrival counter; a LOAD or GET reads; fetch-add answers the old word and writes the
sum modulo 2^64; compare-swap writes only over the word compared with; a request outside its window is answered WINDOW_DENIED,
with nothing changed. -/
def Obligations.RequestsActOnTheirWindow : Prop :=
  (∀ (p : Packet) (w : Window) (u s : State), p.window ≠ 4095 → p.op ≠ 8 → windowOk s p = some w → windowAccess s p w = .ok →
    ((p.op = 1 ∨ p.op = 2) → vwrite s w.context w.mkey (w.base + p.offset) p.payload false = (.ok, u) →
      ∃ b t, runRequest s p = (.ok, b, t) ∧ t.mem = u.mem ∧ t.cores = u.cores ∧
        (∀ a, p.arrive = true → w.arr = true → tlook u.fab.arrivals w.counter = some a →
          tlook t.fab.arrivals w.counter = some { a with value := a.value + 1 }) ∧
        (p.arrive = false → t.fab.arrivals = u.fab.arrivals)) ∧
    (∀ b, p.op = 4 → vread s w.context w.mkey (w.base + p.offset) (le p.payload 0 8) = (.ok, b, u) → runRequest s p = (.ok, b, u)) ∧
    (∀ b, p.op = 3 → vread s w.context w.mkey (w.base + p.offset / 64 * 64) (p.offset % 64 + 1) = (.ok, b, u) →
      runRequest s p = (.ok, b, u)) ∧
    (∀ old v, p.op = 5 → p.asub = 0 → p.len = 8 → p.offset % 8 = 0 → vread s w.context w.mkey (w.base + p.offset) 8 = (.ok, old, u) →
      vwrite u w.context w.mkey (w.base + p.offset) (leBytes 8 ((le old 0 8 + le p.payload 0 8) % 2 ^ 64)) false = (.ok, v) →
      runRequest s p = (.ok, old, v)) ∧
    (∀ old v, p.op = 5 → p.asub = 1 → p.len = 16 → p.offset % 8 = 0 → vread s w.context w.mkey (w.base + p.offset) 8 = (.ok, old, u) →
      (le old 0 8 ≠ le p.payload 8 8 → runRequest s p = (.ok, old, u)) ∧
      (le old 0 8 = le p.payload 8 8 →
        vwrite u w.context w.mkey (w.base + p.offset) (slice p.payload 0 8) false = (.ok, v) → runRequest s p = (.ok, old, v)))) ∧
  (∀ (p : Packet) (s : State), p.window ≠ 4095 → p.op ≠ 8 → windowOk s p = none → runRequest s p = (.windowDenied, [], s))

/-- Lease acquire and release (R251, Table 10.6): a word that is free, or whose expiry lies 10 us or more in the past, goes to the
source until now + DUR; its owner renews it; anyone else gets the word as it is, unchanged; a release by the owner clears it. -/
def Obligations.LeasesGoToFreeWordsAndOwners : Prop :=
  (∀ (now adm : Nat) (p : Packet) (old : Bytes), le p.payload 0 4 < 2 ^ 32 → old.length = 16 →
    ((le old 0 8 = 0 ∨ le old 0 8 + 10000 ≤ now) → ∃ b, leaseAcquireWord now adm p old = (some b, b) ∧ b.length = 16 ∧
      (now + le p.payload 0 4 < 2 ^ 64 → le b 0 8 = now + le p.payload 0 4) ∧ le b 8 2 = p.srcNode % 65536 ∧ le b 12 4 = p.epoch % 2 ^ 32) ∧
    (le old 0 8 ≠ 0 → now < le old 0 8 + 10000 → le old 8 2 = p.srcNode → adm ≤ le old 12 4 →
      ∃ b, leaseAcquireWord now adm p old = (some b, b) ∧ (now + le p.payload 0 4 < 2 ^ 64 → le b 0 8 = now + le p.payload 0 4) ∧
        slice b 8 8 = slice old 8 8) ∧
    (le old 0 8 ≠ 0 → now < le old 0 8 + 10000 → (le old 8 2 ≠ p.srcNode ∨ le old 12 4 < adm) →
      leaseAcquireWord now adm p old = (none, old)) ∧
    (le old 8 2 = p.srcNode → adm ≤ le old 12 4 → leaseReleaseWord adm p old = (some (List.replicate 16 0), List.replicate 16 0)) ∧
    ((le old 8 2 ≠ p.srcNode ∨ le old 12 4 < adm) → leaseReleaseWord adm p old = (none, old))) ∧
  (∀ (p : Packet) (w : Window) (old b r : Bytes) (u v s : State), p.window ≠ 4095 → p.op = 5 → p.asub = 2 → windowOk s p = some w →
    windowAccess s p w = .ok → p.len = 8 → 1000 ≤ le p.payload 0 4 → le p.payload 0 4 ≤ 1000000000 → p.offset % 16 = 0 →
    vread s w.context w.mkey (w.base + p.offset) 16 = (.ok, old, u) →
    leaseAcquireWord s.fab.plumb.time (nodeOf s p.srcNode).admitEpoch p old = (some b, r) →
    vwrite u w.context w.mkey (w.base + p.offset) b false = (.ok, v) → runRequest s p = (.ok, r, v))

/-- What checks 1 to 3 turn away is dropped: it leaves its receive buffer, one counter of its port rises, a failed tag is a timing
exception too, and nothing else of the module changes (R231, R244, R403, Table 10.7): a failed tag, a key index without an active
Lath key, a malformed header, a counter seen before. -/
def Obligations.BadPacketsOnlyCount : Prop :=
  ∀ (rx : Rx) (s : State), receiving s rx = true → rx.pkt.op = 1 →
    (rx.tagOk = false → exec (.store rx) s = .next (passBuffer (countLinkExc (modPort s rx.port
      (fun v => { v with gcm := satAdd 32 v.gcm 1, naks := v.naks + 1 }))) rx)) ∧
    (rx.tagOk = true → ((keyOf s rx.pkt.keyIdx).cls ≠ 2 ∨ (keyOf s rx.pkt.keyIdx).state ≠ .active) →
      exec (.store rx) s = .next (passBuffer (modPort s rx.port (fun v => { v with dropKey := satAdd 32 v.dropKey 1 })) rx)) ∧
    (rx.tagOk = true → (keyOf s rx.pkt.keyIdx).cls = 2 → (keyOf s rx.pkt.keyIdx).state = .active → wellFormedPacket rx.pkt = false →
      exec (.store rx) s = .next (passBuffer (modPort s rx.port (fun v => { v with dropMalf := satAdd 32 v.dropMalf 1 })) rx)) ∧
    (∀ r ∈ s.fab.replays, s.fab.replays.find? (fun r => r.node == rx.pkt.srcNode && r.key == rx.pkt.keyIdx && r.dir == rx.pkt.dir) = some r →
      rx.tagOk = true → (keyOf s rx.pkt.keyIdx).cls = 2 → (keyOf s rx.pkt.keyIdx).state = .active → wellFormedPacket rx.pkt = true →
      (rx.pkt.ctr + 1024 < r.top ∨ rx.pkt.ctr ∈ r.seen) →
      exec (.store rx) s = .next (passBuffer (modPort s rx.port (fun v => { v with dropReplay := satAdd 32 v.dropReplay 1 })) rx))

/-- RESP: a response that passes checks 1 to 3 under no pending XID, or from another node than its request went to, is dropped and
counted and reaches no token; one that is pending under its XID toward its source answers that request with its status, and BUSY
asks for a retransmission (R254, R255); the data of a read lands first, and waits for a link that trains or holds its frames
(R229, R248). Completes (exec answers a next state): RESP. -/
def Obligations.ResponsesReachOnlyTheirPendingRequest : Prop :=
  (∀ (rx : Rx) (u s : State), receiving s rx = true → rx.pkt.op = 0x10 → rxFirst s rx = (true, u) →
    (∀ q, tlook u.fab.pending rx.pkt.xid = some q → q.pkt.dstNode ≠ rx.pkt.srcNode) →
    exec (.resp rx) s = .next (fwProgress (modPort (passBuffer u rx) rx.port (fun v => { v with dropResp := satAdd 32 v.dropResp 1 }))) ∧
    sameButFabric s u) ∧
  (∀ (rx : Rx) (u s : State), receiving s rx = true → rx.pkt.op = 0x10 → rxFirst s rx = (true, u) → landingWaits u rx.pkt = true →
    exec (.resp rx) s = .next (holdLink u rx)) ∧
  (∀ (rx : Rx) (q : Pending) (u s : State), receiving s rx = true → rx.pkt.op = 0x10 → rxFirst s rx = (true, u) →
    tlook u.fab.pending rx.pkt.xid = some q → q.pkt.dstNode = rx.pkt.srcNode → statusOf rx.pkt.flowSeq = .busy →
    landingWaits u rx.pkt = false →
    exec (.resp rx) s = .next (fwProgress (pumpEverything (sendAgain (renewLoan (passBuffer u rx) rx.pkt.srcNode) rx.pkt.xid q.tries)))) ∧
  (∀ (rx : Rx) (q : Pending) (u s : State), receiving s rx = true → rx.pkt.op = 0x10 → rxFirst s rx = (true, u) →
    tlook u.fab.pending rx.pkt.xid = some q → q.pkt.dstNode = rx.pkt.srcNode → statusOf rx.pkt.flowSeq ≠ .busy → q.dest = [] →
    rx.pkt.len ≠ 8 →
    let w := renewLoan (passBuffer u rx) rx.pkt.srcNode
    let x := match q.by' with
      | .ckpt i => ckptLand w i q.pkt.offset rx.pkt.payload
      | .dma core tok => if statusOf rx.pkt.flowSeq = .ok then w else noteLanding w core tok q.pkt.offset none
      | _ => w
    exec (.resp rx) s = .next (fwProgress (pumpEverything (answerRequest x rx.pkt.xid (statusOf rx.pkt.flowSeq))))) ∧
  (∀ (rx : Rx) (q : Pending) (core tok : Nat) (st : Status) (a : Option Nat) (u v s : State), receiving s rx = true → rx.pkt.op = 0x10 → rxFirst s rx = (true, u) →
    tlook u.fab.pending rx.pkt.xid = some q → q.pkt.dstNode = rx.pkt.srcNode → statusOf rx.pkt.flowSeq = .ok → q.by' = .dma core tok →
    q.pkt.op = 4 → q.dest ≠ [] → rx.pkt.payload.length = q.dest.length → landingWaits u rx.pkt = false →
    landBytes (renewLoan (passBuffer u rx) rx.pkt.srcNode) core tok q.dest rx.pkt.payload = (st, a, v) →
    exec (.resp rx) s = .next (fwProgress (pumpEverything (answerRequest
      (if st = .ok then v else noteLanding v core tok q.pkt.offset a) rx.pkt.xid st))))

/-- RESP_TIMEOUT, COMPLETION_RECORD_EXPIRY, EPOCH_HOLD_TIMEOUT, LOAN_RECLAIM, LATH_KEY_RETIRE: an unanswered request is sent again
up to seven times and then ends; one toward a node that has left ends with STALE_EPOCH; a record of 1 ms is forgotten; a request
held 100 us for its epoch leaves its receive buffer and is answered BUSY; a loan 10 us past its expiry is taken back; an old Lath
index is zeroized 1 s of Plumb time after every member has moved (R232, R253, R255, R271, R443). Completes (exec answers a next
state): RESP_TIMEOUT, COMPLETION_RECORD_EXPIRY, EPOCH_HOLD_TIMEOUT, LATH_KEY_RETIRE, LOAN_RECLAIM. -/
def Obligations.LathTimersRetryForgetAndReclaim : Prop :=
  (∀ (node xid : Nat) (q : Pending) (s : State), tlook s.fab.pending xid = some q → q.pkt.dstNode = node → s.pow.dustSheet = false →
    q.sentAt + s.regs.respTimeout * 1000 ≤ s.ns →
    ((nodeOf s node).member = true → q.tries < 7 →
      exec (.respTimeout node xid) s = .next (fwProgress (pumpEverything (resend (countLinkExc s) xid (q.tries + 1))))) ∧
    ((nodeOf s node).member = true → 7 ≤ q.tries → exec (.respTimeout node xid) s = .next (fwProgress (pumpEverything (exhaustRequest s xid)))) ∧
    ((nodeOf s node).member = false →
      exec (.respTimeout node xid) s = .next (fwProgress (pumpEverything (answerRequest s xid .staleEpoch))))) ∧
  (∀ (node xid : Nat) (s : State), ∃ t, exec (.completionRecordExpiry node xid) s = .next t ∧ t.mem = s.mem ∧ t.cores = s.cores ∧
    t.fab = { s.fab with records := t.fab.records } ∧
    (∀ r, r ∈ t.fab.records ↔ r ∈ s.fab.records ∧ ¬ (r.node = node ∧ r.xid = xid ∧ r.at' + 1000000 ≤ s.ns))) ∧
  (∀ (node xid : Nat) (h : HeldReq) (s : State),
    s.fab.heldEpoch.find? (fun h => h.rx.pkt.srcNode == node && h.rx.pkt.xid == xid && decide (h.at' + 100000 ≤ s.ns)) = some h →
    exec (.epochHoldTimeout node xid) s = .next
      (answerVia (bufferOut { s with fab := { s.fab with heldEpoch := s.fab.heldEpoch.filter (· != h) } } h.rx.port h.rx.pkt)
        h.rx.port h.rx.pkt .busy []).2) ∧
  (∀ (node : Nat) (l : Loan) (s : State), tlook s.fab.loansOut node = some l → l.expiry + 10000 ≤ s.fab.plumb.time →
    ∃ t, exec (.loanReclaim node) s = .next t ∧ t.fab = { s.fab with loansOut := tdel s.fab.loansOut node } ∧ t.mem = s.mem ∧ t.sp.keyCtxs = s.sp.keyCtxs) ∧
  (∀ (key at' : Nat) (s : State), (keyOf s key).retire = some at' → at' + 1000000000 ≤ s.fab.plumb.time →
    ∃ t, exec (.lathKeyRetire key) s = .next t ∧ (keyOf t key).state ≠ .active ∧ t.mem.bytes = s.mem.bytes ∧
      (∀ r ∈ t.fab.replays, r.key ≠ key) ∧ ∀ k, k ≠ key → keyOf t k = keyOf s k)

/-- PLUMB_SYNC_TIMER, SYNC_REQ, SYNC_RESP, PLUMB_LOCK_LOSS: a member that is not grandmaster asks its time parent with t1; a
running node answers with t2 and t3; the first answer sets Plumb time and locks; a later one sets the offset ((t2 - t1) - (t4 -
t3)) / 2, to be slewed, and LOCKED holds while its size stays below 1,000 ns; ten milliseconds without an exchange lose the lock:
PPS_OUT goes low, the lanes are left, and what the module sends under slot leases ends (R261, R263, R264, R267, R297). Completes
(exec answers a next state): PLUMB_SYNC_TIMER, SYNC_REQ, SYNC_RESP, PLUMB_LOCK_LOSS. -/
def Obligations.PlumbFollowsItsParent : Prop :=
  (∀ s : State, live s = true → s.fab.member.isMember = true → isGrandmaster s = false →
    (s.fab.plumb.lastSync = 0 ∨ s.fab.plumb.lastSync + 32000 ≤ s.ns) → s.fab.plumb.t1 = none → s.fab.plumb.missed < 4 →
    exec .plumbSyncTimer s = .next (sendVc4 (setPlumb s { s.fab.plumb with t1 := some s.fab.plumb.time, lastSync := s.ns })
      0x18 0 (nodeOf s s.fab.member.node).timeParent (leBytes 8 s.fab.plumb.time))) ∧
  (∀ (rx : Rx) (u s : State), vc4Accept s rx 0x18 = (true, u) → u.fab.plumb.running = true →
    ∃ b, exec (.syncReq rx) s = .next (sendVc4 u 0x19 1 rx.pkt.srcNode b) ∧ b.length = 24 ∧
      (u.fab.plumb.time < 2 ^ 64 → le b 0 8 = u.fab.plumb.time ∧ le b 8 8 = u.fab.plumb.time)) ∧
  (∀ (rx : Rx) (t1 : Nat) (u s : State), vc4Accept s rx 0x19 = (true, u) → u.fab.plumb.t1 = some t1 → isGrandmaster u = false →
    u.fab.plumb.running = false →
    ∃ t, exec (.syncResp rx) s = .next t ∧ t.fab.plumb.running = true ∧ t.fab.plumb.locked = true ∧
      t.fab.plumb.time = le rx.pkt.payload 8 8 ∧ t.fab.plumb.epoch = le rx.pkt.payload 16 2 ∧ t.fab.plumb.t1 = none ∧ t.mem = s.mem) ∧
  (∀ (rx : Rx) (t1 : Nat) (u s : State), vc4Accept s rx 0x19 = (true, u) → u.fab.plumb.t1 = some t1 → isGrandmaster u = false →
    u.fab.plumb.running = true →
    let off : Int := (((le rx.pkt.payload 0 8 : Int) - t1) - ((u.fab.plumb.time : Int) - le rx.pkt.payload 8 8)) / 2
    ∃ t, t.fab.plumb.offset = off ∧ t.fab.plumb.slew = off ∧ t.fab.plumb.time = u.fab.plumb.time ∧ t.fab.plumb.t1 = none ∧ t.mem = s.mem ∧
      (off.natAbs < 1000 → exec (.syncResp rx) s = .next (setPlumb t { t.fab.plumb with locked := true })) ∧
      (1000 ≤ off.natAbs → exec (.syncResp rx) s = .next (loseLock t))) ∧
  (∀ s : State, isGrandmaster s = false → s.fab.plumb.lastOk + 10000000 ≤ s.ns → exec .plumbLockLoss s = .next (loseLock s)) ∧
  (∀ s : State, (s.fab.plumb.locked = false → loseLock s = s) ∧
    (s.fab.plumb.locked = true → ∃ t, loseLock s = groutUnlocked (withdraw t (laneGroups t) t.fab.member.node) ∧
      t.fab.plumb = { s.fab.plumb with locked := false, ppsOut := none } ∧ t.mem = s.mem ∧ t.cores = s.cores ∧ t.sp = s.sp))

/-- PPS_IN_EDGE, PPS_OUT_PULSE, SLOT_SLIP, SCHEDULED_LANE_RETURN, LANE_SLOT_START: an edge within 0.5 s of the last is discarded
and counted; the grandmaster's first edge anchors epoch 0, one within 1 us slews, any other starts the next timebase epoch;
PPS_OUT rises at A + k s of a locked module; a slip withdraws from the lanes; 1 ms below 16 ns brings them back; an unlocked lane
start withdraws; in its slot a lane's packet, an ABORT that waits first, takes a port that sends it at once and on which it still
ends in the slot (R262, R265, R267, R474, R475). Completes (exec answers a next state): PPS_IN_EDGE, PPS_OUT_PULSE, SLOT_SLIP,
SCHEDULED_LANE_RETURN, LANE_SLOT_START. -/
def Obligations.PpsAndLanesFollowPlumb : Prop :=
  (∀ (t0 : Nat) (s : State), s.fab.plumb.ppsLast = some t0 → s.ns < t0 + 500000000 →
    exec .ppsInEdge s = .next (setPlumb s { s.fab.plumb with ppsDrop := s.fab.plumb.ppsDrop + 1 })) ∧
  (∀ s : State, (∀ t0, s.fab.plumb.ppsLast = some t0 → t0 + 500000000 ≤ s.ns) → isGrandmaster s = true → s.fab.plumb.running = true →
    let p := s.fab.plumb
    ∃ t, exec .ppsInEdge s = .next t ∧ t.fab.plumb.ppsLast = some s.ns ∧ t.fab.plumb.time = p.time ∧ t.mem = s.mem ∧
      (p.anchored = false → t.fab.plumb.anchor = p.time ∧ t.fab.plumb.epoch = p.epoch) ∧
      (p.anchored = true → (edgeError p).natAbs < 1000 → t.fab.plumb.slew = -(edgeError p) ∧ t.fab.plumb.anchor = p.anchor ∧
        t.fab.plumb.epoch = p.epoch) ∧
      (p.anchored = true → 1000 ≤ (edgeError p).natAbs → t.fab.plumb.anchor = p.time ∧
        t.fab.plumb.epoch = (p.epoch + 1) % 65536)) ∧
  (∀ s : State, s.fab.plumb.running = true → s.fab.plumb.locked = true →
    s.fab.plumb.anchor + s.fab.plumb.ppsNext * 1000000000 ≤ s.fab.plumb.time →
    ∃ t, exec .ppsOutPulse s = .next t ∧ ppsOutLevel t = true ∧ t = { s with fab := { s.fab with plumb := t.fab.plumb } } ∧
      s.fab.plumb.time < s.fab.plumb.anchor + t.fab.plumb.ppsNext * 1000000000 ∧ t.fab.plumb.time = s.fab.plumb.time) ∧
  (∀ (rx : Rx) (u s : State), vc4Accept s rx 0x1A = (true, u) →
    ∃ v, exec (.slotSlip rx) s = .next (withdraw v [(le rx.pkt.payload 4 4, le rx.pkt.payload 0 4)] rx.pkt.srcNode) ∧
      v = modPort u rx.port (fun p => { p with slip := satAdd 32 p.slip 1 })) ∧
  (∀ s : State, s.fab.plumb.withdrawn = true → s.fab.plumb.locked = true → s.fab.plumb.offset.natAbs < 16 →
    s.fab.plumb.goodSince + 1000000 ≤ s.ns → s.fab.plumb.time % 2000 = 0 →
    exec .scheduledLaneReturn s = .next (levelEvent (setPlumb s { s.fab.plumb with withdrawn := false }) pgGrout 1 false [])) ∧
  (∀ (lane : Nat) (l : Lane) (s : State), tlook s.fab.lanes lane = some l → live s = true → s.fab.plumb.withdrawn = false →
    (s.fab.plumb.locked = false → exec (.laneSlotStart lane) s = .next (withdraw s (laneGroups s) s.fab.member.node)) ∧
    (s.fab.plumb.locked = true → l.start + 64 ≤ s.fab.plumb.time % 2000 → s.fab.plumb.time % 2000 + 64 ≤ l.start + l.length →
      let r := laneAborts s l.partition l.group l.portMask
        ((upPorts s l.portMask).map (fun q => (q, (l.start + l.length - 64 - s.fab.plumb.time % 2000) * 100)))
      ∀ g, r.2.fab.grouts.filter (fun g => g.partition == l.partition && g.group == l.group) = [g] →
        exec (.laneSlotStart lane) s = .next (laneFlush r.2 g.partition g.group g.tag l.portMask r.1 g.outbox.length).2)) ∧
  (∀ (mask q : Nat) (room : Tab Nat) (p : Packet) (s : State), bit (roomyPorts s mask room p) q = true →
    bit mask q = true ∧ frameBytes p ≤ tget 0 room q ∧ sendsNow (portOf s q) p = true)

/-- EPOCH_UPDATE, EPOCH_ACK, EPOCH_ACK_TIMEOUT: the update of the next epoch from the first live coordinator is applied and
acknowledged, its key unwrapped by a counted use of the pairwise key (R361), unless R273 or R347 forbids it (POLICY_DENIED) or
that key is exhausted; any other is discarded and counted; the coordinator notes an acknowledgement of its epoch, and goes on when
all are in or 1 ms has passed (R272). A record's entries replace the Node Map's entries of the nodes it names, and no others.
Completes (exec answers a next state): EPOCH_UPDATE, EPOCH_ACK, EPOCH_ACK_TIMEOUT. -/
def Obligations.EpochUpdatesComeFromTheCoordinator : Prop :=
  (∀ (rx : Rx) (r : MembRecord) (u s : State), vc4Accept s rx 0x1B = (true, u) →
    (u.fab.member.isMember = false ∨ firstLive u u.fab.member.coordinators ≠ some rx.pkt.srcNode ∨ r.epoch ≠ u.fab.member.epoch + 1) →
    exec (.epochUpdate rx r) s = .next (modPort u rx.port (fun v => { v with epochDisc := satAdd 32 v.epochDisc 1 }))) ∧
  (∀ (rx : Rx) (r : MembRecord) (u s : State), vc4Accept s rx 0x1B = (true, u) → u.fab.member.isMember = true →
    firstLive u u.fab.member.coordinators = some rx.pkt.srcNode → r.epoch = u.fab.member.epoch + 1 →
    ((tooMany u (mapAfter u.fab.nodes r.nodes) = true ∨ r.nodes.all (entryOk u r.epoch) = false) →
      exec (.epochUpdate rx r) s = .next (sendVc4 (logIt u 2 (statusCode .policyDenied) 0 0 0x1B r.epoch) 0x1C 1 rx.pkt.srcNode
        (leBytes 4 (statusCode .policyDenied) ++ leBytes 4 r.epoch))) ∧
    (tooMany u (mapAfter u.fab.nodes r.nodes) = false → r.nodes.all (entryOk u r.epoch) = true →
      let slot := 0xFA + u.fab.member.coordinators.idxOf rx.pkt.srcNode
      ∀ st w, useSlot u slot 7 0 = (st, w) →
        (st = .keyExhausted → exec (.epochUpdate rx r) s = .next (sendVc4 w 0x1C 1 rx.pkt.srcNode
          (leBytes 4 (statusCode .keyExhausted) ++ leBytes 4 r.epoch))) ∧
        (st ≠ .keyExhausted → ∃ v k, exec (.epochUpdate rx r) s = .next (afterEpoch (sendVc4 (applyRecord v r k) 0x1C 1 rx.pkt.srcNode
          (leBytes 4 0 ++ leBytes 4 r.epoch))) ∧ (drawFree w).2 = v ∧
          ∀ x, aesUnwrap (slotKey (slotOf v slot)) r.wrapped = some x → k = x))) ∧
  (∀ (l : List NodeChange) (t : Tab Node), (l.map (·.node)).Nodup →
    (∀ c ∈ l, tget {} (mapAfter t l) c.node = ⟨c.phys, c.member, c.admitEpoch, c.timeParent, c.portMask⟩) ∧
    (∀ n, n ∉ l.map (·.node) → tget {} (mapAfter t l) n = tget {} t n)) ∧
  (∀ (rx : Rx) (u s : State), vc4Accept s rx 0x1C = (true, u) → isCoordinator u = true → u.fab.member.sentAt.isSome = true →
    le rx.pkt.payload 4 4 = u.fab.member.epoch → le rx.pkt.payload 0 4 = 0 → rx.pkt.srcNode ∉ u.fab.member.acks →
    let v := setMember u { u.fab.member with acks := rx.pkt.srcNode :: u.fab.member.acks }
    exec (.epochAck rx) s = .next (if (unacked v).isEmpty then nextUpdate v else v)) ∧
  (∀ (t0 : Nat) (s : State), s.fab.member.sentAt = some t0 → t0 + 1000000 ≤ s.ns → exec .epochAckTimeout s = .next (nextUpdate s)) ∧
  (∀ (rx : Rx) (u s : State), vc4Accept s rx 0x1B = (false, u) →
    sameButFabric (if live s && portUp s rx.port then passBuffer s rx else s) u ∧ ∀ r, exec (.epochUpdate rx r) s = .next u)

/-- EPOCH_REQUEST, DOMAIN_FORM, DOMAIN_JOIN of a served connection: the coordinator's management issuer starts the next epoch; the
key of an epoch that has to wait is drawn at once; the issuer of a module outside every domain forms one whose founder it becomes;
an authenticated peer brings a module into the domain whose record names its PHYS; each answers OK (R272 to R274). Completes (exec
answers a next state): EPOCH_REQUEST, DOMAIN_FORM, DOMAIN_JOIN. -/
def Obligations.DomainsFormJoinAndMoveOn : Prop :=
  (∀ (sess : Nat) (v : Spdm) (r : MembRecord) (s : State), Vendor s sess v → isIssuer s v = true → isCoordinator s = true →
    r.epoch = s.fab.member.epoch + 1 → tooMany s (mapAfter s.fab.nodes r.nodes) = false → r.nodes.all (entryOk s r.epoch) = true →
    s.fab.member.asked = none → drbgOk s = true →
    (s.fab.member.sentAt = none → exec (.epochRequest sess r) s = .next (sendUpdate (answerSp s .ok [] []) r)) ∧
    (∀ t0, s.fab.member.sentAt = some t0 → exec (.epochRequest sess r) s =
      .next (setMember (holdNextKey (draw (answerSp s .ok [] [])).2 ((draw (answerSp s .ok [] [])).1.truncate 256))
        { s.fab.member with asked := some r }))) ∧
  (∀ (sess node : Nat) (v : Spdm) (r : MembRecord) (s : State), Vendor s sess v → isIssuer s v = true → r.epoch = 1 → node < 65536 →
    r.grandmasters.contains node = true → r.coordinators.contains node = true → r.grandmasters.length ≤ 4 → r.coordinators.length ≤ 4 →
    r.nodes.any (fun c => c.node == node && c.member) = true → outsideDomain s = true → tooMany s (mapAfter [] r.nodes) = false →
    drbgOk s = true →
    ∃ u t k, exec (.domainForm sess node r) s = .next t ∧ Answered t .ok [] [] ∧ (draw s).2 = u ∧
      t = answerSp (setMember (enterDomain { u with fab := { u.fab with nodes := [] } } node r k)
        { (enterDomain { u with fab := { u.fab with nodes := [] } } node r k).fab.member with
          joined := (members (enterDomain { u with fab := { u.fab with nodes := [] } } node r k)).filter (· != node) }) .ok [] []) ∧
  (∀ (sess node : Nat) (v : Spdm) (r : MembRecord) (key : BitVec 256) (s : State), Vendor s sess v → isPeer v = true →
    outsideDomain s = true → tooMany s (mapAfter [] r.nodes) = false →
    r.nodes.any (fun c => c.node == node && c.member && c.phys == s.fab.member.phys && c.admitEpoch == r.epoch) = true →
    exec (.domainJoin sess node r key) s =
      .next (answerSp (enterDomain { s with fab := { s.fab with nodes := [] } } node r key) .ok [] []))

/-- HOLD_TIMER, SLOT_LEASE_EXPIRY, TROWEL_CHUNK_RETIRE, HEALTH_WINDOW_EXPIRY, LEVEL_PEER_SILENT: a locked sender renews its slot's
hold; an expired lease ends the collective with LEASE_EXPIRED; the Trowel retires its next chunk; a health window that has run out
starts again from 0; a silent Level peer is reported for the oldest own unmatched record, else for the peer's oldest (the model's
choice, log entry 17) (R295, R297, R312, R440, R413). Completes (exec answers a next state): HOLD_TIMER, SLOT_LEASE_EXPIRY,
TROWEL_CHUNK_RETIRE, HEALTH_WINDOW_EXPIRY, LEVEL_PEER_SILENT. -/
def Obligations.TimedUnitsActWhenDue : Prop :=
  (∀ (part grp tag recv at' : Nat) (g : Grout) (gr : Group) (t : TxStream) (s : State), groutOf s part grp tag = some g →
    groupOf s part grp = some gr → g.targets.find? (fun t => t.pos == recv) = some t → t.lastAt = some at' →
    at' + gr.slotHold * 250 ≤ s.ns → s.fab.plumb.locked = true → g.outbox.any (fun p => p.asub == 3 && posOf gr p.dstNode == recv) = false →
    let h := g.queue (collPacket s gr grp 3 tag 0 0 recv [])
    exec (.holdTimer part grp tag recv) s = .next (flushGrout (putGrout s h) h none h.outbox.length)) ∧
  (∀ (part grp tag send o e ex : Nat) (g : Grout) (r : RxStream) (s : State), groutOf s part grp tag = some g →
    g.streams.find? (fun r => r.pos == send) = some r → r.lease = some (o, e, ex) → r.expects g = true → ex + 10000 < s.fab.plumb.time →
    exec (.slotLeaseExpiry part grp tag send) s =
      .next (groutEnd { s with regs := { s.regs with grLease := satAdd 32 s.regs.grLease 1 } } g .leaseExpired (some send))) ∧
  (∀ (t : Trowel) (s : State), s.fab.trowel = some t → t.sealing = false → s.pow.dustSheet = false → dieWaits s hubDie = false → (t.op = 0 ∨ t.op = 3) →
    exec .trowelChunkRetire s = .next (trowelChunk s t)) ∧
  (∀ (m : Nat) (s : State), m < 11 → (monOf s m).since + monWindow m ≤ s.ns →
    ∃ t, exec (.healthWindowExpiry m) s = .next t ∧ (monOf t m).count = 0 ∧ (monOf t m).posted = false ∧ (monOf t m).since ≤ s.ns ∧
      s.ns < (monOf t m).since + monWindow m ∧ (∀ k, k ≠ m → monOf t k = monOf s k) ∧ t.mem = s.mem ∧ t.cores = s.cores) ∧
  (∀ (p : Nat) (l : Level) (e : LevelEntry) (s : State), (partOf s p).level = some l → silentEntry s p l = some e →
    l.heard + 10000000 ≤ s.ns →
    exec (.levelPeerSilent p) s = .next (modLevel (levelReport s p e) p (fun l => { l with heard := s.ns })) ∧ e.cause = 3 ∧
    (∀ r rest, l.own = r :: rest → (e.planSeq, e.task, e.dOwn, e.dPeer) = (r.planSeq, r.task, r.d, 0)) ∧
    (∀ r rest, l.own = [] → l.theirs = r :: rest → (e.planSeq, e.task, e.dOwn, e.dPeer) = (r.planSeq, r.task, 0, r.d)))

/-- SESSION_OPEN, SESSION_APPROVE, SESSION_JOIN, SESSION_END of a served connection of a module with a root secret: an open
manifest that is admissible gives a local identifier of 16 bits (its number is the model's choice, log entry 35), PENDING; the
approval that completes K_MEMBERS makes the founder RUNNING; a running member takes an attested, admitted joiner and answers the
R_MAX bounds of its node with the session's secrets, a pending one becomes RUNNING with secrets; an end begins the session's stop,
or is BUSY while the measurement log has no room for it (R233, R354, R367 to R374). Completes (exec answers a next state):
SESSION_OPEN, SESSION_APPROVE, SESSION_JOIN, SESSION_END. -/
def Obligations.SessionsOpenApproveJoinAndEnd : Prop :=
  (∀ (sess part : Nat) (v : Spdm) (b : Bytes) (founder : Bool) (u s : State), Vendor s sess v →
    let m := decodeManifest b
    let id := (Config.sha384 (b.take (bodyLen b))).toNat % 2 ^ 128
    manifestOk b m = true → (partOf s part).live = true → (rootBank s).isSome = true → manifestAllowed s m = true →
    s.sp.sessions.any (fun x => x.2.id == id) = false → s.sp.endedIds.contains id = false →
    (s.sp.sessions.filter (fun x => x.2.state != .ended)).length < 64 → drbgOk s = true →
    measAdd s part 4 0 0 0 (localId s) 0 (BitVec.ofNat 384 id) = some u →
    ∃ t x, exec (.sessionOpen sess b true part founder) s = .next t ∧ Answered t .ok [localId s] [] ∧
      sesOf t (localId s) = some x ∧ x.state = .pending ∧ x.id = id ∧ x.founder = founder ∧ x.partition = part ∧ x.approvals = [] ∧
      (x.ss.isSome = founder) ∧ t.sp.nextSession = min 65536 (s.sp.nextSession + 1) ∧ t.mem = s.mem) ∧
  (∀ s : State, localId s < 65536 ∧ (65536 ≤ s.sp.nextSession → localId s ≠ 0 → sesOf s (localId s) = none)) ∧
  (∀ (sess session owner : Nat) (v : Spdm) (x : Session) (object : Digest) (s : State), Vendor s sess v → sesOf s session = some x →
    x.state ≠ .ended → owner < x.manifest.owners → (rootBank s).isSome = true →
    ∃ t y, exec (.sessionApprove sess session owner 1 object true) s = .next t ∧ Answered t .ok [] [] ∧ sesOf t session = some y ∧
      (owner, 1, object) ∈ y.approvals ∧ (∀ a ∈ x.approvals, a ∈ y.approvals) ∧ y.ss = x.ss ∧ y.members = x.members ∧
      (y.state = if x.founder = true ∧ x.state = .pending ∧ x.manifest.kMembers ≤ (approvers y 1 object).length then .running else x.state) ∧
      t.mem = s.mem ∧ t.sp.slots = s.sp.slots ∧ ∀ i, i ≠ session → sesOf t i = sesOf s i) ∧
  (∀ (sess session : Nat) (v : Spdm) (x : Session) (r : Report) (s : State), Vendor s sess v → sesOf s session = some x → x.state = .running →
    v.cls = .peer r.identity → reportOk x r = true → admitted s x r = true → (r.node, r.identity) ∉ x.members →
    x.members.length < x.manifest.maxMembers → (rootBank s).isSome = true →
    exec (.sessionJoin sess session r) s =
      .next (answerJoin (setSes s session { x with members := x.members ++ [(r.node, r.identity)] }) session x r.node)) ∧
  (∀ (session node : Nat) (x : Session) (s : State),
    ∃ secrets, answerJoin s session x node =
      answerSp s .ok ((s.fab.member.rMaxes.filter (fun r => r.1 == node && r.2.1 == session)).flatMap (fun r => [r.2.2.1, r.2.2.2])) secrets) ∧
  (∀ (sess session : Nat) (v : Spdm) (x : Session) (r : Report) (s : State), Vendor s sess v → sesOf s session = some x → x.state = .pending →
    isPeer v = true → x.founder = false → r.sessionId = x.id → drbgOk s = true → (rootBank s).isSome = true →
    ∃ t y, exec (.sessionJoin sess session r) s = .next t ∧ Answered t .ok [] [] ∧ sesOf t session = some y ∧ y.state = .running ∧
      y.ss.isSome = true ∧ y.obs.isSome = true ∧ t.mem = s.mem) ∧
  (∀ (sess session : Nat) (v : Spdm) (x : Session) (s : State), Vendor s sess v → sesOf s session = some x → x.state ≠ .ended →
    (isIssuer s v = true ∨ ownsSession s v session = true) → (rootBank s).isSome = true →
    ((partOf s x.partition).log.length + measOwed s x.partition < 65536 → exec (.sessionEnd sess session) s =
      .next (progress (beginSessionEnd (setSes s session { x with endReq := true, asker := some sess }) session))) ∧
    (65536 ≤ (partOf s x.partition).log.length + measOwed s x.partition →
      exec (.sessionEnd sess session) s = .next (answerSp s .busy [] [])))

/-- RELEASE_PREPARE, RELEASE_KEY_GET, MEAS_LOG_READ, SP_LOG_READ, LEVEL_PAIR: a permitted range becomes a ticket with a fresh key;
the rule's recipient gets the key of a complete ticket to itself; the logs answer their entries from a sequence number on, and the
error log notes them as read; a partition is paired with a peer of one of its running sessions, or unpaired; a Level log address
of more than 48 bits gives DESC_INVALID (R197, R378, R380, R369, R407). Completes (exec answers a next state): RELEASE_PREPARE,
RELEASE_KEY_GET, MEAS_LOG_READ, LEVEL_PAIR, SP_LOG_READ. -/
def Obligations.ReleasesLogsAndPairsAnswer : Prop :=
  (∀ (sess session rule ctx addr len key slot : Nat) (v : Spdm) (x : Session) (r : Rule) (b : Bytes) (u s : State), Vendor s sess v →
    sesOf s session = some x → ownerIndex v x.manifest = some x.manifest.operator → x.manifest.rules[rule]? = some r → r.k ≠ 0 → len ≠ 0 → addr < 2 ^ 48 →
    x.state = .running → (ctxOf s ctx).session = session → (ctxOf s ctx).live = true → commandKeyOk s ctx key = true →
    (keyOf s key).role = r.role → (r.maxLen ≠ 0 → len ≤ r.maxLen * 4096) → (x.tickets.filter (fun t => !t.complete)).length < 16 →
    drbgOk s = true → freeSlot s = some slot → vread s ctx key addr len = (.ok, b, u) →
    ∃ t d y k, exec (.releasePrepare sess session rule ctx addr len key) s = .next t ∧ Answered t .ok [x.nextTicket] (digestBytes d) ∧
      sesOf t session = some y ∧ y.tickets = x.tickets ++ [k] ∧ k.id = x.nextTicket ∧ k.digest = d ∧ k.complete = false ∧ k.armed = false ∧
      k.slot = slot ∧ (slotOf t slot).state = .loaded ∧ (slotOf t slot).cls = 8 ∧ t.mem = u.mem) ∧
  (∀ (sess session ticket : Nat) (v : Spdm) (x : Session) (t : Ticket) (s : State), Vendor s sess v → isOwner v = true →
    sesOf s session = some x → x.tickets.find? (fun t => t.id == ticket) = some t → x.state ≠ .ended →
    let r := (x.manifest.rules[t.rule]?).getD ⟨0, 0, 0, 0, 0, 0⟩
    ownerIndex v x.manifest = some (recipient x.manifest r) →
    (t.complete = false → exec (.releaseKeyGet sess session ticket) s = .next (answerSp s .notReady [] [])) ∧
    (t.complete = true → r.dest = 0 →
      exec (.releaseKeyGet sess session ticket) s = .next (answerSp s .ok [] (keyBytes (slotKey (slotOf s t.slot)))))) ∧
  (∀ (sess part seq : Nat) (v : Spdm) (s : State), Vendor s sess v →
    let l := (((partOf s part).log.filter (fun e => decide (seq ≤ e.seq))).take 64)
    exec (.measLogRead sess part seq) s = .next (answerSp s .ok (l.map (·.seq)) (l.flatMap measBytes))) ∧
  (∀ (sess seq : Nat) (v : Spdm) (s : State), Vendor s sess v →
    let l := (s.sp.log.filter (fun e => decide (seq ≤ e.seq))).take 64
    ∃ t, exec (.spLogRead sess seq) s = .next t ∧ Answered t .ok (l.map (·.seq)) (l.flatMap logBytes) ∧ t.mem = s.mem ∧
      t.sp.log = s.sp.log.map (fun e => if l.contains e then { e with seen := true } else e)) ∧
  (∀ (sess part peer va len key : Nat) (halt detail : Bool) (v : Spdm) (s : State), Vendor s sess v → isIssuer s v = true →
    (partOf s part).live = true →
    (peer = 0xFFFF → exec (.levelPair sess part peer va len key halt detail) s =
      .next (answerSp (setPairing s part none) .ok [] []) ∧ (partOf (setPairing s part none) part).level = none) ∧
    (peer ≠ 0xFFFF → 2 ^ 48 ≤ va → exec (.levelPair sess part peer va len key halt detail) s = .next (answerSp s .descInvalid [] [])) ∧
    (peer ≠ 0xFFFF → va < 2 ^ 48 → s.sp.sessions.any (fun x => x.2.partition == part && x.2.state == .running && x.2.members.any (fun m => m.1 == peer)) = true →
      (keyOf s key).cls = 0 → (keyOf s key).state ≠ .free → keyInRange s part key = true →
      ∃ t l, exec (.levelPair sess part peer va len key halt detail) s = .next t ∧ Answered t .ok [] [] ∧ (partOf t part).level = some l ∧
        l.peer = peer ∧ l.halt = halt ∧ l.detail = detail ∧ l.own = [] ∧ l.heard = s.ns ∧ t.mem = s.mem))

/-- WINDOW_OPEN, WINDOW_CLOSE, GROUP_OPEN, GROUP_CLOSE of the management issuer: a permitted entry stands at its free window, with
its arrival counter counting one window more; a close takes the window away and a counter with its last window; a group whose list
reads and whose keys and staging area are permitted stands with its members; a close takes an idle group away (R242, R282, R283).
Completes (exec answers a next state): WINDOW_OPEN, WINDOW_CLOSE, GROUP_OPEN, GROUP_CLOSE. -/
def Obligations.WindowsAndGroupsOpenAndClose : Prop :=
  (∀ (sess window : Nat) (v : Spdm) (b : Bytes) (w : Window) (s : State), Vendor s sess v → isIssuer s v = true → window < 4095 →
    decodeWindow b = some w → (ctxOf s w.context).live = true → (ctxOf s w.context).partition = w.partition →
    (ctxOf s w.context).session = w.session → w.lkey % 2 = 0 → isLathOf s w.session w.lkey = true → isLathOf s w.session (w.lkey + 1) = true →
    keyInRange s w.partition w.mkey = true → (keyOf s w.mkey).cls = 0 →
    (∀ a, tlook s.fab.arrivals w.counter = some a → a.partition = w.partition) → tlook s.fab.windows window = none →
    ∃ t, exec (.windowOpen sess window b) s = .next t ∧ Answered t .ok [] [] ∧ tlook t.fab.windows window = some w ∧
      (∀ a, tlook s.fab.arrivals w.counter = some a → tlook t.fab.arrivals w.counter = some { a with windows := a.windows + 1 }) ∧
      (tlook s.fab.arrivals w.counter = none → tlook t.fab.arrivals w.counter = some ⟨w.partition, 1, 0⟩) ∧
      (∀ n, n ≠ window → tlook t.fab.windows n = tlook s.fab.windows n) ∧ t.mem = s.mem) ∧
  (∀ (sess window : Nat) (v : Spdm) (w : Window) (s : State), Vendor s sess v → isIssuer s v = true → tlook s.fab.windows window = some w →
    exec (.windowClose sess window) s = .next (answerSp (settlePlans (closeWindow s window)) .ok [] []) ∧
    tlook (closeWindow s window).fab.windows window = none ∧
    (∀ a, tlook s.fab.arrivals w.counter = some a → tlook (closeWindow s window).fab.arrivals w.counter =
      if a.windows ≤ 1 then none else some { a with windows := a.windows - 1 })) ∧
  (∀ (sess part : Nat) (v : Spdm) (b lb : Bytes) (u s : State), Vendor s sess v → isIssuer s v = true → groupFieldsOk b = true →
    let group := bits (le b 0 4) 11 0; let ctx := bits (le b 4 4) 11 0; let n := bits (le b 8 4) 16 0; let lkey := le b 12 1
    let stage := le b 13 1; let c := ctxOf s ctx; let members := (List.range n).map (fun i => le lb (2 * i) 2)
    c.live = true → c.partition = part → (keyOf s stage).cls = 0 → (keyOf s stage).state ≠ .free → (keyOf s stage).partition = part →
    (∀ acc ∈ [Acc.read, Acc.write], vcheck s ctx stage (le b 16 8) (2 * n) acc = .ok ∧ vcheck s ctx stage (le b 24 8) (le b 32 8) acc = .ok) →
    vread s ctx stage (le b 16 8) (2 * n) = (.ok, lb, u) → members.all (fun m => members.count m == 1) = true →
    members.contains s.fab.member.node = true → isLathOf s c.session lkey = true → isLathOf s c.session (lkey + 1) = true →
    bits (le b 12 4) 28 16 * log2up n * 131072 ≤ le b 32 8 → groupOf s part group = none →
    bits (le b 40 4) 24 20 ≤ ((List.range 16).filter (fun i => (tlook s.fab.lanes i).isNone)).length →
    ((s.fab.groups.filter (fun g => g.1 / 4096 == part)).map (fun g => g.2.members.length)).foldl (· + ·) 0 + n ≤ 1048576 →
    ∃ t g, exec (.groupOpen sess part b) s = .next t ∧ Answered t .ok [] [] ∧ groupOf t part group = some g ∧ g.members = members ∧
      g.context = ctx ∧ g.lkey = lkey ∧ g.stageKey = stage ∧ g.self = members.idxOf s.fab.member.node ∧ t.mem = u.mem) ∧
  (∀ (sess part group : Nat) (v : Spdm) (s : State), Vendor s sess v → isIssuer s v = true → (groupOf s part group).isSome = true →
    (groupBusy s part group = true → exec (.groupClose sess part group) s = .next (answerSp s .busy [] [])) ∧
    (groupBusy s part group = false → ∃ t, exec (.groupClose sess part group) s = .next t ∧ Answered t .ok [] [] ∧
      groupOf t part group = none ∧ t.mem = s.mem))

/-- KEY_IMPORT, SLOT_ERASE, SLOT_ZEROIZE, SLOT_REMASK: while the DRBG is ready an owner's key stands in an empty slot as two
shares under a fresh generation; an immediate erase empties the owner's slot at once and ends the uses that are bound to it with
KEY_REVOKED, the other lets uses end first; an ERASING slot without uses is emptied; a re-mask replaces both shares of every
loaded slot and changes no key (R357, R360, R362). Completes (exec answers a next state): KEY_IMPORT, SLOT_ERASE, SLOT_ZEROIZE,
SLOT_REMASK. -/
def Obligations.KeySlotsLoadEraseAndRemask : Prop :=
  (∀ (sess session slot cls o : Nat) (key : BitVec 256) (v : Spdm) (x : Session) (s : State), Vendor s sess v → isOwner v = true →
    sesOf s session = some x → ownerIndex v x.manifest = some o → x.state ≠ .ended → (cls = 3 ∨ cls = 4) → slot < 0xD8 →
    (slotOf s slot).state = .empty → drbgOk s = true →
    ∃ t, exec (.keyImport sess session slot cls key) s = .next t ∧ Answered t .ok [] [] ∧ (slotOf t slot).state = .loaded ∧
      slotKey (slotOf t slot) = key ∧ (slotOf t slot).cls = cls ∧ (slotOf t slot).owner = o ∧ (slotOf t slot).session = session ∧
      (slotOf t slot).sgen = (slotOf s slot).sgen + 1 ∧ (∀ i, i ≠ slot → slotOf t i = slotOf s i) ∧ t.mem = s.mem ∧ t.sp.keyCtxs = s.sp.keyCtxs) ∧
  (∀ (sess slot : Nat) (v : Spdm) (x : Session) (s : State), Vendor s sess v → isOwner v = true → sesOf s (slotOf s slot).session = some x →
    ownerIndex v x.manifest = some (slotOf s slot).owner → ((slotOf s slot).cls = 3 ∨ (slotOf s slot).cls = 4) →
    (slotOf s slot).state = .loaded →
    exec (.slotErase sess slot true) s = .next (answerSp (progress (abortSlot s slot)) .ok [] []) ∧
    (slotOf (abortSlot s slot) slot).state = .empty ∧ slotKey (slotOf (abortSlot s slot) slot) = 0 ∧
    ∃ t, exec (.slotErase sess slot false) s = .next t ∧ Answered t .ok [] [] ∧ (slotOf t slot).state = .erasing ∧
      (∀ i, i ≠ slot → slotOf t i = slotOf s i) ∧ t.mem = s.mem) ∧
  (∀ (slot : Nat) (s : State), (slotOf s slot).state = .erasing → (slotOf s slot).bound = 0 →
    exec (.slotZeroize slot) s = .next (fwProgress (freeZeroized (emptySlot s slot))) ∧
    slotKey (slotOf (emptySlot s slot) slot) = 0 ∧ (slotOf (emptySlot s slot) slot).state = .empty ∧
    (slotOf (emptySlot s slot) slot).sgen = (slotOf s slot).sgen) ∧
  (∀ s : State, spRuns s = true → drbgOk s = true →
    ∃ t, exec .slotRemask s = .next t ∧ (∀ i, slotKey (slotOf t i) = slotKey (slotOf s i) ∧ (slotOf t i).state = (slotOf s i).state ∧
      (slotOf t i).uses = (slotOf s i).uses) ∧ t.mem = s.mem ∧ t.sp.keyCtxs = s.sp.keyCtxs ∧ t.sp.remasks = s.sp.remasks + 1)

/-- KEY_CTX_BIND, KEY_CTX_ERASE, KEY_ROLL_INSTALL, KEY_ROLL_RETIRE, SAND_START: a free index takes a fresh key of the role's class
with the next generation, a Lath role both indices of its pair, with roll counts above those that its session has used; an
immediate erase zeroizes the index, and requests bound to it before end with KEY_REVOKED; the partner index takes the next roll
count; the old index is marked for retirement at this Plumb time; an active memory key begins a sanding pass (R212 to R214, R223,
R228, R232). Completes (exec answers a next state): KEY_CTX_BIND, KEY_CTX_ERASE, KEY_ROLL_INSTALL, KEY_ROLL_RETIRE, SAND_START. -/
def Obligations.KeyContextsBindRollAndErase : Prop :=
  (∀ (sess part session key role slot : Nat) (v : Spdm) (x : Session) (r : Role) (s : State), Vendor s sess v → isIssuer s v = true →
    sesOf s session = some x → x.manifest.roles[role]? = some r → x.state ≠ .ended → x.partition = part → keyInRange s part key = true →
    (keyOf s key).state = .free → r.kclass ≠ 2 → drbgOk s = true → freeSlot s = some slot →
    ∃ t, exec (.keyCtxBind sess part session key role) s = .next t ∧ Answered t .ok [] [] ∧ (keyOf t key).state = .active ∧
      (keyOf t key).cls = r.kclass ∧ (keyOf t key).partition = part ∧ (keyOf t key).session = session ∧ (keyOf t key).role = role ∧
      (keyOf t key).gen = (keyOf s key).gen + 1 ∧ (keyOf t key).slotCur = slot ∧ (slotOf t slot).state = .loaded ∧
      (∀ k, k ≠ key → keyOf t k = keyOf s k) ∧ t.mem = s.mem) ∧
  (∀ (sess part session role : Nat) (v : Spdm) (x : Session) (r : Role) (ss : BitVec 384) (s : State), Vendor s sess v →
    isIssuer s v = true → sesOf s session = some x → x.manifest.roles[role]? = some r → x.state ≠ .ended → x.partition = part →
    keyInRange s part r.lkey = true → keyInRange s part (r.lkey + 1) = true → (keyOf s r.lkey).state = .free →
    (keyOf s (r.lkey + 1)).state = .free → r.kclass = 2 → drbgOk s = true → x.ss = some ss → 2 ≤ emptySlots s →
    let c := match tlook x.rolls role with | none => 0 | some n => n + 1
    exec (.keyCtxBind sess part session r.lkey role) s = .next (answerSp
      (bindLath (bindLath s r.lkey part session role c ss) (r.lkey + 1) part session role (c + 1) ss) .ok [] [])) ∧
  (∀ (key part session role count : Nat) (ss : BitVec 384) (x : Session) (s : State), (freeSlot s).isSome = true → sesOf s session = some x →
    ∃ y, sesOf (bindLath s key part session role count ss) session = some y ∧ count ≤ tget 0 y.rolls role ∧
      tget 0 x.rolls role ≤ tget 0 y.rolls role ∧ (keyOf (bindLath s key part session role count ss) key).roll = count ∧
      (keyOf (bindLath s key part session role count ss) key).state = .active) ∧
  (∀ (sess key : Nat) (v : Spdm) (s : State), Vendor s sess v → (isIssuer s v = true ∨ ownsSession s v (keyOf s key).session = true) →
    key ≠ 0 → (keyOf s key).state ≠ .free →
    let u := ckptRevoke (revokeBound (revokeWaiting s key) key) key
    exec (.keyCtxErase sess key true) s = .next (answerSp (pumpEverything (clearReplay (zeroizeKey u key) key)) .ok [] []) ∧
    (keyOf (clearReplay (zeroizeKey u key) key) key).state = .free ∧ (∀ ctx, memKeyCheck s ctx (key + 256) = .keyRevoked) ∧
    ∃ t, exec (.keyCtxErase sess key false) s = .next t ∧ Answered t .ok [] [] ∧ (keyOf t key).state = .zeroizing ∧ t.mem = s.mem) ∧
  (∀ (sess session role a : Nat) (v : Spdm) (x : Session) (r : Role) (ss : BitVec 384) (s : State), Vendor s sess v → isIssuer s v = true →
    sesOf s session = some x → lathRole x role = some r → x.ss = some ss → pairActive s r.lkey = some a → x.state ≠ .ended →
    (keyOf s a).session = session →
    let partner := if a = r.lkey then r.lkey + 1 else r.lkey
    ((keyOf s partner).state = .free → (freeSlot s).isSome = true → drbgOk s = true →
      exec (.keyRollInstall sess session role ((keyOf s a).roll + 1)) s =
        .next (answerSp (pumpEverything (bindLath s partner x.partition session role ((keyOf s a).roll + 1) ss)) .ok [] []) ∧
      (keyOf (bindLath s partner x.partition session role ((keyOf s a).roll + 1) ss) partner).roll = (keyOf s a).roll + 1 ∧
      (keyOf (bindLath s partner x.partition session role ((keyOf s a).roll + 1) ss) partner).state = .active) ∧
    ((keyOf s partner).state = .active → exec (.keyRollRetire sess session role) s =
      .next (answerSp (modKey s partner (fun c => { c with retire := some s.fab.plumb.time })) .ok [] []))) ∧
  (∀ (sess key : Nat) (v : Spdm) (s : State), Vendor s sess v → (v.cls = .platform ∨ ownsSession s v (keyOf s key).session = true) → key ≠ 0 →
    (keyOf s key).state = .active → memClass (keyOf s key) = true →
    exec (.sandStart sess key) s = .next (answerSp (startSanding s key) .ok [] []))

/-- CKPT_CAPTURE, CKPT_RESTORE and CKPT_VERIFY of a served connection, and what they do as time passes. A request that breaks a
check is answered with that check's status and changes nothing else; an accepted one stands in its session (R332, R341, R344). A
capture that ends early answers its status and sets again every dirty bit that it cleared; one whose manifest has been written
answers IMAGE_LEN and the manifest's digest and takes its chain (R334, R335, R338). A granule of a restore is written only when
its tag and its digest pass, else the region's units are primed; the chain after a FULL or DIFF names the context and the manifest
(R342, R343). A verification writes nothing (R344). That the work goes on with time is the model's choice (log entry 61).
Completes (exec answers a next state): CKPT_CAPTURE, CKPT_RESTORE, CKPT_VERIFY. -/
def Obligations.CheckpointsCaptureRestoreAndVerify : Prop :=
  ((∀ (sess session : Nat) (b : Bytes) (v : Spdm) (x : Session) (s : State), Vendor s sess v →
    (isIssuer s v = true ∨ ownsSession s v session = true) → sesOf s session = some x → x.state ≠ .ended →
    (x.ckptBusy = true → exec (.ckptCapture sess session b) s = .next (answerSp s .busy [] [])) ∧
    (x.ckptBusy = false →
      (captureFieldsOk s x b = false → exec (.ckptCapture sess session b) s = .next (answerSp s .descInvalid [] [])) ∧
      (captureFieldsOk s x b = true → captureAllowed s session b = false →
        exec (.ckptCapture sess session b) s = .next (answerSp s .policyDenied [] [])) ∧
      (captureFieldsOk s x b = true → captureAllowed s session b = true → diffBaseOk x b = false →
        exec (.ckptCapture sess session b) s = .next (answerSp s .descInvalid [] [])) ∧
      (captureFieldsOk s x b = true → captureAllowed s session b = true → diffBaseOk x b = true → drbgOk s = true → (rootBank s).isSome = true →
        exec (.ckptCapture sess session b) s = .next (startCapture s sess session b) ∧
        ((slotOf s (capSlot b)).uses < (slotOf s (capSlot b)).limit → capStepVa b = 0 →
          ∃ y c, sesOf (startCapture s sess session b) session = some y ∧ y.ckptBusy = true ∧ y.capture = some c ∧ y.chain = x.chain ∧
            c.operands = b ∧ c.region = 0 ∧ c.cleared = [] ∧
            c.picks = (captureRegions b).map (fun r => (List.range r.grans).filter (fun g =>
              !(capKind b == 1) || unitDirty s (capContext b) (r.va + 65536 * g))) ∧
            (startCapture s sess session b).mem = s.mem)))) ∧
  (∀ (i : Nat) (v : Session) (c : Capture) (st : Status) (s : State), sesOf s i = some v → v.capture = some c →
    Answered (captureFail s i st) st [] [] ∧ (∀ g, (captureFail s i st).mem.clean.contains g = (s.mem.clean.contains g && !c.cleared.contains g)) ∧
    (captureFail s i st).mem.bytes = s.mem.bytes ∧
    ∃ y, sesOf (captureFail s i st) i = some y ∧ y.chain = v.chain ∧ y.capture = none ∧ y.ckptBusy = false) ∧
  (∀ (i : Nat) (v : Session) (c : Capture) (chain : Chain) (len : Nat) (d : Digest) (s : State), sesOf s i = some v → v.capture = some c →
    c.link.failed = none → c.link.idle = true → c.final = some (chain, len, d) → s.pow.dustSheet = false → dieWaits s hubDie = false →
    Answered (ckptStep s i) .ok [len] (digestBytes d) ∧ (ckptStep s i).mem = s.mem ∧
    ∃ y, sesOf (ckptStep s i) i = some y ∧ y.chain = some chain ∧ y.capture = none ∧ y.ckptBusy = false)) ∧
  ((∀ (sess session ctx : Nat) (targets : Bytes) (src : CkptSource) (v : Spdm) (x : Session) (s : State), Vendor s sess v →
    (isIssuer s v = true ∨ ownsSession s v session = true) → sesOf s session = some x → x.state ≠ .ended →
    let both := fun (verify : Bool) => exec (if verify then .ckptVerify sess session ctx targets src else .ckptRestore sess session ctx targets src) s
    (∀ verify, (x.ckptBusy = true → both verify = .next (answerSp s .busy [] [])) ∧
      (x.ckptBusy = false → restoreOperandsOk targets src = false → both verify = .next (answerSp s .descInvalid [] [])) ∧
      (x.ckptBusy = false → restoreOperandsOk targets src = true → (boundContext s session ctx = false ∨ placeKeyOk s session src.source src.key = false) →
        both verify = .next (answerSp s .policyDenied [] [])) ∧
      (x.ckptBusy = false → restoreOperandsOk targets src = true → boundContext s session ctx = true →
        placeKeyOk s session src.source src.key = true →
        (∃ t y, exec (.ckptRestore sess session ctx targets src) s = .next t ∧ sesOf t session = some y ∧ y.ckptBusy = true ∧ y.chain = x.chain ∧
          y.restore = some { verify := false, context := ctx, targets := targets, source := src } ∧ t.mem = s.mem ∧ t.sp.answer = s.sp.answer) ∧
        ∃ t y, exec (.ckptVerify sess session ctx targets src) s = .next t ∧ sesOf t session = some y ∧ y.ckptBusy = true ∧ y.chain = x.chain ∧
          y.restore = some { verify := true, context := ctx, targets := targets, source := src } ∧ t.mem = s.mem ∧ t.sp.answer = s.sp.answer))) ∧
  (∀ (i slot : Nat) (v : Session) (r : Restore) (b : Bytes) (s : State), sesOf s i = some v → v.capture = none → v.restore = some r → r.manifest = [] →
    (restoreFieldsOk s r.context r.targets b = false →
      Answered (restoreStart s i v r b) .descInvalid [] [] ∧ (restoreStart s i v r b).mem = s.mem) ∧
    (restoreFieldsOk s r.context r.targets b = true → restoreAllowed s i v r.context r.targets r.source b = none →
      Answered (restoreStart s i v r b) .policyDenied [] [] ∧ (restoreStart s i v r b).mem = s.mem) ∧
    (restoreFieldsOk s r.context r.targets b = true → restoreAllowed s i v r.context r.targets r.source b = some slot →
      (slotOf s slot).state = .loaded → (slotOf s slot).cls = 5 → (slotOf s slot).session = i → (slotOf s slot).uses < (slotOf s slot).limit →
      (aesUnwrap (slotKey (slotOf s slot)) (slice b 0x40 40) = none →
        Answered (restoreStart s i v r b) .tagMismatch [] [] ∧ (restoreStart s i v r b).mem = s.mem) ∧
      (∀ ck, aesUnwrap (slotKey (slotOf s slot)) (slice b 0x40 40) = some ck →
        (restoreBaseOk v r.context r.targets b = false → Answered (restoreStart s i v r b) .descInvalid [] []) ∧
        (restoreBaseOk v r.context r.targets b = true →
          ∃ y, sesOf (restoreStart s i v r b) i = some y ∧ y.restore = some { r with manifest := b, slot := slot, ck := ck } ∧ y.chain = v.chain)))) ∧
  (∀ (i off n : Nat) (r : Restore) (s : State), r.source.source = 0 →
    sourceBytes s i r off n = (some (.ok, slice r.source.host off n), s)) ∧
  (∀ (i g : Nat) (r : Restore) (t : Region) (rest : List Nat) (b : Bytes) (s w : State), sourceBytes s i r r.off 65600 = (some (.ok, b), w) →
    let o := openObject r.ck r.region 0 g (objectAad r.manifest) b
    ((o = none ∨ ∃ p, o = some p ∧ r.entries[g]? ≠ some (Config.sha384 p)) → restoreGranule s i r t g rest = restoreFail w i .tagMismatch) ∧
    (∀ p u, o = some p → r.entries[g]? = some (Config.sha384 p) →
      (r.verify = false → vwrite w r.context t.key (t.va + 65536 * g) p ((keyOf w t.key).cls == 1) = (.ok, u) →
        restoreGranule s i r t g rest = modRestore u i (fun r => { r with todo := rest, off := r.off + 65600, since := u.ns })) ∧
      (r.verify = true → restoreGranule s i r t g rest = modRestore w i (fun r => { r with todo := rest, off := r.off + 65600, since := w.ns })))) ∧
  (∀ (i : Nat) (v : Session) (r : Restore) (t : Region) (s : State), sesOf s i = some v → v.restore = some r → r.manifest ≠ [] →
    (targetsOf r.targets)[r.region]? = some t →
    Answered (restoreFail s i .tagMismatch) .tagMismatch [] [] ∧
    (r.verify = false → ∀ g ∈ t.phys s r.context, tlook (restoreFail s i .tagMismatch).mem.granules g = none) ∧
    (r.verify = true → (restoreFail s i .tagMismatch).mem = s.mem)) ∧
  (∀ (i : Nat) (v : Session) (r : Restore) (s : State), sesOf s i = some v → v.capture = none → v.restore = some r →
    let d := Config.sha384 r.manifest
    Answered (restoreDone s i v r) .ok [] (digestBytes d) ∧ (restoreDone s i v r).mem.bytes = s.mem.bytes ∧
    (r.verify = true → (restoreDone s i v r).mem = s.mem ∧ ∃ y, sesOf (restoreDone s i v r) i = some y ∧ y.chain = v.chain) ∧
    (r.verify = false → manifestKind r.manifest ≠ 2 →
      (∀ t ∈ targetsOf r.targets, ∀ g ∈ t.phys s r.context, (restoreDone s i v r).mem.clean.contains g = true) ∧
      ∃ y c, sesOf (restoreDone s i v r) i = some y ∧ y.restore = none ∧ y.ckptBusy = false ∧ y.chain = some c ∧ c.context = r.context ∧ c.prev = d ∧
        c.lastNo = some (le r.manifest 0x10 8) ∧
        let into := (targetsOf r.targets).map (fun t => (t.va, t.key, t.len))
        c.restored.head? = some (r.context, le r.manifest 0x10 8, into) ∧
        ∀ x ∈ (sesChain v r.context).restored, (x.1 ≠ r.context ∨ x.2.2.any (overlapsTarget into) = false) → x ∈ c.restored)) ∧
  (∀ (i : Nat) (v : Session) (r : Restore) (s : State), sesOf s i = some v → v.capture = none → v.restore = some r → r.verify = true →
    r.source.source = 0 → (ckptStep s i).mem = s.mem))

/-- LC_GET, LC_NONCE, LC_ADVANCE of a served connection: the state, its word and DEBUG_KILL are answered, in INVALID and SCRAP
without a session too; a nonce is drawn, which replaces the one before; a token that presents it consumes it, also where a check
fails; an authorised transition whose condition holds begins to program the target's bits on top of the word, from the lowest on,
one every 10 us (the time is the model's choice, log entry 37), and is answered after the last (R384 to R389). DEBUG_UNLOCK,
DEBUG_LOCK, DEBUG_KILL, DEBUG_DURATION_EXPIRY: a valid token opens the port in PROVISIONED, or in FIELD with no session open; the
unlocker closes it; a kill programs DEBUG_KILL and closes it for good; a duration that has run out closes it (R392 to R394). The
memory factory test modes are reached through the open port in TEST and RMA alone, past the cipher and the tags (R391); register
accesses above BAR0, which stand for accesses through the port (the model's choice, log entry 56), have no effect while it is
closed. Completes (exec answers a next state): LC_GET, LC_NONCE, LC_ADVANCE, DEBUG_CHALLENGE, DEBUG_UNLOCK, DEBUG_LOCK,
DEBUG_KILL, NONCE_LAPSE, DEBUG_DURATION_EXPIRY, RC_FIELD_READ, REGISTER_WRITE. -/
def Obligations.LifeCycleAndDebugRequests : Prop :=
  ((∀ (sess : Nat) (v : Spdm) (s : State), (Vendor s sess v ∨ spRuns s = true ∧ lcHalted s = true ∧ s.sp.programming = none) →
    exec (.lcGet sess) s = .next (answerSp s .ok [lcState s.sp.lcWord, s.sp.lcWord.toNat, s.sp.debugKill.toNat] (leBytes 16 Config.serial.toNat))) ∧
  (∀ (sess : Nat) (v : Spdm) (s : State), Vendor s sess v → drbgOk s = true →
    ∃ t u n, exec (.lcNonce sess) s = .next t ∧ exec (.debugChallenge sess) s = .next u ∧ t.sp.nonce = some n ∧ u.sp.nonce = some n ∧
      t.sp.nonceDebug = false ∧ u = { t with sp := { t.sp with nonceDebug := true } } ∧ t.sp.nonceAt = s.ns ∧
      Answered t .ok [] (keyBytes n) ∧ t.sp.draws = s.sp.draws + 1 ∧ t.mem = s.mem ∧ t.sp.slots = s.sp.slots) ∧
  (∀ (sess target : Nat) (v : Spdm) (token : AuthToken) (s : State), Vendor s sess v → tokenOk s token 1 = true →
    target = le token.bytes 5 1 → transition (lcState s.sp.lcWord) target = true → lcCondition (useNonce s) target token.bytes = true →
    mayProgram s = true →
    ∃ t, exec (.lcAdvance sess (.token token)) s = .next t ∧ t = advanceTo (useNonce s) target token.bytes ∧
      t.sp.programming = some (target, s.ns) ∧ t.sp.lcWord = s.sp.lcWord ∧ lcSettled t.sp = s.sp.lcWord ||| lcCode target) ∧
  (∀ (sess : Nat) (v : Spdm) (token : AuthToken) (s : State), Vendor s sess v → presents s token = true →
    (tokenOk s token 1 = false → exec (.lcAdvance sess (.token token)) s = .next (answerSp (useNonce s) .policyDenied [] [])) ∧
    (tokenOk s token 2 = false → exec (.debugUnlock sess token) s = .next (answerSp (useNonce s) .policyDenied [] [])) ∧
    (tokenOk s token 3 = false → exec (.debugKill sess (some token)) s = .next (answerSp (useNonce s) .policyDenied [] []))) ∧
  (∀ (target at' : Nat) (s : State), s.sp.programming = some (target, at') →
    (s.ns < at' + 10000 → programTick s = s) ∧
    (at' + 10000 ≤ s.ns → (nextBit s target = none → programTick s = endProgramming s target) ∧
      ∀ i, nextBit s target = some i → bit s.sp.lcWord.toNat i = false ∧ (∀ j < i, bit (lcCode target).toNat j = true → bit s.sp.lcWord.toNat j = true) ∧
        programTick s = { s with sp := { s.sp with programming := some (target, s.ns), lcWord := s.sp.lcWord ||| BitVec.ofNat 64 (2 ^ i) } })) ∧
  (∀ s : State, s.sp.nonce.isSome = true → s.sp.nonceAt + 600000000000 ≤ s.ns → exec .nonceLapse s = .next (useNonce s))) ∧
  ((∀ (sess : Nat) (v : Spdm) (token : AuthToken) (s : State), Vendor s sess v → tokenOk s token 2 = true →
    (le token.bytes 6 1 = 1 ∨ le token.bytes 6 1 = 2) → killed s = false →
    (lcState s.sp.lcWord = 2 ∨ (lcState s.sp.lcWord = 3 ∧ s.sp.sessions.all (fun x => x.2.state == .ended) = true)) →
    ∃ t, exec (.debugUnlock sess token) s = .next t ∧ Answered t .ok [] [] ∧ debugPortOpen t = true ∧
      t.sp.debugOpen = some (le token.bytes 6 1, s.ns, le token.bytes 8 4, some sess) ∧ t.sp.nonce = none ∧ t.sp.lcWord = s.sp.lcWord ∧ t.mem = s.mem) ∧
  (∀ (sess scope at' dur : Nat) (v : Spdm) (s : State), Vendor s sess v → s.sp.debugOpen = some (scope, at', dur, some sess) →
    exec (.debugLock sess) s = .next (answerSp (closeDebug s) .ok [] [])) ∧
  (∀ (sess : Nat) (v : Spdm) (token : AuthToken) (s : State), Vendor s sess v → tokenOk s token 3 = true →
    ∃ t, exec (.debugKill sess (some token)) s = .next t ∧ Answered t .ok [] [] ∧ t.sp.debugKill = 0xFF ∧ t.sp.debugOpen = none ∧
      debugPortOpen t = false ∧ t.sp.lcWord = s.sp.lcWord ∧ t.mem = s.mem) ∧
  (∀ (scope at' dur : Nat) (user : Option Nat) (s : State), s.sp.debugOpen = some (scope, at', dur, user) → at' + dur * 1000000000 ≤ s.ns →
    exec .debugDurationExpiry s = .next (closeDebug s) ∧ (closeDebug s).sp.debugOpen = none) ∧
  (∀ (on poison : Bool) (a tag gen : Nat) (cipher : Bytes) (s : State),
    ((debugPortOpen s = false ∨ (lcState s.sp.lcWord ≠ 1 ∧ lcState s.sp.lcWord ≠ 4)) →
      testSelectWrite s on = s ∧ arrayRead s a = none ∧ arrayWrite s a cipher tag gen poison = s) ∧
    (debugPortOpen s = true → (lcState s.sp.lcWord = 1 ∨ lcState s.sp.lcWord = 4) →
      (testSelectWrite s on).sp.testAccess = on ∧
      (s.sp.testAccess = true → arrayRead s a = some ((lineInfo s (lineBase a)).cipher, lineMeta s (lineBase a)) ∧
        (let l := lineInfo (arrayWrite s a cipher tag gen poison) (lineBase a)
         l.cipher = cipher ∧ l.tag = tag % 2 ^ 28 ∧ l.gen = gen % 4 ∧ l.poison = poison) ∧
        (arrayWrite s a cipher tag gen poison).mem.bytes = s.mem.bytes))) ∧
  (∀ (a size : Nat) (v : DWord) (racing : Nat) (s : State),
    exec (.registerWrite (debugBase + a) size v) s = .next (debugWrite s a size v.toNat) ∧
    exec (.rcFieldRead (debugBase + a) size racing) s = .next (giveRead (debugRead s a size racing)) ∧
    (debugPortOpen s = false → debugWrite s a size v.toNat = s ∧ debugRead s a size racing = (0, s))))

/-- ENTROPY_STARTUP, ENTROPY_TEST_FAILURE, DRBG_RESEED, ROOT_SECRET_GENERATE: 1,024 samples that pass both continuous tests make
the DRBG ready and a third failure in a row stops it; a value 81 times in a row, or 434 times in a window of 512 that it begins,
fails the tests; a test failure leaves the DRBG not ready; a reseed restarts its count; in PROVISIONED a module without a root
secret commits one to its first blank bank (R351 to R354). Completes (exec answers a next state): ENTROPY_STARTUP,
ENTROPY_TEST_FAILURE, DRBG_RESEED, ROOT_SECRET_GENERATE. -/
def Obligations.EntropySeedsTheRootSecret : Prop :=
  (∀ s : State, s.pow.state ≠ .off → s.sp.stopped = false → s.sp.entropyOk = false →
    (∀ l : List Nat, l.length = 1024 → samplesOk l = true →
      ∃ u, exec (.entropyStartup l) s = .next (tryPowerUp u) ∧ drbgOk u = true ∧ u.sp.generates = 0 ∧ u.sp.startFails = 0 ∧ u.mem = s.mem) ∧
    (∀ l : List Nat, (l.length ≠ 1024 ∨ samplesOk l = false) →
      ∃ t, exec (.entropyStartup l) s = .next t ∧ t.sp.startFails = s.sp.startFails + 1 ∧ t.sp.stopped = decide (2 ≤ s.sp.startFails) ∧
      t.sp.entropyOk = false ∧ t.mem = s.mem)) ∧
  (∀ s : State, s.sp.entropyOk = true → ∃ t, exec .entropyTestFailure s = .next t ∧ drbgOk t = false ∧
    t = { s with sp := { s.sp with entropyOk := false, drbgReady := false } }) ∧
  (∀ (pre post : List Nat) (x : Nat), samplesOk (pre ++ List.replicate 81 x ++ post) = false) ∧
  (∀ pre w post : List Nat, pre.length % 512 = 0 → w.length = 512 → 434 ≤ w.count (w.headD 0) → samplesOk (pre ++ w ++ post) = false) ∧
  (∀ s : State, s.sp.entropyOk = true → s.sp.stopped = false → (s.sp.drbgReady = false ∨ 65536 ≤ s.sp.generates ∨ s.sp.seededAt + 1000000000 ≤ s.ns) →
    exec (.drbgReseed true) s = .next { s with sp := { s.sp with drbgReady := true, generates := 0, seededAt := s.ns } } ∧
    exec (.drbgReseed false) s = .next { s with sp := { s.sp with drbgReady := false } }) ∧
  (∀ s : State, lcState s.sp.lcWord = 2 → rootBank s = none → spRuns s = true → drbgOk s = true → s.sp.bankA = 0 →
    ∃ t b, exec .rootSecretGenerate s = .next t ∧ t.sp.bankA = b ∧ rootBank t = some b ∧ t.sp.bankB = s.sp.bankB ∧ t.mem = s.mem)

/-- The SPDM exchanges that a served processor answers before a secured session exists (R364, R354): versions 1.2 and 1.3, the
capability flags, the one algorithm of each kind, the certificate chain and its digest, a signed challenge, the measurement
blocks, UnsupportedRequest for anything else, and UNSUPPORTED for the reserved codes of R384. A hybrid secured session (R365):
PQ_OFFER answers a KEM ciphertext under a new handle; a key exchange that names that offer opens the session in its requester's
class, its secret the ECDH secret before that of the offer; FINISH completes it and is answered by the module's own PQ_SIGN;
PQ_SIGN verifies it; PQ_COUNTERSIGN signs the transcript of its last signed measurements (R366); heartbeat, key update and end act
on it. While a firmware activation waits, an exchange is BUSY (R350). Completes (exec answers a next state): PQ_OFFER, PQ_SIGN,
PQ_COUNTERSIGN, SPDM_KEY_EXCHANGE, SPDM_FINISH, SPDM_GET_MEASUREMENTS, SPDM_UNSUPPORTED_REQUEST, SPDM_GET_VERSION,
SPDM_GET_CAPABILITIES, SPDM_NEGOTIATE_ALGORITHMS, SPDM_GET_DIGESTS, SPDM_GET_CERTIFICATE, SPDM_CHALLENGE, SPDM_HEARTBEAT,
SPDM_KEY_UPDATE, SPDM_END_SESSION. -/
def Obligations.SpdmAnswersAndSecuredSessions : Prop :=
  (∀ (sess : Nat) (s : State), SpServes s → s.sp.fwWait = false →
    exec (.spdmGetVersion sess) s = .next (answerSp s .ok [0x12, 0x13] []) ∧
    exec (.spdmGetCapabilities sess) s = .next (answerSp s .ok [capabilityFlags] []) ∧
    (∀ asym hash dhe aead, bit asym.base 7 = true → bit hash 1 = true → bit dhe 4 = true → bit aead.aead 1 = true → bit aead.schedule 0 = true →
      exec (.spdmNegotiateAlgorithms sess asym hash dhe aead) s = .next (answerSp s .ok [0x80, if bit asym.req 7 then 0x80 else 0, 0x2,
        if bit aead.meas 0 then 0x4 else 0, 0x10, 0x2, 0x1, if bit aead.meas 0 then 0x1 else 0] [])) ∧
    (∀ asym hash dhe aead, (bit asym.base 7 = false ∨ bit hash 1 = false ∨ bit dhe 4 = false ∨ bit aead.aead 1 = false ∨ bit aead.schedule 0 = false) →
      exec (.spdmNegotiateAlgorithms sess asym hash dhe aead) s = .next (spdmError s 0x01)) ∧
    (∀ code, (code < 0x27 ∨ 0x2F < code) → exec (.spdmUnsupportedRequest sess code) s = .next (spdmError s 0x07)) ∧
    (∀ code v, 0x27 ≤ code → code ≤ 0x2F → Vendor s sess v → exec (.spdmUnsupportedRequest sess code) s = .next (answerSp s .unsupported [] [])) ∧
    ((rootBank s).isSome = true →
      exec (.spdmGetDigests sess) s = .next (answerSp s .ok [1] (digestBytes (Config.sha384 Config.certificate))) ∧
      exec (.spdmGetCertificate sess) s = .next (answerSp s .ok [0] Config.certificate) ∧
      (let m := digestBytes (Config.sha384 Config.certificate) ++ digestBytes (Config.sha384 (allBlocks s))
       exec (.spdmChallenge sess) s = .next (answerSp s .ok [] (m ++ (Config.sign m).take 96))) ∧
      (∀ i b, (i ≠ 0 ∧ i ≠ 0xFF ∧ block s i = some b ∨ i = 0xFF ∧ b = allBlocks s) → exec (.spdmGetMeasurements sess i) s =
        .next (answerSp { s with sp := { s.sp with measured := tins s.sp.measured sess (measTranscript i b) } } .ok []
          (b ++ (Config.sign (measTranscript i b)).take 96))) ∧
      (∀ i, i ≠ 0 → i ≠ 0xFF → block s i = none → exec (.spdmGetMeasurements sess i) s = .next (spdmError s 0x01)))) ∧
  ((∀ (sess : Nat) (ek : Bytes) (s : State), SpServes s → s.sp.fwWait = false → drbgOk s = true →
    ∃ t ct d, exec (.pqOffer sess ek) s = .next t ∧ Answered t .ok [s.sp.nextHandle] (ct ++ leBytes 8 s.sp.nextHandle) ∧
      (∃ k, t.sp.offers = s.sp.offers ++ [(s.sp.nextHandle, sess, d, k)]) ∧ t.sp.nextHandle = s.sp.nextHandle + 1 ∧ t.mem = s.mem) ∧
  (∀ (sess requester handle : Nat) (identity offer : Digest) (k : Bytes) (c : ReqClass) (s : State), SpServes s → s.sp.fwWait = false →
    drbgOk s = true → s.sp.spdm.length < 64 →
    s.sp.offers.find? (fun o => o.1 == handle && o.2.1 == sess && o.2.2.1 == offer) = some (handle, sess, offer, k) →
    tlook s.sp.spdm sess = none → classOf s requester identity = some c →
    ∃ t ecdh, exec (.spdmKeyExchange sess requester identity handle offer) s = .next t ∧ Answered t .ok [] (digestBytes (ownIdentity s)) ∧
      tlook t.sp.spdm sess = some { cls := c, secret := leBytes 48 ecdh ++ k } ∧ (handle, sess, offer, k) ∉ t.sp.offers ∧
      ∀ i, i ≠ sess → tlook t.sp.spdm i = tlook s.sp.spdm i) ∧
  (∀ (sess : Nat) (v : Spdm) (s : State), SpServes s → s.sp.fwWait = false → tlook s.sp.spdm sess = some v → v.finished = false →
    (∃ t th2, exec (.spdmFinish sess true) s = .next t ∧ tlook t.sp.spdm sess = some { v with finished := true, pqSigned := v.cls == .driver, th2 := th2 } ∧
      Answered t .ok [] (if (rootBank s).isSome then (Config.sign (digestBytes th2)).drop 96 else []) ∧ t.mem = s.mem ∧
      ∀ i, i ≠ sess → tlook t.sp.spdm i = tlook s.sp.spdm i) ∧
    exec (.spdmFinish sess false) s = .next (spdmError (dropSpdm s sess) 0x06)) ∧
  (∀ (sess requester handle : Nat) (identity offer : Digest) (ek : Bytes) (s : State), SpServes s → s.sp.fwWait = true →
    exec (.pqOffer sess ek) s = .next (answerSp s .busy [] []) ∧
    exec (.spdmKeyExchange sess requester identity handle offer) s = .next (answerSp s .busy [] []) ∧
    exec (.spdmChallenge sess) s = .next (answerSp s .busy [] [])) ∧
  (∀ (sess : Nat) (v : Spdm) (s : State), SpServes s → s.sp.fwWait = false → tlook s.sp.spdm sess = some v → v.finished = true →
    exec (.pqSign sess true) s = .next (answerSp (setSpdm s sess { v with pqSigned := true }) .ok [] []) ∧
    exec (.pqSign sess false) s = .next (answerSp s .policyDenied [] []) ∧
    exec (.spdmHeartbeat sess) s = .next (answerSp s .ok [] []) ∧
    exec (.spdmKeyUpdate sess) s = .next (answerSp (setSpdm s sess { v with keyGen := v.keyGen + 1 }) .ok [] []) ∧
    exec (.spdmEndSession sess) s = .next (answerSp (dropSpdm s sess) .ok [] []) ∧ tlook (dropSpdm s sess).sp.spdm sess = none) ∧
  (∀ (sess : Nat) (v : Spdm) (m : Bytes) (s : State), Vendor s sess v → (rootBank s).isSome = true → tlook s.sp.measured sess = some m →
    exec (.pqCountersign sess) s = .next (answerSp s .ok [] ((Config.sign m).drop 96))))

/-- CLKGATE_WRITE, CLKGATE_TAKE_EFFECT, DOMAIN_DRAIN_END, DOMAIN_WAKE_COMPLETE, CLUSTER_CLOCK_STOP, CLUSTER_OFF_DELAY: in LOCAL
mode a gate write is dropped; a gated Grout or port block stops its work; a drained domain is sealed, its held requests end with
DOMAIN_SEALED, it is switched, and what waited for the drain goes on; a woken domain is ON; an idle cluster loses its clock after
2 us and its power after its partition's delay (R415 to R423, Table 17.6). Completes (exec answers a next state): CLKGATE_WRITE,
CLKGATE_TAKE_EFFECT, DOMAIN_DRAIN_END, DOMAIN_WAKE_COMPLETE, CLUSTER_CLOCK_STOP, CLUSTER_OFF_DELAY. -/
def Obligations.BlocksGateAndDomainsSwitch : Prop :=
  (∀ (offset : Nat) (v : Word) (s : State), hostServed s = true → s.sp.authority = 0 → exec (.clkgateWrite offset v) s = .next s) ∧
  (∀ (v : Word) (s : State), hostServed s = true → s.sp.authority = 1 → gateBit s 120 = true → gateBit s 121 = true →
    gateBit s 122 = true → v.toNat % 8 = 6 →
    ∃ t, exec (.clkgateWrite 0x050 v) s = .next t ∧ gateBit t 120 = false ∧ t.pow.cgPend = s.pow.cgPend ++ [120] ∧ t.mem = s.mem ∧ t.cores = s.cores) ∧
  (∀ s : State, s.pow.cgPend.contains 120 = true →
    ∃ u, exec (.clkgateTakeEffect 120) s = .next (progress { u with pow := { u.pow with cgPend := u.pow.cgPend.filter (· != 120) } }) ∧
      u = s.fab.grouts.foldl (fun s g => groutFail s g .aborted) s) ∧
  (∀ (d : Nat) (s : State), (domOf s d).state = .draining → s.pow.dustSheet = false → domainBusy s d = false →
    exec (.domainDrainEnd d) s = .next (powerProgress (progress (releaseLink (refreshClusters (switchOff
      ((domOf s d).reqs.foldl (fun s q => sealRequest s q.req) (setDom s d { domOf s d with state := .sealed })) d (domOf s d).target))))) ∧
    (∀ u target, (domOf (switchOff u d target) d).state = target)) ∧
  (∀ (d : Nat) (s : State), (domOf s d).state = .waking → (domOf s d).target = .on → 88 ≤ d → s.pow.dustSheet = false →
    ∃ u, exec (.domainWakeComplete d) s = .next (powerProgress (progress (pumpEverything u))) ∧ (domOf u d).state = .on ∧
      u.mem = s.mem ∧ u.cores = s.cores ∧ ∀ e, e ≠ d → domOf u e = domOf s e) ∧
  (∀ (k t0 : Nat) (s : State), (clusterOf s k).idleAt = some t0 → (clusterOf s k).clock = true → isIdle s k = true → t0 + 2000 ≤ s.ns →
    (dtActive s = false ∨ (clusterOf s k).partition = none) →
    exec (.clusterClockStop k) s = .next (setCluster s k { clusterOf s k with clock := false, stoppedAt := some s.ns })) ∧
  (∀ (k p t0 : Nat) (s : State), (clusterOf s k).partition = some p → (clusterOf s k).stoppedAt = some t0 → (clusterOf s k).clock = false →
    isIdle s k = true → (partOf s p).offDelay ≠ 0 → t0 + (partOf s p).offDelay * 1000 ≤ s.ns → (domOf s k).state = .on → dtActive s = false →
    exec (.clusterOffDelay k) s = .next (setDom s k { domOf s k with state := .draining, target := .off, since := s.ns }))

/-- CLOCK_LADDER_STEP, DVFS_DECISION, CLOCK_LOSS, CLOCK_RECOVERY, CRYSTAL_RETURN: a moving clock takes one step, no sooner than 64
cycles after the last (the other clocks of a die on the ladder that log entry 26 gives them); a performance loop's choice becomes
the target within the bounds, at once while the clock is stopped; the loss of the reference or of a main PLL enters the dust sheet
of a module in ACTIVE or STANDBY; after 1 ms the clocks recover, and before RESET_DONE power-up goes on; the crystal's return is
noted (R412 to R414, R424 to R426). Completes (exec answers a next state): CLOCK_LADDER_STEP, DVFS_DECISION, CLOCK_LOSS,
CLOCK_RECOVERY, CRYSTAL_RETURN. -/
def Obligations.ClocksStepFailOverAndRecover : Prop :=
  (∀ (c : Nat) (s : State), s.pow.dustSheet = false → (clockOf s c).moving = true → c < 64 → (clusterOf s c).clock = true →
    (clockOf s c).heldAt + stepHold (clusterOf s c).n ≤ s.ns →
    let m := clockMove (clockOf s c) (clusterOf s c).n
    exec (.clockLadderStep c) s = .next (updateThrottle (powerProgress (setCluster (setClock s c { m.1 with heldAt := s.ns }) c
      { clusterOf s c with n := m.2 })))) ∧
  (∀ (c : Nat) (s : State), s.pow.dustSheet = false → (clockOf s c).moving = true → c < 64 → (clusterOf s c).clock = true →
    s.ns < (clockOf s c).heldAt + stepHold (clusterOf s c).n → exec (.clockLadderStep c) s = .next s) ∧
  (∀ (c : Nat) (s : State), s.pow.dustSheet = false → (clockOf s c).moving = true → 64 ≤ c →
    (clockOf s c).heldAt + stepHold (clockOf s c).step ≤ s.ns →
    let m := clockMove (clockOf s c) (clockOf s c).step
    exec (.clockLadderStep c) s = .next (powerProgress (setClock s c { m.1 with step := m.2, heldAt := s.ns }))) ∧
  (∀ (k n : Nat) (s : State), enabled s k = true → s.pow.dustSheet = false → (domOf s k).state = .on →
    (clockOf s k).want = (clockOf s k).backup → (clockOf s k).ladder = false →
    ∃ t, exec (.dvfsDecision k n) s = .next t ∧ (clockOf t k).target = boundedN s k n ∧
      ((clusterOf s k).clock = true → (clockOf t k).moving = ((clusterOf s k).n != boundedN s k n) ∧ clusterOf t k = clusterOf s k) ∧
      ((clusterOf s k).clock = false → (clusterOf t k).n = boundedN s k n) ∧ (∀ j, j ≠ k → clockOf t j = clockOf s j) ∧ t.mem = s.mem) ∧
  (∀ s : State, sheetable s = true →
    exec (.clockLoss .refclk) s = .next (enterDust { s with pow := { s.pow with refclkOk := false } } 0) ∧
    (enterDust { s with pow := { s.pow with refclkOk := false } } 0).pow.dustSheet = true) ∧
  (∀ (d : Nat) (s : State), sheetable s = true → d < 5 →
    exec (.clockLoss (.mainPll d)) s = .next (enterDust { s with pow := { s.pow with mainOk := tput true s.pow.mainOk d false } } (2 + d))) ∧
  (∀ (d : Nat) (s : State), s.pow.state ≠ .off → d < 5 →
    exec (.clockLoss (.backupPll d)) s = .next { s with pow := { s.pow with backupOk := tput true s.pow.backupOk d false } }) ∧
  (∀ s : State, s.pow.dustSheet = true → s.pow.dustAt + 1000000 ≤ s.ns → exec .clockRecovery s = .next (clockRecover s)) ∧
  (∀ s : State, s.pow.dustSheet = false → (s.pow.refclkOk = false ∨ s.pow.mainOk ≠ []) →
    exec .clockRecovery s = .next (tryPowerUp { s with pow := { s.pow with refclkOk := true, mainOk := [] } })) ∧
  (∀ s : State, ∃ t, exec .crystalReturn s = .next t ∧ t.pow.crystalOk = true ∧ t.pow.backupOk = [] ∧ t.mem = s.mem ∧ t.cores = s.cores)

/-- The safety loops and the brake (R427 to R431): each override of a powered module begins, skips cycles or lowers steps of its
clusters, and ends on request; BRAKE_IN# begins override 6 and counts one post at once and one more every second, and its release
ends it 1 ms after the last trigger; THROTTLE_OUT# is released 100 us after its last cause and 1 ms after it began. Completes
(exec answers a next state): FAST_CURRENT_OVERRIDE, SUSTAINED_CURRENT_STEP, VOLTAGE_DROOP, TEMPERATURE_THROTTLE_STEP,
TEMPERATURE_FLOOR, THROTTLE_OUT_RELEASE, BRAKE_ASSERTED_REPEAT, BRAKE_IN_TRIGGER, BRAKE_RELEASE, SAFETY_OVERRIDE_END. -/
def Obligations.SafetyLoopsOverrideAndRelease : Prop :=
  (∀ s : State, powered s = true →
    exec .fastCurrentOverride s = .next (updateThrottle (setSkip (beginOverride s 0))) ∧
    (∀ die, die < 5 → exec (.voltageDroop die) s = .next (updateThrottle (setSkip (noteDroop (beginOverride s 2) die)))) ∧
    exec .sustainedCurrentStep s = .next (lowerStep s 1) ∧ exec .temperatureThrottleStep s = .next (lowerStep s 3) ∧
    exec .temperatureFloor s = .next (updateThrottle (updateFloor (beginOverride s 4))) ∧
    (∀ loop, (beginOverride s loop).pow.overrides.contains loop = true ∧ (beginOverride s loop).mem = s.mem ∧ (beginOverride s loop).cores = s.cores)) ∧
  (∀ (loop : Nat) (s : State), s.pow.overrides.contains loop = true → (loop = 1 ∨ loop = 3) → tget 0 s.pow.lowAt loop + 1000000 ≤ s.ns →
    exec (.safetyOverrideEnd loop) s = .next (updateThrottle (updateFloor (endOverride s loop))) ∧
    (endOverride s loop).pow.overrides.contains loop = false) ∧
  (∀ s : State, (s.pow.overrides.contains 0 = true →
      exec (.safetyOverrideEnd 0) s = .next (updateThrottle (updateFloor (setSkip (endOverride s 0))))) ∧
    (s.pow.overrides.contains 2 = true → exec (.safetyOverrideEnd 2) s = .next (updateThrottle (updateFloor (setSkip
      { endOverride s 2 with pow := { (endOverride s 2).pow with droops := [] } })))) ∧
    (s.pow.overrides.contains 4 = true → exec (.safetyOverrideEnd 4) s = .next (updateThrottle (updateFloor (endOverride s 4)))) ∧
    ∀ k < 64, (clusterOf s k).clock = true → (clusterOf (setSkip s) k).skip = skipNow s k) ∧
  (∀ s : State, s.pow.state ≠ .off → s.pow.brake = false →
    ∃ u, exec .brakeInTrigger s = .next (updateThrottle (updateFloor (beginOverride u 6))) ∧ u.pow.brake = true ∧ u.pow.brakeTrig = s.ns ∧
      u.pow.brakePosts = 1 ∧ u.mem = s.mem ∧ u.cores = s.cores) ∧
  (∀ s : State, s.pow.brake = true → s.pow.brakeAt + s.pow.brakePosts * 1000000000 ≤ s.ns →
    ∃ t, exec .brakeAssertedRepeat s = .next t ∧ t.pow = { s.pow with brakePosts := s.pow.brakePosts + 1 } ∧ t.mem = s.mem ∧ t.cores = s.cores) ∧
  (∀ s : State, s.pow.brake = true → s.pow.brakeTrig + 1000000 ≤ s.ns →
    exec .brakeRelease s = .next (updateThrottle (updateFloor (endOverride { s with pow := { s.pow with brake := false, brakePosts := 0 } } 6)))) ∧
  (∀ (c : Nat) (s : State), s.pow.throttle = true → throttleNow s = false → s.pow.throttleClear = some c → c + 100000 ≤ s.ns →
    s.pow.throttleAt + 1000000 ≤ s.ns →
    exec .throttleOutRelease s = .next { s with pow := { s.pow with throttle := false, throttleClear := none } })

/-- Input power, PERST#, the temperature trip and the cables (R465 to R473, Table 20.4): 39 to 62 V starts the island; below 37 V
or above 62 V all power is lost with all work, memory, slots and sessions; a brown-out lowers the power limit until 40 V; PERST#
resets the module, its release powers it up; a trip halts it; a cable starts or stops its eight ports. Completes (exec answers a
next state): TEMPERATURE_TRIP, TRIP_COOLDOWN_RELEASE, INPUT_POWER_UP, INPUT_BROWN_OUT, INPUT_LOCKOUT, INPUT_OVERVOLTAGE,
PERST_ASSERT, PERST_DEASSERT, CABLE_INSERT, CABLE_REMOVE, BROWN_OUT_RECOVERY, OVERVOLTAGE_RECOVERY. -/
def Obligations.PowerResetTripAndCables : Prop :=
  (∀ (mv : Nat) (s : State),
    (s.pow.state = .off → 39000 ≤ mv → mv ≤ 62000 → exec (.inputPowerUp mv) s = .next (islandStart s mv)) ∧
    (s.pow.state ≠ .off → 37000 ≤ mv → mv < 40000 →
      exec (.inputBrownOut mv) s = .next (updateThrottle { s with pow := { s.pow with mv := mv, brownOut := true } })) ∧
    (s.pow.brownOut = true → 40000 ≤ mv →
      exec (.brownOutRecovery mv) s = .next (updateThrottle { s with pow := { s.pow with mv := mv, brownOut := false } })) ∧
    (s.pow.state ≠ .off → mv < 37000 → exec (.inputLockout mv) s = .next (losePower s mv)) ∧
    (s.pow.state ≠ .off → 62000 < mv → exec (.inputOvervoltage mv) s = .next (losePower s mv)) ∧
    (s.pow.state = .off → 62000 < s.pow.mv → 39000 ≤ mv → mv < 60000 → exec (.overvoltageRecovery mv) s = .next (islandStart s mv))) ∧
  (∀ (mv : Nat) (s : State), (losePower s mv).pow.state = .off ∧ (losePower s mv).cores = [] ∧ (losePower s mv).queues = [] ∧
    (losePower s mv).mem.bytes = [] ∧ (losePower s mv).sp.slots = [] ∧ (losePower s mv).sp.sessions = [] ∧
    (losePower s mv).sp.lcWord = s.sp.lcWord ∧ (losePower s mv).sp.bankA = s.sp.bankA ∧ (losePower s mv).sp.verSp = s.sp.verSp) ∧
  (∀ s : State, s.pow.state ≠ .off → ∃ t, exec .perstAssert s = .next t ∧ t.pow.state = .island ∧ t.pow.perst = true ∧ t.pow.resetDone = false ∧
    t.cores = [] ∧ t.plans = [] ∧ t.queues = [] ∧ t.contexts = [] ∧ t.mem.bytes = [] ∧ t.sp.lcWord = s.sp.lcWord) ∧
  (∀ (slot : Nat) (s : State), s.pow.perst = true → s.pow.state ≠ .off →
    exec (.perstDeassert slot) s = .next (tryPowerUp { s with pow := { s.pow with perst := false, slotId := slot % 64 } })) ∧
  (∀ s : State, s.pow.perst = false → s.pow.state = .island → s.pow.resetDone = false → lcHalted s = false → resetHeld s = false → drbgOk s = true →
    s.sp.programming = none →
    (tryPowerUp s).pow.state = .active ∧ (tryPowerUp s).pow.resetDone = true ∧ (∀ d, 64 ≤ d → d < 96 → (domOf (tryPowerUp s) d).state = .on)) ∧
  (∀ s : State, (s.pow.state = .active ∨ s.pow.state = .standby) → ∃ t, exec .temperatureTrip s = .next t ∧ t.pow.state = .halted ∧
    t.pow.tripped = true ∧ t.pow.cooling = true ∧ t.pow.throttle = true ∧ t.cores = [] ∧ t.queues = [] ∧ t.mem.bytes = []) ∧
  (∀ s : State, s.pow.cooling = true → exec .tripCooldownRelease s = .next (tryPowerUp { s with pow := { s.pow with cooling := false } })) ∧
  (∀ (con : Nat) (s : State), con < 4 →
    (∃ t, exec (.cableInsert con) s = .next t ∧ (∀ p ∈ portsOf con, (portOf t p).cable = true) ∧ (∀ p, p ∉ portsOf con → portOf t p = portOf s p) ∧
      t.mem = s.mem) ∧
    (∃ t, exec (.cableRemove con) s = .next t ∧ (∀ p ∈ portsOf con, (portOf t p).cable = false ∧ (portOf t p).state = .down) ∧
      (∀ p, p ∉ portsOf con → portOf t p = portOf s p) ∧ t.mem = s.mem))

/-- SMBUS_STUCK, SMBUS_RESUME, SMBUS_ALERT_RESPONSE, MCTP_CONTROL_MESSAGE, PLDM_FW_TRANSFER, PLDM_APPLY, PLDM_ACTIVATE_FIRMWARE,
PLDM_SENSOR_READ, PLDM_FRU_READ, SENSOR_REFRESH, PLATFORM_MANAGEMENT_REQUEST: what the platform's buses set, stage, activate and
read; the platform's management commands run like those of queue 0 (R348, R476 to R486). Completes (exec answers a next state):
SMBUS_STUCK, SMBUS_RESUME, SMBUS_ALERT_RESPONSE, MCTP_CONTROL_MESSAGE, PLDM_FW_TRANSFER, PLDM_APPLY, PLDM_ACTIVATE_FIRMWARE,
PLDM_SENSOR_READ, PLDM_FRU_READ, SENSOR_REFRESH, PLATFORM_MANAGEMENT_REQUEST. -/
def Obligations.PlatformBusesAnswer : Prop :=
  (∀ (scl sda : Bool) (s : State), s.pow.state ≠ .off → (scl = true ∨ sda = true) → s.pow.smbusUp = true →
    ∃ t, exec (.smbusStuck scl sda) s = .next t ∧ t.pow.smbusUp = false ∧ t.pow.stuckCount = satAdd 32 s.pow.stuckCount 1 ∧
      t.pow.mctpMsg = false ∧ t.mem = s.mem ∧ t.cores = s.cores) ∧
  (∀ s : State, exec .smbusResume s = .next { s with pow := { s.pow with smbusUp := true } } ∧
    (s.pow.smbusUp = true → exec .smbusAlertResponse s = .next { s with pow := { s.pow with mctpMsg := false } })) ∧
  (∀ (binding eid : Nat) (s : State), mctpServed s = true → (binding = 0 ∧ s.pow.smbusUp = true ∨ binding = 1 ∧ s.pow.perst = false) → 8 ≤ eid →
    eid ≤ 254 → ∃ t, exec (.mctpControlMessage binding eid) s = .next t ∧ Answered t .ok [eid] [] ∧ tget 0 t.pow.eids binding = eid ∧
      (∀ b, b ≠ binding → tget 0 t.pow.eids b = tget 0 s.pow.eids b) ∧ t.mem = s.mem) ∧
  (∀ (comp target version : Nat) (image : Digest) (s : State), SpServes s → componentTarget comp = some target →
    exec (.pldmFwTransfer comp image version true) s =
      .next (answerSp { s with sp := { s.sp with transfer := some (target, image, version) } } .ok [] []) ∧
    exec (.pldmFwTransfer comp image version false) s = .next (answerSp { s with sp := { s.sp with transfer := none } } .policyDenied [] []) ∧
    (s.sp.transfer = some (target, image, version) → ∃ t, exec (.pldmApply comp) s = .next t ∧ Answered t .ok [] [] ∧
      tlook t.sp.staged target = some (image, version) ∧ t.sp.transfer = none ∧ t.mem = s.mem)) ∧
  (∀ (sess : Nat) (s : State), SpServes s → platformSession s sess = true → s.sp.staged.isEmpty = false → s.sp.fwWait = false →
    (queueOf s mgmtQueue).running = none → keyOpInFlight s = false →
    exec (.pldmActivateFirmware sess) s = .next (answerSp (fwBoth s).2 (fwBoth s).1 [] [])) ∧
  (∀ s : State, mctpServed s = true →
    exec (.pldmSensorRead 1) s = .next (answerSp s .ok [s.pow.mvRead] []) ∧ exec (.pldmSensorRead 2) s = .next (answerSp s .ok [s.pow.watts] []) ∧
    exec (.pldmSensorRead 3) s = .next (answerSp s .ok [hottest s] []) ∧ exec (.pldmSensorRead 9) s = .next (answerSp s .ok [s.pow.inlet] []) ∧
    (∀ d, d < 5 → exec (.pldmSensorRead (4 + d)) s = .next (answerSp s .ok [tget 0 s.pow.temps d] [])) ∧
    exec .pldmFruRead s = .next (answerSp s .ok [s.sp.part, s.pow.slotId, s.sp.verSp, s.sp.verHub] (leBytes 16 Config.serial.toNat))) ∧
  (∀ (mv watts inlet outlet : Nat) (temps : List Nat) (s : State), s.pow.state ≠ .off →
    ∃ t, exec (.sensorRefresh mv watts temps inlet outlet) s = .next t ∧ t.pow.mv = mv ∧ t.pow.mvRead = mv ∧ t.pow.watts = watts ∧ t.pow.inlet = inlet ∧
      t.pow.outlet = outlet ∧ (∀ d, d < 5 → tget 0 t.pow.temps d = nth temps d) ∧ t.mem = s.mem ∧ t.cores = s.cores ∧ t.regs = s.regs) ∧
  (∀ (sess : Nat) (entry : Bytes) (s : State), SpServes s → platformSession s sess = true → localOp (opcodeOf entry) = true →
    s.sp.fwWait = false → (queueOf s mgmtQueue).running = none → hostServed s = true →
    exec (.platformManagementRequest sess entry) s =
      .next (progress (manage (modQueue s mgmtQueue (fun v => { v with running := some (freshRunning s entry) })) mgmtQueue entry)))

/-- A register is reached by an aligned 32-bit access only: of any other size or alignment, outside the MSI-X table, a write is
dropped and a read returns 0, and nothing else of the module changes (R6). -/
def Obligations.RegisterAccessesAreAlignedWords : Prop :=
  ∀ (addr size : Nat) (v : DWord) (racing : Nat) (s : State), addr < debugBase → msixAt addr = none → (size ≠ 4 ∨ addr % 4 ≠ 0) →
    exec (.registerWrite addr size v) s = .next s ∧
    exec (.rcFieldRead addr size racing) s = .next { s with regs := { s.regs with readData := 0 } }

/-- RC_FIELD_READ, PLUMB_LO_READ, EVT_STICKY_WRITE, WM_STICKY_WRITE, EVR_CFG_WRITE, EVR_HEAD_WRITE, Q0_CFG_WRITE, LP_CTRL_WRITE,
REGISTER_WRITE of an open page: a counter reads and clears, and an increment that races it is in the value or kept (R8); PLUMB_LO
latches PLUMB_HI (R455); written 1s clear sticky bits; the rings, queue 0 and the ports take their settings (R434, R437, R440,
R448, R454, R461). Completes (exec answers a next state): EVR_CFG_WRITE, EVR_HEAD_WRITE, WM_STICKY_WRITE, EVT_STICKY_WRITE,
RC_FIELD_READ, PLUMB_LO_READ, Q0_CFG_WRITE, LP_CTRL_WRITE, REGISTER_WRITE. -/
def Obligations.RegistersReadClearAndSet : Prop :=
  (∀ (pn off n : Nat) (b : Blk) (z : State) (s : State), blkAt pn = some b → readable s b = true → off < 4096 → off % 4 = 0 →
    msixAt (4096 * pn + off) = none → rcMod s b pn off (fun _ _ _ => 0) = some z →
    let bump := fun field width c => satAdd width c (racingOf n field width)
    let y := { z with fresh := s.fresh + 1 }
    (n = 0 → ∃ fv, exec (.rcFieldRead (4096 * pn + off) 4 n) s = .next (giveRead (regVal s b pn off fv, z))) ∧
    (n ≠ 0 → ∃ fv,
      exec (.rcFieldRead (4096 * pn + off) 4 n) s = .next (giveRead (regVal ((rcMod s b pn off bump).getD s) b pn off fv, y)) ∨
      exec (.rcFieldRead (4096 * pn + off) 4 n) s = .next (giveRead (regVal s b pn off fv, (rcMod y b pn off bump).getD y)))) ∧
  (∀ s : State, readable s .device = true →
    ∃ t, exec .plumbLoRead s = .next t ∧ t.regs.readData = BitVec.ofNat 64 (s.fab.plumb.time % 2 ^ 32) ∧
      t.fab.plumb.latch = s.fab.plumb.time / 2 ^ 32 % 2 ^ 32 ∧ t.mem = s.mem ∧ t.fab.plumb.time = s.fab.plumb.time ∧
      ∃ u, exec (.rcFieldRead 0x08C 4 0) t = .next u ∧ u.regs.readData = BitVec.ofNat 64 t.fab.plumb.latch ∧ u.fab = t.fab) ∧
  (∀ (pn : Nat) (v : Word) (b : Blk) (s : State), blkAt pn = some b → readable s b = true →
    ∃ t, exec (.evtStickyWrite pn v) s = .next t ∧ (pageOf t pn).sticky = (pageOf s pn).sticky &&& ~~~v ∧
      (∀ p, p ≠ pn → pageOf t p = pageOf s p) ∧ t.mem = s.mem ∧
      ∃ u, exec (.registerWrite (4096 * pn + 0x18) 4 (v.setWidth 64)) s = .next u ∧ pageOf u pn = { pageOf s pn with enable := v } ∧ u.mem = s.mem) ∧
  (∀ (v : Word) (s : State), readable s .event = true → s.regs.evrSel < moduleRing →
    let g := ringOf s s.regs.evrSel
    (∃ t, exec (.wmStickyWrite v) s = .next t ∧ (∀ w, w < 16 → markOf t w = if bit v.toNat w then { markOf s w with hit := false } else markOf s w)) ∧
    (bit v.toNat 0 = true → g.en = false → ∃ t, exec (.evrCfgWrite v) s = .next t ∧ (ringOf t s.regs.evrSel).en = true ∧
      (ringOf t s.regs.evrSel).head = 0 ∧ (ringOf t s.regs.evrSel).tail = 0 ∧ (ringOf t s.regs.evrSel).phase = true ∧
      (ringOf t s.regs.evrSel).log2 = clamp 4 16 (bits v.toNat 5 1) ∧ ∀ r, r ≠ s.regs.evrSel → ringOf t r = ringOf s r) ∧
    (g.ovf = false → bits v.toNat 15 0 < 2 ^ g.log2 → (bits v.toNat 15 0 + 2 ^ g.log2 - g.head) % 2 ^ g.log2 ≤ ringUsed g →
      exec (.evrHeadWrite v) s = .next (setRing s s.regs.evrSel { g with head := bits v.toNat 15 0 }))) ∧
  (∀ (v : Word) (s : State), readable s .device = true → (queueOf s 0).valid = false → bit v.toNat 31 = true →
    ∃ t, exec (.q0CfgWrite v) s = .next t ∧ (queueOf t 0).valid = true ∧ (queueOf t 0).sqHead = 0 ∧ (queueOf t 0).sqTail = 0 ∧
      (queueOf t 0).cqHead = 0 ∧ (queueOf t 0).cqTail = 0 ∧ (queueOf t 0).phase = true ∧ (∀ q, q ≠ 0 → queueOf t q = queueOf s q) ∧ t.mem = s.mem) ∧
  (∀ (p : Nat) (v : Word) (s : State), p < 32 → readable s (.port p) = true → s.sp.authority = 1 → bit v.toNat 0 = false →
    (portOf s p).state = .up →
    ∃ t, exec (.lpCtrlWrite p v) s = .next t ∧ (portOf t p).state = .down ∧ (portOf t p).enable = false ∧ (portOf t p).retry = [] ∧
      (∀ q, q ≠ p → portOf t q = portOf s q) ∧ t.mem = s.mem)

/-- A block that holds a NaN or an infinity (R40): the scale written is 0xFF and every element of the block is the code 0, for
each scaled format, rounding and input, and so in the register that a scaled CVT or CVTSR writes. -/
def Obligations.NonFiniteBlocksScaleToFF : Prop :=
  (∀ v, fp32NonFinite v = true ↔ v / 2 ^ 23 % 256 = 255) ∧
  (∀ (code : Nat) (vs : List Nat), vs.any fp32NonFinite = true →
    blockScale code vs = 0xFF ∧ ∀ (r : Option Nat) (v : Nat), convScaled code (blockScale code vs) r v = 0) ∧
  (∀ (code : Nat) (rs : Option (List Nat)) (x : BitVec 2048), fmtBits code ≤ 8 →
    let y := (cvtReg code true rs x).toNat
    (((lanes 32 64 x).take 32).any fp32NonFinite = true → y / 2 ^ 1024 % 256 = 0xFF ∧ y % 2 ^ (32 * fmtBits code) = 0) ∧
    (((lanes 32 64 x).drop 32).any fp32NonFinite = true → y / 2 ^ 1032 % 256 = 0xFF ∧
      y / 2 ^ (32 * fmtBits code) % 2 ^ (32 * fmtBits code) = 0))
end

