-- ==== Sys2Proof/Laws/Tables.lean ====
section
/-! SUPPORT. Laws of the finite tables and of byte memories: what a read gives after a write, and that every write keeps the
canonical form. -/

namespace Sys2Proof.Machine
open Sys2Proof

variable {α : Type}

@[simp] theorem tlook_tins_same (t : Tab α) (k : Nat) (v : α) : tlook (tins t k v) k = some v := by
  induction t with
  | nil => simp [tins, tlook]
  | cons p t ih =>
    obtain ⟨a, w⟩ := p
    simp only [tins]
    split
    · simp [tlook]
    · split
      · simp [tlook]
      · rename_i h1 h2
        have : ¬a = k := fun e => h2 e.symm
        simp [tlook, this, ih]

theorem tlook_tins_ne (t : Tab α) (j k : Nat) (v : α) (h : j ≠ k) : tlook (tins t k v) j = tlook t j := by
  induction t with
  | nil => simp [tins, tlook, Ne.symm h]
  | cons p t ih =>
    obtain ⟨a, w⟩ := p
    simp only [tins]
    split
    · simp [tlook, Ne.symm h]
    · split
      · rename_i h1 h2
        subst h2
        simp [tlook, Ne.symm h]
      · simp [tlook, ih]

@[simp] theorem tlook_tdel_same (t : Tab α) (k : Nat) : tlook (tdel t k) k = none := by
  induction t with
  | nil => rfl
  | cons p t ih =>
    obtain ⟨a, w⟩ := p
    by_cases h : a = k
    · simpa [tdel, List.filter, h] using ih
    · have : (a != k) = true := by simp [h]
      simp only [tdel, List.filter, this, tlook, h, if_false]
      exact ih

theorem tlook_tdel_ne (t : Tab α) (j k : Nat) (h : j ≠ k) : tlook (tdel t k) j = tlook t j := by
  induction t with
  | nil => rfl
  | cons p t ih =>
    obtain ⟨a, w⟩ := p
    by_cases e : a = k
    · have : (a != k) = false := by simp [e]
      have hj : ¬a = j := fun x => h (x ▸ e)
      simp only [tdel, List.filter, this, tlook, hj, if_false]
      exact ih
    · have : (a != k) = true := by simp [e]
      simp only [tdel, List.filter, this, tlook]
      split
      · rfl
      · exact ih

@[simp] theorem tget_tput_same [DecidableEq α] (d : α) (t : Tab α) (k : Nat) (v : α) : tget d (tput d t k v) k = v := by
  unfold tget tput
  split
  · next h => simp [h]
  · simp

theorem tget_tput_ne [DecidableEq α] (d : α) (t : Tab α) (j k : Nat) (v : α) (h : j ≠ k) : tget d (tput d t k v) j = tget d t j := by
  unfold tget tput
  split
  · rw [tlook_tdel_ne _ _ _ h]
  · rw [tlook_tins_ne _ _ _ _ h]

/-- Reading any number after a write: the value written there, and what stood before everywhere else. -/
theorem tget_tput [DecidableEq α] (d : α) (t : Tab α) (j k : Nat) (v : α) :
    tget d (tput d t k v) j = if j = k then v else tget d t j := by
  by_cases h : j = k
  · subst h; simp
  · simp [h, tget_tput_ne d t j k v h]

@[simp] theorem tget_nil (d : α) (k : Nat) : tget d [] k = d := rfl

/-! ## The canonical form -/

/-- Every number of the table is above `n`. -/
def tabove (n : Nat) (t : Tab α) : Bool := t.all (fun p => decide (n < p.1))

theorem trising_cons (a : Nat) (w : α) (t : Tab α) : trising ((a, w) :: t) = (tabove a t && trising t) := by
  induction t generalizing a w with
  | nil => rfl
  | cons p t ih =>
    obtain ⟨b, x⟩ := p
    have e : trising ((a, w) :: (b, x) :: t) = (decide (a < b) && trising ((b, x) :: t)) := rfl
    rw [e, ih b x]
    by_cases h : a < b
    · have : (tabove b t && trising t) = (tabove a t && (tabove b t && trising t)) := by
        by_cases hb : tabove b t = true
        · have : tabove a t = true := by
            unfold tabove at hb ⊢
            rw [List.all_eq_true] at hb ⊢
            intro p hp
            have := hb p hp
            simp only [decide_eq_true_eq] at this ⊢
            omega
          rw [this]; simp
        · simp [Bool.eq_false_iff.mpr hb]
      simp only [tabove, List.all_cons, h, decide_true, Bool.true_and] at this ⊢
      exact this
    · simp [tabove, h]

theorem tabove_tins (n k : Nat) (v : α) (t : Tab α) (h : n < k) (ht : tabove n t = true) : tabove n (tins t k v) = true := by
  induction t with
  | nil => simp [tins, tabove, h]
  | cons p t ih =>
    obtain ⟨a, w⟩ := p
    simp only [tabove, List.all_cons, Bool.and_eq_true, decide_eq_true_eq] at ht ih ⊢
    simp only [tins]
    split
    · simp [h, ht.1, ht.2]
    · split
      · simp [h, ht.2]
      · simp [ht.1, ih ht.2]

theorem trising_tins (k : Nat) (v : α) (t : Tab α) (ht : trising t = true) : trising (tins t k v) = true := by
  induction t with
  | nil => rfl
  | cons p t ih =>
    obtain ⟨a, w⟩ := p
    have ht' := ht
    rw [trising_cons, Bool.and_eq_true] at ht
    simp only [tins]
    split
    · rename_i h
      simp only [trising, ht', h, decide_true, Bool.and_self]
    · split
      · rename_i h1 h2
        subst h2
        rw [trising_cons, ht.1, ht.2]; rfl
      · rename_i h1 h2
        rw [trising_cons, tabove_tins a k v t (by omega) ht.1, ih ht.2]; rfl

theorem trising_tdel (k : Nat) (t : Tab α) (ht : trising t = true) : trising (tdel t k) = true := by
  induction t with
  | nil => rfl
  | cons p t ih =>
    obtain ⟨a, w⟩ := p
    rw [trising_cons, Bool.and_eq_true] at ht
    have ab : tabove a (tdel t k) = true := by
      unfold tabove at ht ⊢
      rw [List.all_eq_true] at ht ⊢
      intro p hp
      exact ht.1 p (List.mem_of_mem_filter hp)
    by_cases h : a = k
    · have e : tdel ((a, w) :: t) k = tdel t k := by simp [tdel, h]
      rw [e]; exact ih ht.2
    · have e : tdel ((a, w) :: t) k = (a, w) :: tdel t k := by simp [tdel, h]
      rw [e, trising_cons, ab, ih ht.2]; rfl

theorem all_tins (f : Nat × α → Bool) (t : Tab α) (k : Nat) (v : α) (hv : f (k, v) = true) (ht : t.all f = true) :
    (tins t k v).all f = true := by
  induction t with
  | nil => simp [tins, hv]
  | cons p t ih =>
    obtain ⟨a, w⟩ := p
    simp only [List.all_cons, Bool.and_eq_true] at ht
    simp only [tins]
    split
    · simp [hv, ht.1, ht.2]
    · split
      · simp [hv, ht.2]
      · simp [ht.1, ih ht.2]

/-- A write of a table keeps its canonical form. -/
theorem wf_tput [DecidableEq α] (d : α) (t : Tab α) (k : Nat) (v : α) (h : Tab.wf d t = true) : Tab.wf d (tput d t k v) = true := by
  simp only [Tab.wf, Bool.and_eq_true] at h ⊢
  unfold tput
  split
  · refine ⟨trising_tdel k t h.1, ?_⟩
    rw [List.all_eq_true] at h ⊢
    intro p hp
    exact h.2 p (List.mem_of_mem_filter hp)
  · rename_i hv
    exact ⟨trising_tins k v t h.1, all_tins _ t k v (by simp [hv]) h.2⟩

/-! ## Byte memories -/

@[simp] theorem mread_mwrite_same (m : Mem) (a : Nat) (b : Byte) : mread (mwrite m a b) a = b := tget_tput_same 0 m a b

theorem mread_mwrite (m : Mem) (a c : Nat) (b : Byte) : mread (mwrite m a b) c = if c = a then b else mread m c := tget_tput 0 m c a b

theorem memWf_mwrite (m : Mem) (a : Nat) (b : Byte) (h : memWf m = true) : memWf (mwrite m a b) = true := wf_tput 0 m a b h

theorem memWf_mwriteN (m : Mem) (a : Nat) (l : Bytes) (h : memWf m = true) : memWf (mwriteN m a l) = true := by
  induction l generalizing m a with
  | nil => exact h
  | cons b l ih => exact ih (mwrite m a b) (a + 1) (memWf_mwrite m a b h)

/-- A byte outside the string written reads as before. -/
theorem mread_mwriteN_out (m : Mem) (a c : Nat) (l : Bytes) (h : c < a ∨ a + l.length ≤ c) : mread (mwriteN m a l) c = mread m c := by
  induction l generalizing m a with
  | nil => rfl
  | cons b l ih =>
    simp only [List.length_cons] at h
    rw [mwriteN, ih (mwrite m a b) (a + 1) (by omega), mread_mwrite, if_neg (by omega)]

/-- A byte of the string written reads as written. -/
theorem mread_mwriteN_in (m : Mem) (a i : Nat) (l : Bytes) (h : i < l.length) : mread (mwriteN m a l) (a + i) = byteAt l i := by
  induction l generalizing m a i with
  | nil => simp at h
  | cons b l ih =>
    rw [mwriteN]
    cases i with
    | zero =>
      rw [mread_mwriteN_out _ _ _ _ (by omega), Nat.add_zero, mread_mwrite_same]
      rfl
    | succ i =>
      have := ih (mwrite m a b) (a + 1) i (by simpa using h)
      rw [show a + (i + 1) = a + 1 + i by omega, this]
      rfl

@[simp] theorem mreadN_length (m : Mem) (a n : Nat) : (mreadN m a n).length = n := by
  induction n generalizing a with
  | zero => rfl
  | succ n ih => simp [mreadN, ih]

@[simp] theorem leBytes_length (n v : Nat) : (leBytes n v).length = n := by
  induction n generalizing v with
  | zero => rfl
  | succ n ih => simp [leBytes, ih]

/-- A number of n bytes is read back from its little-endian bytes (R5). -/
theorem leVal_leBytes (n v : Nat) : leVal (leBytes n v) = v % 256 ^ n := by
  induction n generalizing v with
  | zero => simp [leBytes, leVal, Nat.mod_one]
  | succ n ih =>
    simp only [leBytes, leVal, ih, BitVec.toNat_ofNat]
    have e : (256 : Nat) ^ (n + 1) = 256 * 256 ^ n := by rw [Nat.pow_add, Nat.pow_one, Nat.mul_comm]
    rw [e, Nat.mod_mul]

end Sys2Proof.Machine
end

