-- ==== Sys2Proof/Laws/State.lean ====
section
/-! SUPPORT. Laws of the setters of the state: what each one leaves alone, field by field, and what its reader gives afterwards. -/

namespace Sys2Proof.Machine
open Sys2Proof

/-! ## setCore -/

@[simp] theorem setCore_ns (s : State) (k : Nat) (v : Core) : (setCore s k v).ns = s.ns := rfl
@[simp] theorem setCore_fresh (s : State) (k : Nat) (v : Core) : (setCore s k v).fresh = s.fresh := rfl
@[simp] theorem setCore_clusters (s : State) (k : Nat) (v : Core) : (setCore s k v).clusters = s.clusters := rfl
@[simp] theorem setCore_puts (s : State) (k : Nat) (v : Core) : (setCore s k v).puts = s.puts := rfl
@[simp] theorem setCore_signals (s : State) (k : Nat) (v : Core) : (setCore s k v).signals = s.signals := rfl
@[simp] theorem setCore_plans (s : State) (k : Nat) (v : Core) : (setCore s k v).plans = s.plans := rfl
@[simp] theorem setCore_queues (s : State) (k : Nat) (v : Core) : (setCore s k v).queues = s.queues := rfl
@[simp] theorem setCore_contexts (s : State) (k : Nat) (v : Core) : (setCore s k v).contexts = s.contexts := rfl
@[simp] theorem setCore_parts (s : State) (k : Nat) (v : Core) : (setCore s k v).parts = s.parts := rfl
@[simp] theorem setCore_mem (s : State) (k : Nat) (v : Core) : (setCore s k v).mem = s.mem := rfl
@[simp] theorem setCore_fab (s : State) (k : Nat) (v : Core) : (setCore s k v).fab = s.fab := rfl
@[simp] theorem setCore_sp (s : State) (k : Nat) (v : Core) : (setCore s k v).sp = s.sp := rfl
@[simp] theorem setCore_pow (s : State) (k : Nat) (v : Core) : (setCore s k v).pow = s.pow := rfl
@[simp] theorem setCore_regs (s : State) (k : Nat) (v : Core) : (setCore s k v).regs = s.regs := rfl
@[simp] theorem setCore_pending (s : State) (k : Nat) (v : Core) : (setCore s k v).pending = s.pending := rfl
@[simp] theorem setCore_cores (s : State) (k : Nat) (v : Core) : (setCore s k v).cores = tput {} s.cores k v := rfl
@[simp] theorem coreOf_setCore (s : State) (k : Nat) (v : Core) : coreOf (setCore s k v) k = v := tget_tput_same _ _ _ _
theorem coreOf_setCore_ne (s : State) (j k : Nat) (v : Core) (h : j ≠ k) : coreOf (setCore s k v) j = coreOf s j := tget_tput_ne _ _ _ _ _ h

/-! ## setCluster -/

@[simp] theorem setCluster_ns (s : State) (k : Nat) (v : Cluster) : (setCluster s k v).ns = s.ns := rfl
@[simp] theorem setCluster_fresh (s : State) (k : Nat) (v : Cluster) : (setCluster s k v).fresh = s.fresh := rfl
@[simp] theorem setCluster_cores (s : State) (k : Nat) (v : Cluster) : (setCluster s k v).cores = s.cores := rfl
@[simp] theorem setCluster_puts (s : State) (k : Nat) (v : Cluster) : (setCluster s k v).puts = s.puts := rfl
@[simp] theorem setCluster_signals (s : State) (k : Nat) (v : Cluster) : (setCluster s k v).signals = s.signals := rfl
@[simp] theorem setCluster_plans (s : State) (k : Nat) (v : Cluster) : (setCluster s k v).plans = s.plans := rfl
@[simp] theorem setCluster_queues (s : State) (k : Nat) (v : Cluster) : (setCluster s k v).queues = s.queues := rfl
@[simp] theorem setCluster_contexts (s : State) (k : Nat) (v : Cluster) : (setCluster s k v).contexts = s.contexts := rfl
@[simp] theorem setCluster_parts (s : State) (k : Nat) (v : Cluster) : (setCluster s k v).parts = s.parts := rfl
@[simp] theorem setCluster_mem (s : State) (k : Nat) (v : Cluster) : (setCluster s k v).mem = s.mem := rfl
@[simp] theorem setCluster_fab (s : State) (k : Nat) (v : Cluster) : (setCluster s k v).fab = s.fab := rfl
@[simp] theorem setCluster_sp (s : State) (k : Nat) (v : Cluster) : (setCluster s k v).sp = s.sp := rfl
@[simp] theorem setCluster_pow (s : State) (k : Nat) (v : Cluster) : (setCluster s k v).pow = s.pow := rfl
@[simp] theorem setCluster_regs (s : State) (k : Nat) (v : Cluster) : (setCluster s k v).regs = s.regs := rfl
@[simp] theorem setCluster_pending (s : State) (k : Nat) (v : Cluster) : (setCluster s k v).pending = s.pending := rfl
@[simp] theorem setCluster_clusters (s : State) (k : Nat) (v : Cluster) : (setCluster s k v).clusters = tput {} s.clusters k v := rfl
@[simp] theorem clusterOf_setCluster (s : State) (k : Nat) (v : Cluster) : clusterOf (setCluster s k v) k = v := tget_tput_same _ _ _ _
theorem clusterOf_setCluster_ne (s : State) (j k : Nat) (v : Cluster) (h : j ≠ k) : clusterOf (setCluster s k v) j = clusterOf s j := tget_tput_ne _ _ _ _ _ h

/-! ## setQueue -/

@[simp] theorem setQueue_ns (s : State) (k : Nat) (v : Queue) : (setQueue s k v).ns = s.ns := rfl
@[simp] theorem setQueue_fresh (s : State) (k : Nat) (v : Queue) : (setQueue s k v).fresh = s.fresh := rfl
@[simp] theorem setQueue_cores (s : State) (k : Nat) (v : Queue) : (setQueue s k v).cores = s.cores := rfl
@[simp] theorem setQueue_clusters (s : State) (k : Nat) (v : Queue) : (setQueue s k v).clusters = s.clusters := rfl
@[simp] theorem setQueue_puts (s : State) (k : Nat) (v : Queue) : (setQueue s k v).puts = s.puts := rfl
@[simp] theorem setQueue_signals (s : State) (k : Nat) (v : Queue) : (setQueue s k v).signals = s.signals := rfl
@[simp] theorem setQueue_plans (s : State) (k : Nat) (v : Queue) : (setQueue s k v).plans = s.plans := rfl
@[simp] theorem setQueue_contexts (s : State) (k : Nat) (v : Queue) : (setQueue s k v).contexts = s.contexts := rfl
@[simp] theorem setQueue_parts (s : State) (k : Nat) (v : Queue) : (setQueue s k v).parts = s.parts := rfl
@[simp] theorem setQueue_mem (s : State) (k : Nat) (v : Queue) : (setQueue s k v).mem = s.mem := rfl
@[simp] theorem setQueue_fab (s : State) (k : Nat) (v : Queue) : (setQueue s k v).fab = s.fab := rfl
@[simp] theorem setQueue_sp (s : State) (k : Nat) (v : Queue) : (setQueue s k v).sp = s.sp := rfl
@[simp] theorem setQueue_pow (s : State) (k : Nat) (v : Queue) : (setQueue s k v).pow = s.pow := rfl
@[simp] theorem setQueue_regs (s : State) (k : Nat) (v : Queue) : (setQueue s k v).regs = s.regs := rfl
@[simp] theorem setQueue_pending (s : State) (k : Nat) (v : Queue) : (setQueue s k v).pending = s.pending := rfl
@[simp] theorem setQueue_queues (s : State) (k : Nat) (v : Queue) : (setQueue s k v).queues = tput {} s.queues k v := rfl
@[simp] theorem queueOf_setQueue (s : State) (k : Nat) (v : Queue) : queueOf (setQueue s k v) k = v := tget_tput_same _ _ _ _
theorem queueOf_setQueue_ne (s : State) (j k : Nat) (v : Queue) (h : j ≠ k) : queueOf (setQueue s k v) j = queueOf s j := tget_tput_ne _ _ _ _ _ h

/-! ## setCtx -/

@[simp] theorem setCtx_ns (s : State) (k : Nat) (v : Context) : (setCtx s k v).ns = s.ns := rfl
@[simp] theorem setCtx_fresh (s : State) (k : Nat) (v : Context) : (setCtx s k v).fresh = s.fresh := rfl
@[simp] theorem setCtx_cores (s : State) (k : Nat) (v : Context) : (setCtx s k v).cores = s.cores := rfl
@[simp] theorem setCtx_clusters (s : State) (k : Nat) (v : Context) : (setCtx s k v).clusters = s.clusters := rfl
@[simp] theorem setCtx_puts (s : State) (k : Nat) (v : Context) : (setCtx s k v).puts = s.puts := rfl
@[simp] theorem setCtx_signals (s : State) (k : Nat) (v : Context) : (setCtx s k v).signals = s.signals := rfl
@[simp] theorem setCtx_plans (s : State) (k : Nat) (v : Context) : (setCtx s k v).plans = s.plans := rfl
@[simp] theorem setCtx_queues (s : State) (k : Nat) (v : Context) : (setCtx s k v).queues = s.queues := rfl
@[simp] theorem setCtx_parts (s : State) (k : Nat) (v : Context) : (setCtx s k v).parts = s.parts := rfl
@[simp] theorem setCtx_mem (s : State) (k : Nat) (v : Context) : (setCtx s k v).mem = s.mem := rfl
@[simp] theorem setCtx_fab (s : State) (k : Nat) (v : Context) : (setCtx s k v).fab = s.fab := rfl
@[simp] theorem setCtx_sp (s : State) (k : Nat) (v : Context) : (setCtx s k v).sp = s.sp := rfl
@[simp] theorem setCtx_pow (s : State) (k : Nat) (v : Context) : (setCtx s k v).pow = s.pow := rfl
@[simp] theorem setCtx_regs (s : State) (k : Nat) (v : Context) : (setCtx s k v).regs = s.regs := rfl
@[simp] theorem setCtx_pending (s : State) (k : Nat) (v : Context) : (setCtx s k v).pending = s.pending := rfl
@[simp] theorem setCtx_contexts (s : State) (k : Nat) (v : Context) : (setCtx s k v).contexts = tput {} s.contexts k v := rfl
@[simp] theorem ctxOf_setCtx (s : State) (k : Nat) (v : Context) : ctxOf (setCtx s k v) k = v := tget_tput_same _ _ _ _
theorem ctxOf_setCtx_ne (s : State) (j k : Nat) (v : Context) (h : j ≠ k) : ctxOf (setCtx s k v) j = ctxOf s j := tget_tput_ne _ _ _ _ _ h

/-! ## setPart -/

@[simp] theorem setPart_ns (s : State) (k : Nat) (v : Partition) : (setPart s k v).ns = s.ns := rfl
@[simp] theorem setPart_fresh (s : State) (k : Nat) (v : Partition) : (setPart s k v).fresh = s.fresh := rfl
@[simp] theorem setPart_cores (s : State) (k : Nat) (v : Partition) : (setPart s k v).cores = s.cores := rfl
@[simp] theorem setPart_clusters (s : State) (k : Nat) (v : Partition) : (setPart s k v).clusters = s.clusters := rfl
@[simp] theorem setPart_puts (s : State) (k : Nat) (v : Partition) : (setPart s k v).puts = s.puts := rfl
@[simp] theorem setPart_signals (s : State) (k : Nat) (v : Partition) : (setPart s k v).signals = s.signals := rfl
@[simp] theorem setPart_plans (s : State) (k : Nat) (v : Partition) : (setPart s k v).plans = s.plans := rfl
@[simp] theorem setPart_queues (s : State) (k : Nat) (v : Partition) : (setPart s k v).queues = s.queues := rfl
@[simp] theorem setPart_contexts (s : State) (k : Nat) (v : Partition) : (setPart s k v).contexts = s.contexts := rfl
@[simp] theorem setPart_mem (s : State) (k : Nat) (v : Partition) : (setPart s k v).mem = s.mem := rfl
@[simp] theorem setPart_fab (s : State) (k : Nat) (v : Partition) : (setPart s k v).fab = s.fab := rfl
@[simp] theorem setPart_sp (s : State) (k : Nat) (v : Partition) : (setPart s k v).sp = s.sp := rfl
@[simp] theorem setPart_pow (s : State) (k : Nat) (v : Partition) : (setPart s k v).pow = s.pow := rfl
@[simp] theorem setPart_regs (s : State) (k : Nat) (v : Partition) : (setPart s k v).regs = s.regs := rfl
@[simp] theorem setPart_pending (s : State) (k : Nat) (v : Partition) : (setPart s k v).pending = s.pending := rfl
@[simp] theorem setPart_parts (s : State) (k : Nat) (v : Partition) : (setPart s k v).parts = tput {} s.parts k v := rfl
@[simp] theorem partOf_setPart (s : State) (k : Nat) (v : Partition) : partOf (setPart s k v) k = v := tget_tput_same _ _ _ _
theorem partOf_setPart_ne (s : State) (j k : Nat) (v : Partition) (h : j ≠ k) : partOf (setPart s k v) j = partOf s j := tget_tput_ne _ _ _ _ _ h

/-! ## setPlan -/

@[simp] theorem setPlan_ns (s : State) (k : Nat) (v : Plan) : (setPlan s k v).ns = s.ns := rfl
@[simp] theorem setPlan_fresh (s : State) (k : Nat) (v : Plan) : (setPlan s k v).fresh = s.fresh := rfl
@[simp] theorem setPlan_cores (s : State) (k : Nat) (v : Plan) : (setPlan s k v).cores = s.cores := rfl
@[simp] theorem setPlan_clusters (s : State) (k : Nat) (v : Plan) : (setPlan s k v).clusters = s.clusters := rfl
@[simp] theorem setPlan_puts (s : State) (k : Nat) (v : Plan) : (setPlan s k v).puts = s.puts := rfl
@[simp] theorem setPlan_signals (s : State) (k : Nat) (v : Plan) : (setPlan s k v).signals = s.signals := rfl
@[simp] theorem setPlan_queues (s : State) (k : Nat) (v : Plan) : (setPlan s k v).queues = s.queues := rfl
@[simp] theorem setPlan_contexts (s : State) (k : Nat) (v : Plan) : (setPlan s k v).contexts = s.contexts := rfl
@[simp] theorem setPlan_parts (s : State) (k : Nat) (v : Plan) : (setPlan s k v).parts = s.parts := rfl
@[simp] theorem setPlan_mem (s : State) (k : Nat) (v : Plan) : (setPlan s k v).mem = s.mem := rfl
@[simp] theorem setPlan_fab (s : State) (k : Nat) (v : Plan) : (setPlan s k v).fab = s.fab := rfl
@[simp] theorem setPlan_sp (s : State) (k : Nat) (v : Plan) : (setPlan s k v).sp = s.sp := rfl
@[simp] theorem setPlan_pow (s : State) (k : Nat) (v : Plan) : (setPlan s k v).pow = s.pow := rfl
@[simp] theorem setPlan_regs (s : State) (k : Nat) (v : Plan) : (setPlan s k v).regs = s.regs := rfl
@[simp] theorem setPlan_pending (s : State) (k : Nat) (v : Plan) : (setPlan s k v).pending = s.pending := rfl
@[simp] theorem setPlan_plans (s : State) (k : Nat) (v : Plan) : (setPlan s k v).plans = tins s.plans k v := rfl
@[simp] theorem planOf_setPlan (s : State) (k : Nat) (v : Plan) : planOf (setPlan s k v) k = some v := tlook_tins_same _ _ _
theorem planOf_setPlan_ne (s : State) (j k : Nat) (v : Plan) (h : j ≠ k) : planOf (setPlan s k v) j = planOf s j := tlook_tins_ne _ _ _ _ h

/-! ## setKey -/

@[simp] theorem setKey_ns (s : State) (k : Nat) (v : KeyCtx) : (setKey s k v).ns = s.ns := rfl
@[simp] theorem setKey_fresh (s : State) (k : Nat) (v : KeyCtx) : (setKey s k v).fresh = s.fresh := rfl
@[simp] theorem setKey_cores (s : State) (k : Nat) (v : KeyCtx) : (setKey s k v).cores = s.cores := rfl
@[simp] theorem setKey_clusters (s : State) (k : Nat) (v : KeyCtx) : (setKey s k v).clusters = s.clusters := rfl
@[simp] theorem setKey_puts (s : State) (k : Nat) (v : KeyCtx) : (setKey s k v).puts = s.puts := rfl
@[simp] theorem setKey_signals (s : State) (k : Nat) (v : KeyCtx) : (setKey s k v).signals = s.signals := rfl
@[simp] theorem setKey_plans (s : State) (k : Nat) (v : KeyCtx) : (setKey s k v).plans = s.plans := rfl
@[simp] theorem setKey_queues (s : State) (k : Nat) (v : KeyCtx) : (setKey s k v).queues = s.queues := rfl
@[simp] theorem setKey_contexts (s : State) (k : Nat) (v : KeyCtx) : (setKey s k v).contexts = s.contexts := rfl
@[simp] theorem setKey_parts (s : State) (k : Nat) (v : KeyCtx) : (setKey s k v).parts = s.parts := rfl
@[simp] theorem setKey_mem (s : State) (k : Nat) (v : KeyCtx) : (setKey s k v).mem = s.mem := rfl
@[simp] theorem setKey_fab (s : State) (k : Nat) (v : KeyCtx) : (setKey s k v).fab = s.fab := rfl
@[simp] theorem setKey_pow (s : State) (k : Nat) (v : KeyCtx) : (setKey s k v).pow = s.pow := rfl
@[simp] theorem setKey_regs (s : State) (k : Nat) (v : KeyCtx) : (setKey s k v).regs = s.regs := rfl
@[simp] theorem setKey_pending (s : State) (k : Nat) (v : KeyCtx) : (setKey s k v).pending = s.pending := rfl
@[simp] theorem setKey_sp (s : State) (k : Nat) (v : KeyCtx) : (setKey s k v).sp = { s.sp with keyCtxs := tput {} s.sp.keyCtxs k v } := rfl
@[simp] theorem keyOf_setKey (s : State) (k : Nat) (v : KeyCtx) : keyOf (setKey s k v) k = v := tget_tput_same _ _ _ _
theorem keyOf_setKey_ne (s : State) (j k : Nat) (v : KeyCtx) (h : j ≠ k) : keyOf (setKey s k v) j = keyOf s j := tget_tput_ne _ _ _ _ _ h

/-! ## setSlot -/

@[simp] theorem setSlot_ns (s : State) (k : Nat) (v : Slot) : (setSlot s k v).ns = s.ns := rfl
@[simp] theorem setSlot_fresh (s : State) (k : Nat) (v : Slot) : (setSlot s k v).fresh = s.fresh := rfl
@[simp] theorem setSlot_cores (s : State) (k : Nat) (v : Slot) : (setSlot s k v).cores = s.cores := rfl
@[simp] theorem setSlot_clusters (s : State) (k : Nat) (v : Slot) : (setSlot s k v).clusters = s.clusters := rfl
@[simp] theorem setSlot_puts (s : State) (k : Nat) (v : Slot) : (setSlot s k v).puts = s.puts := rfl
@[simp] theorem setSlot_signals (s : State) (k : Nat) (v : Slot) : (setSlot s k v).signals = s.signals := rfl
@[simp] theorem setSlot_plans (s : State) (k : Nat) (v : Slot) : (setSlot s k v).plans = s.plans := rfl
@[simp] theorem setSlot_queues (s : State) (k : Nat) (v : Slot) : (setSlot s k v).queues = s.queues := rfl
@[simp] theorem setSlot_contexts (s : State) (k : Nat) (v : Slot) : (setSlot s k v).contexts = s.contexts := rfl
@[simp] theorem setSlot_parts (s : State) (k : Nat) (v : Slot) : (setSlot s k v).parts = s.parts := rfl
@[simp] theorem setSlot_mem (s : State) (k : Nat) (v : Slot) : (setSlot s k v).mem = s.mem := rfl
@[simp] theorem setSlot_fab (s : State) (k : Nat) (v : Slot) : (setSlot s k v).fab = s.fab := rfl
@[simp] theorem setSlot_pow (s : State) (k : Nat) (v : Slot) : (setSlot s k v).pow = s.pow := rfl
@[simp] theorem setSlot_regs (s : State) (k : Nat) (v : Slot) : (setSlot s k v).regs = s.regs := rfl
@[simp] theorem setSlot_pending (s : State) (k : Nat) (v : Slot) : (setSlot s k v).pending = s.pending := rfl
@[simp] theorem setSlot_sp (s : State) (k : Nat) (v : Slot) : (setSlot s k v).sp = { s.sp with slots := tput {} s.sp.slots k v } := rfl
@[simp] theorem slotOf_setSlot (s : State) (k : Nat) (v : Slot) : slotOf (setSlot s k v) k = v := tget_tput_same _ _ _ _
theorem slotOf_setSlot_ne (s : State) (j k : Nat) (v : Slot) (h : j ≠ k) : slotOf (setSlot s k v) j = slotOf s j := tget_tput_ne _ _ _ _ _ h

/-! ## setSes -/

@[simp] theorem setSes_ns (s : State) (k : Nat) (v : Session) : (setSes s k v).ns = s.ns := rfl
@[simp] theorem setSes_fresh (s : State) (k : Nat) (v : Session) : (setSes s k v).fresh = s.fresh := rfl
@[simp] theorem setSes_cores (s : State) (k : Nat) (v : Session) : (setSes s k v).cores = s.cores := rfl
@[simp] theorem setSes_clusters (s : State) (k : Nat) (v : Session) : (setSes s k v).clusters = s.clusters := rfl
@[simp] theorem setSes_puts (s : State) (k : Nat) (v : Session) : (setSes s k v).puts = s.puts := rfl
@[simp] theorem setSes_signals (s : State) (k : Nat) (v : Session) : (setSes s k v).signals = s.signals := rfl
@[simp] theorem setSes_plans (s : State) (k : Nat) (v : Session) : (setSes s k v).plans = s.plans := rfl
@[simp] theorem setSes_queues (s : State) (k : Nat) (v : Session) : (setSes s k v).queues = s.queues := rfl
@[simp] theorem setSes_contexts (s : State) (k : Nat) (v : Session) : (setSes s k v).contexts = s.contexts := rfl
@[simp] theorem setSes_parts (s : State) (k : Nat) (v : Session) : (setSes s k v).parts = s.parts := rfl
@[simp] theorem setSes_mem (s : State) (k : Nat) (v : Session) : (setSes s k v).mem = s.mem := rfl
@[simp] theorem setSes_fab (s : State) (k : Nat) (v : Session) : (setSes s k v).fab = s.fab := rfl
@[simp] theorem setSes_pow (s : State) (k : Nat) (v : Session) : (setSes s k v).pow = s.pow := rfl
@[simp] theorem setSes_regs (s : State) (k : Nat) (v : Session) : (setSes s k v).regs = s.regs := rfl
@[simp] theorem setSes_pending (s : State) (k : Nat) (v : Session) : (setSes s k v).pending = s.pending := rfl
@[simp] theorem setSes_sp (s : State) (k : Nat) (v : Session) : (setSes s k v).sp = { s.sp with sessions := tins s.sp.sessions k v } := rfl
@[simp] theorem sesOf_setSes (s : State) (k : Nat) (v : Session) : sesOf (setSes s k v) k = some v := tlook_tins_same _ _ _
theorem sesOf_setSes_ne (s : State) (j k : Nat) (v : Session) (h : j ≠ k) : sesOf (setSes s k v) j = sesOf s j := tlook_tins_ne _ _ _ _ h

/-! ## setPort -/

@[simp] theorem setPort_ns (s : State) (k : Nat) (v : Port) : (setPort s k v).ns = s.ns := rfl
@[simp] theorem setPort_fresh (s : State) (k : Nat) (v : Port) : (setPort s k v).fresh = s.fresh := rfl
@[simp] theorem setPort_cores (s : State) (k : Nat) (v : Port) : (setPort s k v).cores = s.cores := rfl
@[simp] theorem setPort_clusters (s : State) (k : Nat) (v : Port) : (setPort s k v).clusters = s.clusters := rfl
@[simp] theorem setPort_puts (s : State) (k : Nat) (v : Port) : (setPort s k v).puts = s.puts := rfl
@[simp] theorem setPort_signals (s : State) (k : Nat) (v : Port) : (setPort s k v).signals = s.signals := rfl
@[simp] theorem setPort_plans (s : State) (k : Nat) (v : Port) : (setPort s k v).plans = s.plans := rfl
@[simp] theorem setPort_queues (s : State) (k : Nat) (v : Port) : (setPort s k v).queues = s.queues := rfl
@[simp] theorem setPort_contexts (s : State) (k : Nat) (v : Port) : (setPort s k v).contexts = s.contexts := rfl
@[simp] theorem setPort_parts (s : State) (k : Nat) (v : Port) : (setPort s k v).parts = s.parts := rfl
@[simp] theorem setPort_mem (s : State) (k : Nat) (v : Port) : (setPort s k v).mem = s.mem := rfl
@[simp] theorem setPort_sp (s : State) (k : Nat) (v : Port) : (setPort s k v).sp = s.sp := rfl
@[simp] theorem setPort_pow (s : State) (k : Nat) (v : Port) : (setPort s k v).pow = s.pow := rfl
@[simp] theorem setPort_regs (s : State) (k : Nat) (v : Port) : (setPort s k v).regs = s.regs := rfl
@[simp] theorem setPort_pending (s : State) (k : Nat) (v : Port) : (setPort s k v).pending = s.pending := rfl
@[simp] theorem setPort_fab (s : State) (k : Nat) (v : Port) : (setPort s k v).fab = { s.fab with ports := tput {} s.fab.ports k v } := rfl
@[simp] theorem portOf_setPort (s : State) (k : Nat) (v : Port) : portOf (setPort s k v) k = v := tget_tput_same _ _ _ _
theorem portOf_setPort_ne (s : State) (j k : Nat) (v : Port) (h : j ≠ k) : portOf (setPort s k v) j = portOf s j := tget_tput_ne _ _ _ _ _ h

/-! ## setD2d -/

@[simp] theorem setD2d_ns (s : State) (k : Nat) (v : D2d) : (setD2d s k v).ns = s.ns := rfl
@[simp] theorem setD2d_fresh (s : State) (k : Nat) (v : D2d) : (setD2d s k v).fresh = s.fresh := rfl
@[simp] theorem setD2d_cores (s : State) (k : Nat) (v : D2d) : (setD2d s k v).cores = s.cores := rfl
@[simp] theorem setD2d_clusters (s : State) (k : Nat) (v : D2d) : (setD2d s k v).clusters = s.clusters := rfl
@[simp] theorem setD2d_puts (s : State) (k : Nat) (v : D2d) : (setD2d s k v).puts = s.puts := rfl
@[simp] theorem setD2d_signals (s : State) (k : Nat) (v : D2d) : (setD2d s k v).signals = s.signals := rfl
@[simp] theorem setD2d_plans (s : State) (k : Nat) (v : D2d) : (setD2d s k v).plans = s.plans := rfl
@[simp] theorem setD2d_queues (s : State) (k : Nat) (v : D2d) : (setD2d s k v).queues = s.queues := rfl
@[simp] theorem setD2d_contexts (s : State) (k : Nat) (v : D2d) : (setD2d s k v).contexts = s.contexts := rfl
@[simp] theorem setD2d_parts (s : State) (k : Nat) (v : D2d) : (setD2d s k v).parts = s.parts := rfl
@[simp] theorem setD2d_mem (s : State) (k : Nat) (v : D2d) : (setD2d s k v).mem = s.mem := rfl
@[simp] theorem setD2d_sp (s : State) (k : Nat) (v : D2d) : (setD2d s k v).sp = s.sp := rfl
@[simp] theorem setD2d_pow (s : State) (k : Nat) (v : D2d) : (setD2d s k v).pow = s.pow := rfl
@[simp] theorem setD2d_regs (s : State) (k : Nat) (v : D2d) : (setD2d s k v).regs = s.regs := rfl
@[simp] theorem setD2d_pending (s : State) (k : Nat) (v : D2d) : (setD2d s k v).pending = s.pending := rfl
@[simp] theorem setD2d_fab (s : State) (k : Nat) (v : D2d) : (setD2d s k v).fab = { s.fab with d2d := tput {} s.fab.d2d k v } := rfl
@[simp] theorem d2dOf_setD2d (s : State) (k : Nat) (v : D2d) : d2dOf (setD2d s k v) k = v := tget_tput_same _ _ _ _
theorem d2dOf_setD2d_ne (s : State) (j k : Nat) (v : D2d) (h : j ≠ k) : d2dOf (setD2d s k v) j = d2dOf s j := tget_tput_ne _ _ _ _ _ h

/-! ## setCtl -/

@[simp] theorem setCtl_ns (s : State) (k : Nat) (v : MemCtl) : (setCtl s k v).ns = s.ns := rfl
@[simp] theorem setCtl_fresh (s : State) (k : Nat) (v : MemCtl) : (setCtl s k v).fresh = s.fresh := rfl
@[simp] theorem setCtl_cores (s : State) (k : Nat) (v : MemCtl) : (setCtl s k v).cores = s.cores := rfl
@[simp] theorem setCtl_clusters (s : State) (k : Nat) (v : MemCtl) : (setCtl s k v).clusters = s.clusters := rfl
@[simp] theorem setCtl_puts (s : State) (k : Nat) (v : MemCtl) : (setCtl s k v).puts = s.puts := rfl
@[simp] theorem setCtl_signals (s : State) (k : Nat) (v : MemCtl) : (setCtl s k v).signals = s.signals := rfl
@[simp] theorem setCtl_plans (s : State) (k : Nat) (v : MemCtl) : (setCtl s k v).plans = s.plans := rfl
@[simp] theorem setCtl_queues (s : State) (k : Nat) (v : MemCtl) : (setCtl s k v).queues = s.queues := rfl
@[simp] theorem setCtl_contexts (s : State) (k : Nat) (v : MemCtl) : (setCtl s k v).contexts = s.contexts := rfl
@[simp] theorem setCtl_parts (s : State) (k : Nat) (v : MemCtl) : (setCtl s k v).parts = s.parts := rfl
@[simp] theorem setCtl_fab (s : State) (k : Nat) (v : MemCtl) : (setCtl s k v).fab = s.fab := rfl
@[simp] theorem setCtl_sp (s : State) (k : Nat) (v : MemCtl) : (setCtl s k v).sp = s.sp := rfl
@[simp] theorem setCtl_pow (s : State) (k : Nat) (v : MemCtl) : (setCtl s k v).pow = s.pow := rfl
@[simp] theorem setCtl_regs (s : State) (k : Nat) (v : MemCtl) : (setCtl s k v).regs = s.regs := rfl
@[simp] theorem setCtl_pending (s : State) (k : Nat) (v : MemCtl) : (setCtl s k v).pending = s.pending := rfl
@[simp] theorem setCtl_mem (s : State) (k : Nat) (v : MemCtl) : (setCtl s k v).mem = { s.mem with ctls := tput {} s.mem.ctls k v } := rfl
@[simp] theorem ctlOf_setCtl (s : State) (k : Nat) (v : MemCtl) : ctlOf (setCtl s k v) k = v := tget_tput_same _ _ _ _
theorem ctlOf_setCtl_ne (s : State) (j k : Nat) (v : MemCtl) (h : j ≠ k) : ctlOf (setCtl s k v) j = ctlOf s j := tget_tput_ne _ _ _ _ _ h

/-! ## setDom -/

@[simp] theorem setDom_ns (s : State) (k : Nat) (v : Domain) : (setDom s k v).ns = s.ns := rfl
@[simp] theorem setDom_fresh (s : State) (k : Nat) (v : Domain) : (setDom s k v).fresh = s.fresh := rfl
@[simp] theorem setDom_cores (s : State) (k : Nat) (v : Domain) : (setDom s k v).cores = s.cores := rfl
@[simp] theorem setDom_clusters (s : State) (k : Nat) (v : Domain) : (setDom s k v).clusters = s.clusters := rfl
@[simp] theorem setDom_puts (s : State) (k : Nat) (v : Domain) : (setDom s k v).puts = s.puts := rfl
@[simp] theorem setDom_signals (s : State) (k : Nat) (v : Domain) : (setDom s k v).signals = s.signals := rfl
@[simp] theorem setDom_plans (s : State) (k : Nat) (v : Domain) : (setDom s k v).plans = s.plans := rfl
@[simp] theorem setDom_queues (s : State) (k : Nat) (v : Domain) : (setDom s k v).queues = s.queues := rfl
@[simp] theorem setDom_contexts (s : State) (k : Nat) (v : Domain) : (setDom s k v).contexts = s.contexts := rfl
@[simp] theorem setDom_parts (s : State) (k : Nat) (v : Domain) : (setDom s k v).parts = s.parts := rfl
@[simp] theorem setDom_mem (s : State) (k : Nat) (v : Domain) : (setDom s k v).mem = s.mem := rfl
@[simp] theorem setDom_fab (s : State) (k : Nat) (v : Domain) : (setDom s k v).fab = s.fab := rfl
@[simp] theorem setDom_sp (s : State) (k : Nat) (v : Domain) : (setDom s k v).sp = s.sp := rfl
@[simp] theorem setDom_regs (s : State) (k : Nat) (v : Domain) : (setDom s k v).regs = s.regs := rfl
@[simp] theorem setDom_pending (s : State) (k : Nat) (v : Domain) : (setDom s k v).pending = s.pending := rfl
@[simp] theorem setDom_pow (s : State) (k : Nat) (v : Domain) : (setDom s k v).pow = { s.pow with domains := tput {} s.pow.domains k v } := rfl
@[simp] theorem domOf_setDom (s : State) (k : Nat) (v : Domain) : domOf (setDom s k v) k = v := tget_tput_same _ _ _ _
theorem domOf_setDom_ne (s : State) (j k : Nat) (v : Domain) (h : j ≠ k) : domOf (setDom s k v) j = domOf s j := tget_tput_ne _ _ _ _ _ h

/-! ## setClock -/

@[simp] theorem setClock_ns (s : State) (k : Nat) (v : Clock) : (setClock s k v).ns = s.ns := rfl
@[simp] theorem setClock_fresh (s : State) (k : Nat) (v : Clock) : (setClock s k v).fresh = s.fresh := rfl
@[simp] theorem setClock_cores (s : State) (k : Nat) (v : Clock) : (setClock s k v).cores = s.cores := rfl
@[simp] theorem setClock_clusters (s : State) (k : Nat) (v : Clock) : (setClock s k v).clusters = s.clusters := rfl
@[simp] theorem setClock_puts (s : State) (k : Nat) (v : Clock) : (setClock s k v).puts = s.puts := rfl
@[simp] theorem setClock_signals (s : State) (k : Nat) (v : Clock) : (setClock s k v).signals = s.signals := rfl
@[simp] theorem setClock_plans (s : State) (k : Nat) (v : Clock) : (setClock s k v).plans = s.plans := rfl
@[simp] theorem setClock_queues (s : State) (k : Nat) (v : Clock) : (setClock s k v).queues = s.queues := rfl
@[simp] theorem setClock_contexts (s : State) (k : Nat) (v : Clock) : (setClock s k v).contexts = s.contexts := rfl
@[simp] theorem setClock_parts (s : State) (k : Nat) (v : Clock) : (setClock s k v).parts = s.parts := rfl
@[simp] theorem setClock_mem (s : State) (k : Nat) (v : Clock) : (setClock s k v).mem = s.mem := rfl
@[simp] theorem setClock_fab (s : State) (k : Nat) (v : Clock) : (setClock s k v).fab = s.fab := rfl
@[simp] theorem setClock_sp (s : State) (k : Nat) (v : Clock) : (setClock s k v).sp = s.sp := rfl
@[simp] theorem setClock_regs (s : State) (k : Nat) (v : Clock) : (setClock s k v).regs = s.regs := rfl
@[simp] theorem setClock_pending (s : State) (k : Nat) (v : Clock) : (setClock s k v).pending = s.pending := rfl
@[simp] theorem setClock_pow (s : State) (k : Nat) (v : Clock) : (setClock s k v).pow = { s.pow with clocks := tput {} s.pow.clocks k v } := rfl
@[simp] theorem clockOf_setClock (s : State) (k : Nat) (v : Clock) : clockOf (setClock s k v) k = v := tget_tput_same _ _ _ _
theorem clockOf_setClock_ne (s : State) (j k : Nat) (v : Clock) (h : j ≠ k) : clockOf (setClock s k v) j = clockOf s j := tget_tput_ne _ _ _ _ _ h

/-! ## setRing -/

@[simp] theorem setRing_ns (s : State) (k : Nat) (v : Ring) : (setRing s k v).ns = s.ns := rfl
@[simp] theorem setRing_fresh (s : State) (k : Nat) (v : Ring) : (setRing s k v).fresh = s.fresh := rfl
@[simp] theorem setRing_cores (s : State) (k : Nat) (v : Ring) : (setRing s k v).cores = s.cores := rfl
@[simp] theorem setRing_clusters (s : State) (k : Nat) (v : Ring) : (setRing s k v).clusters = s.clusters := rfl
@[simp] theorem setRing_puts (s : State) (k : Nat) (v : Ring) : (setRing s k v).puts = s.puts := rfl
@[simp] theorem setRing_signals (s : State) (k : Nat) (v : Ring) : (setRing s k v).signals = s.signals := rfl
@[simp] theorem setRing_plans (s : State) (k : Nat) (v : Ring) : (setRing s k v).plans = s.plans := rfl
@[simp] theorem setRing_queues (s : State) (k : Nat) (v : Ring) : (setRing s k v).queues = s.queues := rfl
@[simp] theorem setRing_contexts (s : State) (k : Nat) (v : Ring) : (setRing s k v).contexts = s.contexts := rfl
@[simp] theorem setRing_parts (s : State) (k : Nat) (v : Ring) : (setRing s k v).parts = s.parts := rfl
@[simp] theorem setRing_mem (s : State) (k : Nat) (v : Ring) : (setRing s k v).mem = s.mem := rfl
@[simp] theorem setRing_fab (s : State) (k : Nat) (v : Ring) : (setRing s k v).fab = s.fab := rfl
@[simp] theorem setRing_sp (s : State) (k : Nat) (v : Ring) : (setRing s k v).sp = s.sp := rfl
@[simp] theorem setRing_pow (s : State) (k : Nat) (v : Ring) : (setRing s k v).pow = s.pow := rfl
@[simp] theorem setRing_pending (s : State) (k : Nat) (v : Ring) : (setRing s k v).pending = s.pending := rfl
@[simp] theorem setRing_regs (s : State) (k : Nat) (v : Ring) : (setRing s k v).regs = { s.regs with rings := tput {} s.regs.rings k v } := rfl
@[simp] theorem ringOf_setRing (s : State) (k : Nat) (v : Ring) : ringOf (setRing s k v) k = v := tget_tput_same _ _ _ _
theorem ringOf_setRing_ne (s : State) (j k : Nat) (v : Ring) (h : j ≠ k) : ringOf (setRing s k v) j = ringOf s j := tget_tput_ne _ _ _ _ _ h

/-! ## setPage -/

@[simp] theorem setPage_ns (s : State) (k : Nat) (v : Page) : (setPage s k v).ns = s.ns := rfl
@[simp] theorem setPage_fresh (s : State) (k : Nat) (v : Page) : (setPage s k v).fresh = s.fresh := rfl
@[simp] theorem setPage_cores (s : State) (k : Nat) (v : Page) : (setPage s k v).cores = s.cores := rfl
@[simp] theorem setPage_clusters (s : State) (k : Nat) (v : Page) : (setPage s k v).clusters = s.clusters := rfl
@[simp] theorem setPage_puts (s : State) (k : Nat) (v : Page) : (setPage s k v).puts = s.puts := rfl
@[simp] theorem setPage_signals (s : State) (k : Nat) (v : Page) : (setPage s k v).signals = s.signals := rfl
@[simp] theorem setPage_plans (s : State) (k : Nat) (v : Page) : (setPage s k v).plans = s.plans := rfl
@[simp] theorem setPage_queues (s : State) (k : Nat) (v : Page) : (setPage s k v).queues = s.queues := rfl
@[simp] theorem setPage_contexts (s : State) (k : Nat) (v : Page) : (setPage s k v).contexts = s.contexts := rfl
@[simp] theorem setPage_parts (s : State) (k : Nat) (v : Page) : (setPage s k v).parts = s.parts := rfl
@[simp] theorem setPage_mem (s : State) (k : Nat) (v : Page) : (setPage s k v).mem = s.mem := rfl
@[simp] theorem setPage_fab (s : State) (k : Nat) (v : Page) : (setPage s k v).fab = s.fab := rfl
@[simp] theorem setPage_sp (s : State) (k : Nat) (v : Page) : (setPage s k v).sp = s.sp := rfl
@[simp] theorem setPage_pow (s : State) (k : Nat) (v : Page) : (setPage s k v).pow = s.pow := rfl
@[simp] theorem setPage_pending (s : State) (k : Nat) (v : Page) : (setPage s k v).pending = s.pending := rfl
@[simp] theorem setPage_regs (s : State) (k : Nat) (v : Page) : (setPage s k v).regs = { s.regs with pages := tput {} s.regs.pages k v } := rfl
@[simp] theorem pageOf_setPage (s : State) (k : Nat) (v : Page) : pageOf (setPage s k v) k = v := tget_tput_same _ _ _ _
theorem pageOf_setPage_ne (s : State) (j k : Nat) (v : Page) (h : j ≠ k) : pageOf (setPage s k v) j = pageOf s j := tget_tput_ne _ _ _ _ _ h

/-! ## setMark -/

@[simp] theorem setMark_ns (s : State) (k : Nat) (v : Watermark) : (setMark s k v).ns = s.ns := rfl
@[simp] theorem setMark_fresh (s : State) (k : Nat) (v : Watermark) : (setMark s k v).fresh = s.fresh := rfl
@[simp] theorem setMark_cores (s : State) (k : Nat) (v : Watermark) : (setMark s k v).cores = s.cores := rfl
@[simp] theorem setMark_clusters (s : State) (k : Nat) (v : Watermark) : (setMark s k v).clusters = s.clusters := rfl
@[simp] theorem setMark_puts (s : State) (k : Nat) (v : Watermark) : (setMark s k v).puts = s.puts := rfl
@[simp] theorem setMark_signals (s : State) (k : Nat) (v : Watermark) : (setMark s k v).signals = s.signals := rfl
@[simp] theorem setMark_plans (s : State) (k : Nat) (v : Watermark) : (setMark s k v).plans = s.plans := rfl
@[simp] theorem setMark_queues (s : State) (k : Nat) (v : Watermark) : (setMark s k v).queues = s.queues := rfl
@[simp] theorem setMark_contexts (s : State) (k : Nat) (v : Watermark) : (setMark s k v).contexts = s.contexts := rfl
@[simp] theorem setMark_parts (s : State) (k : Nat) (v : Watermark) : (setMark s k v).parts = s.parts := rfl
@[simp] theorem setMark_mem (s : State) (k : Nat) (v : Watermark) : (setMark s k v).mem = s.mem := rfl
@[simp] theorem setMark_fab (s : State) (k : Nat) (v : Watermark) : (setMark s k v).fab = s.fab := rfl
@[simp] theorem setMark_sp (s : State) (k : Nat) (v : Watermark) : (setMark s k v).sp = s.sp := rfl
@[simp] theorem setMark_pow (s : State) (k : Nat) (v : Watermark) : (setMark s k v).pow = s.pow := rfl
@[simp] theorem setMark_pending (s : State) (k : Nat) (v : Watermark) : (setMark s k v).pending = s.pending := rfl
@[simp] theorem setMark_regs (s : State) (k : Nat) (v : Watermark) : (setMark s k v).regs = { s.regs with marks := tput {} s.regs.marks k v } := rfl
@[simp] theorem markOf_setMark (s : State) (k : Nat) (v : Watermark) : markOf (setMark s k v) k = v := tget_tput_same _ _ _ _
theorem markOf_setMark_ne (s : State) (j k : Nat) (v : Watermark) (h : j ≠ k) : markOf (setMark s k v) j = markOf s j := tget_tput_ne _ _ _ _ _ h

/-! ## setMon -/

@[simp] theorem setMon_ns (s : State) (k : Nat) (v : Monitor) : (setMon s k v).ns = s.ns := rfl
@[simp] theorem setMon_fresh (s : State) (k : Nat) (v : Monitor) : (setMon s k v).fresh = s.fresh := rfl
@[simp] theorem setMon_cores (s : State) (k : Nat) (v : Monitor) : (setMon s k v).cores = s.cores := rfl
@[simp] theorem setMon_clusters (s : State) (k : Nat) (v : Monitor) : (setMon s k v).clusters = s.clusters := rfl
@[simp] theorem setMon_puts (s : State) (k : Nat) (v : Monitor) : (setMon s k v).puts = s.puts := rfl
@[simp] theorem setMon_signals (s : State) (k : Nat) (v : Monitor) : (setMon s k v).signals = s.signals := rfl
@[simp] theorem setMon_plans (s : State) (k : Nat) (v : Monitor) : (setMon s k v).plans = s.plans := rfl
@[simp] theorem setMon_queues (s : State) (k : Nat) (v : Monitor) : (setMon s k v).queues = s.queues := rfl
@[simp] theorem setMon_contexts (s : State) (k : Nat) (v : Monitor) : (setMon s k v).contexts = s.contexts := rfl
@[simp] theorem setMon_parts (s : State) (k : Nat) (v : Monitor) : (setMon s k v).parts = s.parts := rfl
@[simp] theorem setMon_mem (s : State) (k : Nat) (v : Monitor) : (setMon s k v).mem = s.mem := rfl
@[simp] theorem setMon_fab (s : State) (k : Nat) (v : Monitor) : (setMon s k v).fab = s.fab := rfl
@[simp] theorem setMon_sp (s : State) (k : Nat) (v : Monitor) : (setMon s k v).sp = s.sp := rfl
@[simp] theorem setMon_pow (s : State) (k : Nat) (v : Monitor) : (setMon s k v).pow = s.pow := rfl
@[simp] theorem setMon_pending (s : State) (k : Nat) (v : Monitor) : (setMon s k v).pending = s.pending := rfl
@[simp] theorem setMon_regs (s : State) (k : Nat) (v : Monitor) : (setMon s k v).regs = { s.regs with monitors := tput {} s.regs.monitors k v } := rfl
@[simp] theorem monOf_setMon (s : State) (k : Nat) (v : Monitor) : monOf (setMon s k v) k = v := tget_tput_same _ _ _ _
theorem monOf_setMon_ne (s : State) (j k : Nat) (v : Monitor) (h : j ≠ k) : monOf (setMon s k v) j = monOf s j := tget_tput_ne _ _ _ _ _ h

/-! ## The free values, the tick and the answers -/

@[simp] theorem drawFree_value (s : State) : (drawFree s).1 = Config.free s.fresh := rfl
@[simp] theorem drawFree_fresh (s : State) : (drawFree s).2.fresh = s.fresh + 1 := rfl
@[simp] theorem drawFree_mem (s : State) : (drawFree s).2.mem = s.mem := rfl
@[simp] theorem drawFree_sp (s : State) : (drawFree s).2.sp = s.sp := rfl
@[simp] theorem tick_mem (s : State) : (tick s).mem = s.mem := rfl
@[simp] theorem tick_regs (s : State) : (tick s).regs = s.regs := rfl
@[simp] theorem tick_pow (s : State) : (tick s).pow = s.pow := rfl
@[simp] theorem tick_sp (s : State) : (tick s).sp = s.sp := rfl
@[simp] theorem answerSp_answer (s : State) (st : Status) (d : List Nat) (b : Bytes) :
    (answerSp s st d b).sp = { s.sp with answer := some ⟨st, d, b⟩ } := rfl
@[simp] theorem answerSp_ns (s : State) (st : Status) (d : List Nat) (b : Bytes) : (answerSp s st d b).ns = s.ns := rfl
@[simp] theorem answerSp_fresh (s : State) (st : Status) (d : List Nat) (b : Bytes) : (answerSp s st d b).fresh = s.fresh := rfl
@[simp] theorem answerSp_cores (s : State) (st : Status) (d : List Nat) (b : Bytes) : (answerSp s st d b).cores = s.cores := rfl
@[simp] theorem answerSp_clusters (s : State) (st : Status) (d : List Nat) (b : Bytes) : (answerSp s st d b).clusters = s.clusters := rfl
@[simp] theorem answerSp_puts (s : State) (st : Status) (d : List Nat) (b : Bytes) : (answerSp s st d b).puts = s.puts := rfl
@[simp] theorem answerSp_signals (s : State) (st : Status) (d : List Nat) (b : Bytes) : (answerSp s st d b).signals = s.signals := rfl
@[simp] theorem answerSp_plans (s : State) (st : Status) (d : List Nat) (b : Bytes) : (answerSp s st d b).plans = s.plans := rfl
@[simp] theorem answerSp_queues (s : State) (st : Status) (d : List Nat) (b : Bytes) : (answerSp s st d b).queues = s.queues := rfl
@[simp] theorem answerSp_contexts (s : State) (st : Status) (d : List Nat) (b : Bytes) : (answerSp s st d b).contexts = s.contexts := rfl
@[simp] theorem answerSp_parts (s : State) (st : Status) (d : List Nat) (b : Bytes) : (answerSp s st d b).parts = s.parts := rfl
@[simp] theorem answerSp_mem (s : State) (st : Status) (d : List Nat) (b : Bytes) : (answerSp s st d b).mem = s.mem := rfl
@[simp] theorem answerSp_fab (s : State) (st : Status) (d : List Nat) (b : Bytes) : (answerSp s st d b).fab = s.fab := rfl
@[simp] theorem answerSp_pow (s : State) (st : Status) (d : List Nat) (b : Bytes) : (answerSp s st d b).pow = s.pow := rfl
@[simp] theorem answerSp_regs (s : State) (st : Status) (d : List Nat) (b : Bytes) : (answerSp s st d b).regs = s.regs := rfl
@[simp] theorem answerSp_pending (s : State) (st : Status) (d : List Nat) (b : Bytes) : (answerSp s st d b).pending = s.pending := rfl

end Sys2Proof.Machine
end

