-- ==== Sys2Proof/Laws/Notices.lean ====
section
/-! SUPPORT. Notices change registers alone: MSI-X messages, host writes, page events, ring records, watermarks and monitors leave the
rest of the state as it is; an entry in the security processor's log also changes that log. -/

namespace Sys2Proof.Machine
open Sys2Proof

/-- The state without its registers. -/
def hush (s : State) : State := { s with regs := {} }
/-- The state without its registers and without the security processor's log. -/
def quiet (s : State) : State := { s with regs := {}, sp := { s.sp with log := [], logSeq := 0 } }

theorem quiet_of_hush {s t : State} (h : hush t = hush s) : quiet t = quiet s := by
  have e : ∀ x : State, quiet x = quiet (hush x) := fun _ => rfl
  rw [e t, h, ← e s]

/-! ## The registers alone -/

@[simp] theorem hush_regs (s : State) (r : Regs) : hush { s with regs := r } = hush s := rfl
@[simp] theorem hush_setPage (s : State) (p : Nat) (v : Page) : hush (setPage s p v) = hush s := rfl
@[simp] theorem hush_setRing (s : State) (r : Nat) (v : Ring) : hush (setRing s r v) = hush s := rfl
@[simp] theorem hush_setMark (s : State) (w : Nat) (v : Watermark) : hush (setMark s w v) = hush s := rfl
@[simp] theorem hush_setMon (s : State) (m : Nat) (v : Monitor) : hush (setMon s m v) = hush s := rfl
@[simp] theorem hush_ite (c : Prop) [Decidable c] (a b : State) : hush (if c then a else b) = if c then hush a else hush b :=
  apply_ite hush c a b
@[simp] theorem hush_flipPending (s : State) (v : Nat) : hush (flipPending s v) = hush s := rfl
@[simp] theorem hush_sendMsix (s : State) (v : Nat) : hush (sendMsix s v) = hush s := by simp [sendMsix]
@[simp] theorem hush_hostWrite (s : State) (a : Nat) (b : Bytes) : hush (hostWrite s a b) = hush s := rfl
@[simp] theorem hush_pulseEvent (s : State) (pg b : Nat) (i : List (Nat × Nat)) : hush (pulseEvent s pg b i) = hush s := by
  simp [pulseEvent]
@[simp] theorem hush_levelEvent (s : State) (pg b : Nat) (h : Bool) (i : List (Nat × Nat)) : hush (levelEvent s pg b h i) = hush s := by
  simp [levelEvent]
@[simp] theorem hush_ringWriteAs (ok : Bool) (s : State) (r code kind : Nat) (crit : Bool) (i0 i1 : Nat) :
    hush (ringWriteAs ok s r code kind crit i0 i1) = hush s := by simp [ringWriteAs]
@[simp] theorem hush_ringWrite (s : State) (r code kind : Nat) (crit : Bool) (i0 i1 : Nat) :
    hush (ringWrite s r code kind crit i0 i1) = hush s := (hush_ringWriteAs _ _ r code kind crit i0 i1).trans (hush_regs s _)
@[simp] theorem hush_ringPost (s : State) (r code kind : Nat) (crit : Bool) (i0 i1 : Nat) :
    hush (ringPost s r code kind crit i0 i1) = hush s := by simp [ringPost]
@[simp] theorem hush_markMove (s : State) (w l : Nat) : hush (markMove s w l).1 = hush s := rfl
@[simp] theorem hush_followRing (s : State) (r : Nat) : hush (followRing s r) = hush s := by
  unfold followRing; split
  · simp only []; split <;> simp
  · rfl
@[simp] theorem hush_postRecord (s : State) (r code kind : Nat) (crit : Bool) (i0 i1 : Nat) :
    hush (postRecord s r code kind crit i0 i1) = hush s := by simp [postRecord]
@[simp] theorem hush_setLevel (s : State) (w l : Nat) : hush (setLevel s w l) = hush s := by
  unfold setLevel; simp only []; split <;> simp

theorem hush_postRecords (s : State) (l : List Nat) (code : Nat) (crit : Bool) (i0 i1 : Nat) :
    hush (l.foldl (fun s r => postRecord s r code 0 crit i0 i1) s) = hush s := by
  induction l generalizing s with
  | nil => rfl
  | cons r l ih => rw [List.foldl_cons, ih, hush_postRecord]

/-! ## The registers and the log -/

theorem quiet_log (s : State) (l : List LogEntry) (n : Nat) : quiet { s with sp := { s.sp with log := l, logSeq := n } } = quiet s := rfl
theorem quiet_logAdd (s : State) (source code part ctx i0 i1 : Nat) : quiet (logAdd s source code part ctx i0 i1) = quiet s := by
  unfold logAdd
  exact quiet_log s _ _
@[simp] theorem quiet_logIt (s : State) (source code part ctx i0 i1 : Nat) : quiet (logIt s source code part ctx i0 i1) = quiet s :=
  (quiet_of_hush (hush_setLevel _ _ _)).trans (quiet_logAdd s source code part ctx i0 i1)
@[simp] theorem quiet_postEvent (s : State) (l : List Nat) (code : Nat) (crit : Bool) (part i0 i1 : Nat) :
    quiet (postEvent s l code crit part i0 i1) = quiet s := by
  unfold postEvent; simp only []; split
  · rw [quiet_logIt]; exact quiet_of_hush (hush_postRecords s l code crit i0 i1)
  · exact quiet_of_hush (hush_postRecords s l code crit i0 i1)
theorem hush_postEvent (s : State) (l : List Nat) (code part i0 i1 : Nat) : hush (postEvent s l code false part i0 i1) = hush s :=
  hush_postRecords s l code false i0 i1
@[simp] theorem hush_countMonitor (s : State) (m : Nat) : hush (countMonitor s m) = hush s := by
  unfold countMonitor; simp only []; split
  · rw [hush_pulseEvent, hush_postEvent]; rfl
  · rfl

/-! ## Field by field -/

@[simp] theorem sendMsix_ns (s : State) (v : Nat) : (sendMsix s v).ns = s.ns :=
  (congrArg State.ns (hush_sendMsix s v) :)
@[simp] theorem sendMsix_fresh (s : State) (v : Nat) : (sendMsix s v).fresh = s.fresh :=
  (congrArg State.fresh (hush_sendMsix s v) :)
@[simp] theorem sendMsix_cores (s : State) (v : Nat) : (sendMsix s v).cores = s.cores :=
  (congrArg State.cores (hush_sendMsix s v) :)
@[simp] theorem sendMsix_clusters (s : State) (v : Nat) : (sendMsix s v).clusters = s.clusters :=
  (congrArg State.clusters (hush_sendMsix s v) :)
@[simp] theorem sendMsix_puts (s : State) (v : Nat) : (sendMsix s v).puts = s.puts :=
  (congrArg State.puts (hush_sendMsix s v) :)
@[simp] theorem sendMsix_signals (s : State) (v : Nat) : (sendMsix s v).signals = s.signals :=
  (congrArg State.signals (hush_sendMsix s v) :)
@[simp] theorem sendMsix_plans (s : State) (v : Nat) : (sendMsix s v).plans = s.plans :=
  (congrArg State.plans (hush_sendMsix s v) :)
@[simp] theorem sendMsix_queues (s : State) (v : Nat) : (sendMsix s v).queues = s.queues :=
  (congrArg State.queues (hush_sendMsix s v) :)
@[simp] theorem sendMsix_contexts (s : State) (v : Nat) : (sendMsix s v).contexts = s.contexts :=
  (congrArg State.contexts (hush_sendMsix s v) :)
@[simp] theorem sendMsix_parts (s : State) (v : Nat) : (sendMsix s v).parts = s.parts :=
  (congrArg State.parts (hush_sendMsix s v) :)
@[simp] theorem sendMsix_mem (s : State) (v : Nat) : (sendMsix s v).mem = s.mem :=
  (congrArg State.mem (hush_sendMsix s v) :)
@[simp] theorem sendMsix_fab (s : State) (v : Nat) : (sendMsix s v).fab = s.fab :=
  (congrArg State.fab (hush_sendMsix s v) :)
@[simp] theorem sendMsix_pow (s : State) (v : Nat) : (sendMsix s v).pow = s.pow :=
  (congrArg State.pow (hush_sendMsix s v) :)
@[simp] theorem sendMsix_pending (s : State) (v : Nat) : (sendMsix s v).pending = s.pending :=
  (congrArg State.pending (hush_sendMsix s v) :)
@[simp] theorem sendMsix_sp (s : State) (v : Nat) : (sendMsix s v).sp = s.sp :=
  (congrArg State.sp (hush_sendMsix s v) :)
@[simp] theorem hostWrite_ns (s : State) (a : Nat) (b : Bytes) : (hostWrite s a b).ns = s.ns :=
  (congrArg State.ns (hush_hostWrite s a b) :)
@[simp] theorem hostWrite_fresh (s : State) (a : Nat) (b : Bytes) : (hostWrite s a b).fresh = s.fresh :=
  (congrArg State.fresh (hush_hostWrite s a b) :)
@[simp] theorem hostWrite_cores (s : State) (a : Nat) (b : Bytes) : (hostWrite s a b).cores = s.cores :=
  (congrArg State.cores (hush_hostWrite s a b) :)
@[simp] theorem hostWrite_clusters (s : State) (a : Nat) (b : Bytes) : (hostWrite s a b).clusters = s.clusters :=
  (congrArg State.clusters (hush_hostWrite s a b) :)
@[simp] theorem hostWrite_puts (s : State) (a : Nat) (b : Bytes) : (hostWrite s a b).puts = s.puts :=
  (congrArg State.puts (hush_hostWrite s a b) :)
@[simp] theorem hostWrite_signals (s : State) (a : Nat) (b : Bytes) : (hostWrite s a b).signals = s.signals :=
  (congrArg State.signals (hush_hostWrite s a b) :)
@[simp] theorem hostWrite_plans (s : State) (a : Nat) (b : Bytes) : (hostWrite s a b).plans = s.plans :=
  (congrArg State.plans (hush_hostWrite s a b) :)
@[simp] theorem hostWrite_queues (s : State) (a : Nat) (b : Bytes) : (hostWrite s a b).queues = s.queues :=
  (congrArg State.queues (hush_hostWrite s a b) :)
@[simp] theorem hostWrite_contexts (s : State) (a : Nat) (b : Bytes) : (hostWrite s a b).contexts = s.contexts :=
  (congrArg State.contexts (hush_hostWrite s a b) :)
@[simp] theorem hostWrite_parts (s : State) (a : Nat) (b : Bytes) : (hostWrite s a b).parts = s.parts :=
  (congrArg State.parts (hush_hostWrite s a b) :)
@[simp] theorem hostWrite_mem (s : State) (a : Nat) (b : Bytes) : (hostWrite s a b).mem = s.mem :=
  (congrArg State.mem (hush_hostWrite s a b) :)
@[simp] theorem hostWrite_fab (s : State) (a : Nat) (b : Bytes) : (hostWrite s a b).fab = s.fab :=
  (congrArg State.fab (hush_hostWrite s a b) :)
@[simp] theorem hostWrite_pow (s : State) (a : Nat) (b : Bytes) : (hostWrite s a b).pow = s.pow :=
  (congrArg State.pow (hush_hostWrite s a b) :)
@[simp] theorem hostWrite_pending (s : State) (a : Nat) (b : Bytes) : (hostWrite s a b).pending = s.pending :=
  (congrArg State.pending (hush_hostWrite s a b) :)
@[simp] theorem hostWrite_sp (s : State) (a : Nat) (b : Bytes) : (hostWrite s a b).sp = s.sp :=
  (congrArg State.sp (hush_hostWrite s a b) :)
@[simp] theorem pulseEvent_ns (s : State) (pg b : Nat) (i : List (Nat × Nat)) : (pulseEvent s pg b i).ns = s.ns :=
  (congrArg State.ns (hush_pulseEvent s pg b i) :)
@[simp] theorem pulseEvent_fresh (s : State) (pg b : Nat) (i : List (Nat × Nat)) : (pulseEvent s pg b i).fresh = s.fresh :=
  (congrArg State.fresh (hush_pulseEvent s pg b i) :)
@[simp] theorem pulseEvent_cores (s : State) (pg b : Nat) (i : List (Nat × Nat)) : (pulseEvent s pg b i).cores = s.cores :=
  (congrArg State.cores (hush_pulseEvent s pg b i) :)
@[simp] theorem pulseEvent_clusters (s : State) (pg b : Nat) (i : List (Nat × Nat)) : (pulseEvent s pg b i).clusters = s.clusters :=
  (congrArg State.clusters (hush_pulseEvent s pg b i) :)
@[simp] theorem pulseEvent_puts (s : State) (pg b : Nat) (i : List (Nat × Nat)) : (pulseEvent s pg b i).puts = s.puts :=
  (congrArg State.puts (hush_pulseEvent s pg b i) :)
@[simp] theorem pulseEvent_signals (s : State) (pg b : Nat) (i : List (Nat × Nat)) : (pulseEvent s pg b i).signals = s.signals :=
  (congrArg State.signals (hush_pulseEvent s pg b i) :)
@[simp] theorem pulseEvent_plans (s : State) (pg b : Nat) (i : List (Nat × Nat)) : (pulseEvent s pg b i).plans = s.plans :=
  (congrArg State.plans (hush_pulseEvent s pg b i) :)
@[simp] theorem pulseEvent_queues (s : State) (pg b : Nat) (i : List (Nat × Nat)) : (pulseEvent s pg b i).queues = s.queues :=
  (congrArg State.queues (hush_pulseEvent s pg b i) :)
@[simp] theorem pulseEvent_contexts (s : State) (pg b : Nat) (i : List (Nat × Nat)) : (pulseEvent s pg b i).contexts = s.contexts :=
  (congrArg State.contexts (hush_pulseEvent s pg b i) :)
@[simp] theorem pulseEvent_parts (s : State) (pg b : Nat) (i : List (Nat × Nat)) : (pulseEvent s pg b i).parts = s.parts :=
  (congrArg State.parts (hush_pulseEvent s pg b i) :)
@[simp] theorem pulseEvent_mem (s : State) (pg b : Nat) (i : List (Nat × Nat)) : (pulseEvent s pg b i).mem = s.mem :=
  (congrArg State.mem (hush_pulseEvent s pg b i) :)
@[simp] theorem pulseEvent_fab (s : State) (pg b : Nat) (i : List (Nat × Nat)) : (pulseEvent s pg b i).fab = s.fab :=
  (congrArg State.fab (hush_pulseEvent s pg b i) :)
@[simp] theorem pulseEvent_pow (s : State) (pg b : Nat) (i : List (Nat × Nat)) : (pulseEvent s pg b i).pow = s.pow :=
  (congrArg State.pow (hush_pulseEvent s pg b i) :)
@[simp] theorem pulseEvent_pending (s : State) (pg b : Nat) (i : List (Nat × Nat)) : (pulseEvent s pg b i).pending = s.pending :=
  (congrArg State.pending (hush_pulseEvent s pg b i) :)
@[simp] theorem pulseEvent_sp (s : State) (pg b : Nat) (i : List (Nat × Nat)) : (pulseEvent s pg b i).sp = s.sp :=
  (congrArg State.sp (hush_pulseEvent s pg b i) :)
@[simp] theorem levelEvent_ns (s : State) (pg b : Nat) (h : Bool) (i : List (Nat × Nat)) : (levelEvent s pg b h i).ns = s.ns :=
  (congrArg State.ns (hush_levelEvent s pg b h i) :)
@[simp] theorem levelEvent_fresh (s : State) (pg b : Nat) (h : Bool) (i : List (Nat × Nat)) : (levelEvent s pg b h i).fresh = s.fresh :=
  (congrArg State.fresh (hush_levelEvent s pg b h i) :)
@[simp] theorem levelEvent_cores (s : State) (pg b : Nat) (h : Bool) (i : List (Nat × Nat)) : (levelEvent s pg b h i).cores = s.cores :=
  (congrArg State.cores (hush_levelEvent s pg b h i) :)
@[simp] theorem levelEvent_clusters (s : State) (pg b : Nat) (h : Bool) (i : List (Nat × Nat)) : (levelEvent s pg b h i).clusters = s.clusters :=
  (congrArg State.clusters (hush_levelEvent s pg b h i) :)
@[simp] theorem levelEvent_puts (s : State) (pg b : Nat) (h : Bool) (i : List (Nat × Nat)) : (levelEvent s pg b h i).puts = s.puts :=
  (congrArg State.puts (hush_levelEvent s pg b h i) :)
@[simp] theorem levelEvent_signals (s : State) (pg b : Nat) (h : Bool) (i : List (Nat × Nat)) : (levelEvent s pg b h i).signals = s.signals :=
  (congrArg State.signals (hush_levelEvent s pg b h i) :)
@[simp] theorem levelEvent_plans (s : State) (pg b : Nat) (h : Bool) (i : List (Nat × Nat)) : (levelEvent s pg b h i).plans = s.plans :=
  (congrArg State.plans (hush_levelEvent s pg b h i) :)
@[simp] theorem levelEvent_queues (s : State) (pg b : Nat) (h : Bool) (i : List (Nat × Nat)) : (levelEvent s pg b h i).queues = s.queues :=
  (congrArg State.queues (hush_levelEvent s pg b h i) :)
@[simp] theorem levelEvent_contexts (s : State) (pg b : Nat) (h : Bool) (i : List (Nat × Nat)) : (levelEvent s pg b h i).contexts = s.contexts :=
  (congrArg State.contexts (hush_levelEvent s pg b h i) :)
@[simp] theorem levelEvent_parts (s : State) (pg b : Nat) (h : Bool) (i : List (Nat × Nat)) : (levelEvent s pg b h i).parts = s.parts :=
  (congrArg State.parts (hush_levelEvent s pg b h i) :)
@[simp] theorem levelEvent_mem (s : State) (pg b : Nat) (h : Bool) (i : List (Nat × Nat)) : (levelEvent s pg b h i).mem = s.mem :=
  (congrArg State.mem (hush_levelEvent s pg b h i) :)
@[simp] theorem levelEvent_fab (s : State) (pg b : Nat) (h : Bool) (i : List (Nat × Nat)) : (levelEvent s pg b h i).fab = s.fab :=
  (congrArg State.fab (hush_levelEvent s pg b h i) :)
@[simp] theorem levelEvent_pow (s : State) (pg b : Nat) (h : Bool) (i : List (Nat × Nat)) : (levelEvent s pg b h i).pow = s.pow :=
  (congrArg State.pow (hush_levelEvent s pg b h i) :)
@[simp] theorem levelEvent_pending (s : State) (pg b : Nat) (h : Bool) (i : List (Nat × Nat)) : (levelEvent s pg b h i).pending = s.pending :=
  (congrArg State.pending (hush_levelEvent s pg b h i) :)
@[simp] theorem levelEvent_sp (s : State) (pg b : Nat) (h : Bool) (i : List (Nat × Nat)) : (levelEvent s pg b h i).sp = s.sp :=
  (congrArg State.sp (hush_levelEvent s pg b h i) :)
@[simp] theorem postRecord_ns (s : State) (r code kind : Nat) (crit : Bool) (i0 i1 : Nat) : (postRecord s r code kind crit i0 i1).ns = s.ns :=
  (congrArg State.ns (hush_postRecord s r code kind crit i0 i1) :)
@[simp] theorem postRecord_fresh (s : State) (r code kind : Nat) (crit : Bool) (i0 i1 : Nat) : (postRecord s r code kind crit i0 i1).fresh = s.fresh :=
  (congrArg State.fresh (hush_postRecord s r code kind crit i0 i1) :)
@[simp] theorem postRecord_cores (s : State) (r code kind : Nat) (crit : Bool) (i0 i1 : Nat) : (postRecord s r code kind crit i0 i1).cores = s.cores :=
  (congrArg State.cores (hush_postRecord s r code kind crit i0 i1) :)
@[simp] theorem postRecord_clusters (s : State) (r code kind : Nat) (crit : Bool) (i0 i1 : Nat) : (postRecord s r code kind crit i0 i1).clusters = s.clusters :=
  (congrArg State.clusters (hush_postRecord s r code kind crit i0 i1) :)
@[simp] theorem postRecord_puts (s : State) (r code kind : Nat) (crit : Bool) (i0 i1 : Nat) : (postRecord s r code kind crit i0 i1).puts = s.puts :=
  (congrArg State.puts (hush_postRecord s r code kind crit i0 i1) :)
@[simp] theorem postRecord_signals (s : State) (r code kind : Nat) (crit : Bool) (i0 i1 : Nat) : (postRecord s r code kind crit i0 i1).signals = s.signals :=
  (congrArg State.signals (hush_postRecord s r code kind crit i0 i1) :)
@[simp] theorem postRecord_plans (s : State) (r code kind : Nat) (crit : Bool) (i0 i1 : Nat) : (postRecord s r code kind crit i0 i1).plans = s.plans :=
  (congrArg State.plans (hush_postRecord s r code kind crit i0 i1) :)
@[simp] theorem postRecord_queues (s : State) (r code kind : Nat) (crit : Bool) (i0 i1 : Nat) : (postRecord s r code kind crit i0 i1).queues = s.queues :=
  (congrArg State.queues (hush_postRecord s r code kind crit i0 i1) :)
@[simp] theorem postRecord_contexts (s : State) (r code kind : Nat) (crit : Bool) (i0 i1 : Nat) : (postRecord s r code kind crit i0 i1).contexts = s.contexts :=
  (congrArg State.contexts (hush_postRecord s r code kind crit i0 i1) :)
@[simp] theorem postRecord_parts (s : State) (r code kind : Nat) (crit : Bool) (i0 i1 : Nat) : (postRecord s r code kind crit i0 i1).parts = s.parts :=
  (congrArg State.parts (hush_postRecord s r code kind crit i0 i1) :)
@[simp] theorem postRecord_mem (s : State) (r code kind : Nat) (crit : Bool) (i0 i1 : Nat) : (postRecord s r code kind crit i0 i1).mem = s.mem :=
  (congrArg State.mem (hush_postRecord s r code kind crit i0 i1) :)
@[simp] theorem postRecord_fab (s : State) (r code kind : Nat) (crit : Bool) (i0 i1 : Nat) : (postRecord s r code kind crit i0 i1).fab = s.fab :=
  (congrArg State.fab (hush_postRecord s r code kind crit i0 i1) :)
@[simp] theorem postRecord_pow (s : State) (r code kind : Nat) (crit : Bool) (i0 i1 : Nat) : (postRecord s r code kind crit i0 i1).pow = s.pow :=
  (congrArg State.pow (hush_postRecord s r code kind crit i0 i1) :)
@[simp] theorem postRecord_pending (s : State) (r code kind : Nat) (crit : Bool) (i0 i1 : Nat) : (postRecord s r code kind crit i0 i1).pending = s.pending :=
  (congrArg State.pending (hush_postRecord s r code kind crit i0 i1) :)
@[simp] theorem postRecord_sp (s : State) (r code kind : Nat) (crit : Bool) (i0 i1 : Nat) : (postRecord s r code kind crit i0 i1).sp = s.sp :=
  (congrArg State.sp (hush_postRecord s r code kind crit i0 i1) :)
@[simp] theorem setLevel_ns (s : State) (w l : Nat) : (setLevel s w l).ns = s.ns :=
  (congrArg State.ns (hush_setLevel s w l) :)
@[simp] theorem setLevel_fresh (s : State) (w l : Nat) : (setLevel s w l).fresh = s.fresh :=
  (congrArg State.fresh (hush_setLevel s w l) :)
@[simp] theorem setLevel_cores (s : State) (w l : Nat) : (setLevel s w l).cores = s.cores :=
  (congrArg State.cores (hush_setLevel s w l) :)
@[simp] theorem setLevel_clusters (s : State) (w l : Nat) : (setLevel s w l).clusters = s.clusters :=
  (congrArg State.clusters (hush_setLevel s w l) :)
@[simp] theorem setLevel_puts (s : State) (w l : Nat) : (setLevel s w l).puts = s.puts :=
  (congrArg State.puts (hush_setLevel s w l) :)
@[simp] theorem setLevel_signals (s : State) (w l : Nat) : (setLevel s w l).signals = s.signals :=
  (congrArg State.signals (hush_setLevel s w l) :)
@[simp] theorem setLevel_plans (s : State) (w l : Nat) : (setLevel s w l).plans = s.plans :=
  (congrArg State.plans (hush_setLevel s w l) :)
@[simp] theorem setLevel_queues (s : State) (w l : Nat) : (setLevel s w l).queues = s.queues :=
  (congrArg State.queues (hush_setLevel s w l) :)
@[simp] theorem setLevel_contexts (s : State) (w l : Nat) : (setLevel s w l).contexts = s.contexts :=
  (congrArg State.contexts (hush_setLevel s w l) :)
@[simp] theorem setLevel_parts (s : State) (w l : Nat) : (setLevel s w l).parts = s.parts :=
  (congrArg State.parts (hush_setLevel s w l) :)
@[simp] theorem setLevel_mem (s : State) (w l : Nat) : (setLevel s w l).mem = s.mem :=
  (congrArg State.mem (hush_setLevel s w l) :)
@[simp] theorem setLevel_fab (s : State) (w l : Nat) : (setLevel s w l).fab = s.fab :=
  (congrArg State.fab (hush_setLevel s w l) :)
@[simp] theorem setLevel_pow (s : State) (w l : Nat) : (setLevel s w l).pow = s.pow :=
  (congrArg State.pow (hush_setLevel s w l) :)
@[simp] theorem setLevel_pending (s : State) (w l : Nat) : (setLevel s w l).pending = s.pending :=
  (congrArg State.pending (hush_setLevel s w l) :)
@[simp] theorem setLevel_sp (s : State) (w l : Nat) : (setLevel s w l).sp = s.sp :=
  (congrArg State.sp (hush_setLevel s w l) :)
@[simp] theorem countMonitor_ns (s : State) (m : Nat) : (countMonitor s m).ns = s.ns :=
  (congrArg State.ns (hush_countMonitor s m) :)
@[simp] theorem countMonitor_fresh (s : State) (m : Nat) : (countMonitor s m).fresh = s.fresh :=
  (congrArg State.fresh (hush_countMonitor s m) :)
@[simp] theorem countMonitor_cores (s : State) (m : Nat) : (countMonitor s m).cores = s.cores :=
  (congrArg State.cores (hush_countMonitor s m) :)
@[simp] theorem countMonitor_clusters (s : State) (m : Nat) : (countMonitor s m).clusters = s.clusters :=
  (congrArg State.clusters (hush_countMonitor s m) :)
@[simp] theorem countMonitor_puts (s : State) (m : Nat) : (countMonitor s m).puts = s.puts :=
  (congrArg State.puts (hush_countMonitor s m) :)
@[simp] theorem countMonitor_signals (s : State) (m : Nat) : (countMonitor s m).signals = s.signals :=
  (congrArg State.signals (hush_countMonitor s m) :)
@[simp] theorem countMonitor_plans (s : State) (m : Nat) : (countMonitor s m).plans = s.plans :=
  (congrArg State.plans (hush_countMonitor s m) :)
@[simp] theorem countMonitor_queues (s : State) (m : Nat) : (countMonitor s m).queues = s.queues :=
  (congrArg State.queues (hush_countMonitor s m) :)
@[simp] theorem countMonitor_contexts (s : State) (m : Nat) : (countMonitor s m).contexts = s.contexts :=
  (congrArg State.contexts (hush_countMonitor s m) :)
@[simp] theorem countMonitor_parts (s : State) (m : Nat) : (countMonitor s m).parts = s.parts :=
  (congrArg State.parts (hush_countMonitor s m) :)
@[simp] theorem countMonitor_mem (s : State) (m : Nat) : (countMonitor s m).mem = s.mem :=
  (congrArg State.mem (hush_countMonitor s m) :)
@[simp] theorem countMonitor_fab (s : State) (m : Nat) : (countMonitor s m).fab = s.fab :=
  (congrArg State.fab (hush_countMonitor s m) :)
@[simp] theorem countMonitor_pow (s : State) (m : Nat) : (countMonitor s m).pow = s.pow :=
  (congrArg State.pow (hush_countMonitor s m) :)
@[simp] theorem countMonitor_pending (s : State) (m : Nat) : (countMonitor s m).pending = s.pending :=
  (congrArg State.pending (hush_countMonitor s m) :)
@[simp] theorem countMonitor_sp (s : State) (m : Nat) : (countMonitor s m).sp = s.sp :=
  (congrArg State.sp (hush_countMonitor s m) :)
@[simp] theorem logIt_ns (s : State) (source code part ctx i0 i1 : Nat) : (logIt s source code part ctx i0 i1).ns = s.ns :=
  (congrArg State.ns (quiet_logIt s source code part ctx i0 i1) :)
@[simp] theorem logIt_fresh (s : State) (source code part ctx i0 i1 : Nat) : (logIt s source code part ctx i0 i1).fresh = s.fresh :=
  (congrArg State.fresh (quiet_logIt s source code part ctx i0 i1) :)
@[simp] theorem logIt_cores (s : State) (source code part ctx i0 i1 : Nat) : (logIt s source code part ctx i0 i1).cores = s.cores :=
  (congrArg State.cores (quiet_logIt s source code part ctx i0 i1) :)
@[simp] theorem logIt_clusters (s : State) (source code part ctx i0 i1 : Nat) : (logIt s source code part ctx i0 i1).clusters = s.clusters :=
  (congrArg State.clusters (quiet_logIt s source code part ctx i0 i1) :)
@[simp] theorem logIt_puts (s : State) (source code part ctx i0 i1 : Nat) : (logIt s source code part ctx i0 i1).puts = s.puts :=
  (congrArg State.puts (quiet_logIt s source code part ctx i0 i1) :)
@[simp] theorem logIt_signals (s : State) (source code part ctx i0 i1 : Nat) : (logIt s source code part ctx i0 i1).signals = s.signals :=
  (congrArg State.signals (quiet_logIt s source code part ctx i0 i1) :)
@[simp] theorem logIt_plans (s : State) (source code part ctx i0 i1 : Nat) : (logIt s source code part ctx i0 i1).plans = s.plans :=
  (congrArg State.plans (quiet_logIt s source code part ctx i0 i1) :)
@[simp] theorem logIt_queues (s : State) (source code part ctx i0 i1 : Nat) : (logIt s source code part ctx i0 i1).queues = s.queues :=
  (congrArg State.queues (quiet_logIt s source code part ctx i0 i1) :)
@[simp] theorem logIt_contexts (s : State) (source code part ctx i0 i1 : Nat) : (logIt s source code part ctx i0 i1).contexts = s.contexts :=
  (congrArg State.contexts (quiet_logIt s source code part ctx i0 i1) :)
@[simp] theorem logIt_parts (s : State) (source code part ctx i0 i1 : Nat) : (logIt s source code part ctx i0 i1).parts = s.parts :=
  (congrArg State.parts (quiet_logIt s source code part ctx i0 i1) :)
@[simp] theorem logIt_mem (s : State) (source code part ctx i0 i1 : Nat) : (logIt s source code part ctx i0 i1).mem = s.mem :=
  (congrArg State.mem (quiet_logIt s source code part ctx i0 i1) :)
@[simp] theorem logIt_fab (s : State) (source code part ctx i0 i1 : Nat) : (logIt s source code part ctx i0 i1).fab = s.fab :=
  (congrArg State.fab (quiet_logIt s source code part ctx i0 i1) :)
@[simp] theorem logIt_pow (s : State) (source code part ctx i0 i1 : Nat) : (logIt s source code part ctx i0 i1).pow = s.pow :=
  (congrArg State.pow (quiet_logIt s source code part ctx i0 i1) :)
@[simp] theorem logIt_pending (s : State) (source code part ctx i0 i1 : Nat) : (logIt s source code part ctx i0 i1).pending = s.pending :=
  (congrArg State.pending (quiet_logIt s source code part ctx i0 i1) :)
@[simp] theorem logIt_lcWord (s : State) (source code part ctx i0 i1 : Nat) : (logIt s source code part ctx i0 i1).sp.lcWord = s.sp.lcWord :=
  (congrArg (fun x => x.sp.lcWord) (quiet_logIt s source code part ctx i0 i1) :)
@[simp] theorem logIt_slots (s : State) (source code part ctx i0 i1 : Nat) : (logIt s source code part ctx i0 i1).sp.slots = s.sp.slots :=
  (congrArg (fun x => x.sp.slots) (quiet_logIt s source code part ctx i0 i1) :)
@[simp] theorem logIt_keyCtxs (s : State) (source code part ctx i0 i1 : Nat) : (logIt s source code part ctx i0 i1).sp.keyCtxs = s.sp.keyCtxs :=
  (congrArg (fun x => x.sp.keyCtxs) (quiet_logIt s source code part ctx i0 i1) :)
@[simp] theorem logIt_sessions (s : State) (source code part ctx i0 i1 : Nat) : (logIt s source code part ctx i0 i1).sp.sessions = s.sp.sessions :=
  (congrArg (fun x => x.sp.sessions) (quiet_logIt s source code part ctx i0 i1) :)
@[simp] theorem logIt_spdm (s : State) (source code part ctx i0 i1 : Nat) : (logIt s source code part ctx i0 i1).sp.spdm = s.sp.spdm :=
  (congrArg (fun x => x.sp.spdm) (quiet_logIt s source code part ctx i0 i1) :)
@[simp] theorem logIt_bankA (s : State) (source code part ctx i0 i1 : Nat) : (logIt s source code part ctx i0 i1).sp.bankA = s.sp.bankA :=
  (congrArg (fun x => x.sp.bankA) (quiet_logIt s source code part ctx i0 i1) :)
@[simp] theorem logIt_bankB (s : State) (source code part ctx i0 i1 : Nat) : (logIt s source code part ctx i0 i1).sp.bankB = s.sp.bankB :=
  (congrArg (fun x => x.sp.bankB) (quiet_logIt s source code part ctx i0 i1) :)
@[simp] theorem logIt_authority (s : State) (source code part ctx i0 i1 : Nat) : (logIt s source code part ctx i0 i1).sp.authority = s.sp.authority :=
  (congrArg (fun x => x.sp.authority) (quiet_logIt s source code part ctx i0 i1) :)
@[simp] theorem postEvent_ns (s : State) (l : List Nat) (code : Nat) (crit : Bool) (part i0 i1 : Nat) : (postEvent s l code crit part i0 i1).ns = s.ns :=
  (congrArg State.ns (quiet_postEvent s l code crit part i0 i1) :)
@[simp] theorem postEvent_fresh (s : State) (l : List Nat) (code : Nat) (crit : Bool) (part i0 i1 : Nat) : (postEvent s l code crit part i0 i1).fresh = s.fresh :=
  (congrArg State.fresh (quiet_postEvent s l code crit part i0 i1) :)
@[simp] theorem postEvent_cores (s : State) (l : List Nat) (code : Nat) (crit : Bool) (part i0 i1 : Nat) : (postEvent s l code crit part i0 i1).cores = s.cores :=
  (congrArg State.cores (quiet_postEvent s l code crit part i0 i1) :)
@[simp] theorem postEvent_clusters (s : State) (l : List Nat) (code : Nat) (crit : Bool) (part i0 i1 : Nat) : (postEvent s l code crit part i0 i1).clusters = s.clusters :=
  (congrArg State.clusters (quiet_postEvent s l code crit part i0 i1) :)
@[simp] theorem postEvent_puts (s : State) (l : List Nat) (code : Nat) (crit : Bool) (part i0 i1 : Nat) : (postEvent s l code crit part i0 i1).puts = s.puts :=
  (congrArg State.puts (quiet_postEvent s l code crit part i0 i1) :)
@[simp] theorem postEvent_signals (s : State) (l : List Nat) (code : Nat) (crit : Bool) (part i0 i1 : Nat) : (postEvent s l code crit part i0 i1).signals = s.signals :=
  (congrArg State.signals (quiet_postEvent s l code crit part i0 i1) :)
@[simp] theorem postEvent_plans (s : State) (l : List Nat) (code : Nat) (crit : Bool) (part i0 i1 : Nat) : (postEvent s l code crit part i0 i1).plans = s.plans :=
  (congrArg State.plans (quiet_postEvent s l code crit part i0 i1) :)
@[simp] theorem postEvent_queues (s : State) (l : List Nat) (code : Nat) (crit : Bool) (part i0 i1 : Nat) : (postEvent s l code crit part i0 i1).queues = s.queues :=
  (congrArg State.queues (quiet_postEvent s l code crit part i0 i1) :)
@[simp] theorem postEvent_contexts (s : State) (l : List Nat) (code : Nat) (crit : Bool) (part i0 i1 : Nat) : (postEvent s l code crit part i0 i1).contexts = s.contexts :=
  (congrArg State.contexts (quiet_postEvent s l code crit part i0 i1) :)
@[simp] theorem postEvent_parts (s : State) (l : List Nat) (code : Nat) (crit : Bool) (part i0 i1 : Nat) : (postEvent s l code crit part i0 i1).parts = s.parts :=
  (congrArg State.parts (quiet_postEvent s l code crit part i0 i1) :)
@[simp] theorem postEvent_mem (s : State) (l : List Nat) (code : Nat) (crit : Bool) (part i0 i1 : Nat) : (postEvent s l code crit part i0 i1).mem = s.mem :=
  (congrArg State.mem (quiet_postEvent s l code crit part i0 i1) :)
@[simp] theorem postEvent_fab (s : State) (l : List Nat) (code : Nat) (crit : Bool) (part i0 i1 : Nat) : (postEvent s l code crit part i0 i1).fab = s.fab :=
  (congrArg State.fab (quiet_postEvent s l code crit part i0 i1) :)
@[simp] theorem postEvent_pow (s : State) (l : List Nat) (code : Nat) (crit : Bool) (part i0 i1 : Nat) : (postEvent s l code crit part i0 i1).pow = s.pow :=
  (congrArg State.pow (quiet_postEvent s l code crit part i0 i1) :)
@[simp] theorem postEvent_pending (s : State) (l : List Nat) (code : Nat) (crit : Bool) (part i0 i1 : Nat) : (postEvent s l code crit part i0 i1).pending = s.pending :=
  (congrArg State.pending (quiet_postEvent s l code crit part i0 i1) :)
@[simp] theorem postEvent_lcWord (s : State) (l : List Nat) (code : Nat) (crit : Bool) (part i0 i1 : Nat) : (postEvent s l code crit part i0 i1).sp.lcWord = s.sp.lcWord :=
  (congrArg (fun x => x.sp.lcWord) (quiet_postEvent s l code crit part i0 i1) :)
@[simp] theorem postEvent_slots (s : State) (l : List Nat) (code : Nat) (crit : Bool) (part i0 i1 : Nat) : (postEvent s l code crit part i0 i1).sp.slots = s.sp.slots :=
  (congrArg (fun x => x.sp.slots) (quiet_postEvent s l code crit part i0 i1) :)
@[simp] theorem postEvent_keyCtxs (s : State) (l : List Nat) (code : Nat) (crit : Bool) (part i0 i1 : Nat) : (postEvent s l code crit part i0 i1).sp.keyCtxs = s.sp.keyCtxs :=
  (congrArg (fun x => x.sp.keyCtxs) (quiet_postEvent s l code crit part i0 i1) :)
@[simp] theorem postEvent_sessions (s : State) (l : List Nat) (code : Nat) (crit : Bool) (part i0 i1 : Nat) : (postEvent s l code crit part i0 i1).sp.sessions = s.sp.sessions :=
  (congrArg (fun x => x.sp.sessions) (quiet_postEvent s l code crit part i0 i1) :)
@[simp] theorem postEvent_spdm (s : State) (l : List Nat) (code : Nat) (crit : Bool) (part i0 i1 : Nat) : (postEvent s l code crit part i0 i1).sp.spdm = s.sp.spdm :=
  (congrArg (fun x => x.sp.spdm) (quiet_postEvent s l code crit part i0 i1) :)
@[simp] theorem postEvent_bankA (s : State) (l : List Nat) (code : Nat) (crit : Bool) (part i0 i1 : Nat) : (postEvent s l code crit part i0 i1).sp.bankA = s.sp.bankA :=
  (congrArg (fun x => x.sp.bankA) (quiet_postEvent s l code crit part i0 i1) :)
@[simp] theorem postEvent_bankB (s : State) (l : List Nat) (code : Nat) (crit : Bool) (part i0 i1 : Nat) : (postEvent s l code crit part i0 i1).sp.bankB = s.sp.bankB :=
  (congrArg (fun x => x.sp.bankB) (quiet_postEvent s l code crit part i0 i1) :)
@[simp] theorem postEvent_authority (s : State) (l : List Nat) (code : Nat) (crit : Bool) (part i0 i1 : Nat) : (postEvent s l code crit part i0 i1).sp.authority = s.sp.authority :=
  (congrArg (fun x => x.sp.authority) (quiet_postEvent s l code crit part i0 i1) :)

end Sys2Proof.Machine
end

