-- ==== Sys2Proof/Laws/Memory.lean ====
section
/-! SUPPORT. Laws of device memory: every operation that writes or forgets stored bytes keeps their canonical form, and what a
line read, a line write and a zero-fill leave alone. -/

namespace Sys2Proof.Machine
open Sys2Proof

/-- Forgetting entries keeps the canonical form. -/
theorem trising_filter {α : Type} (p : Nat × α → Bool) (t : Tab α) (h : trising t = true) : trising (t.filter p) = true := by
  have above : ∀ (n : Nat) (t : Tab α), tabove n t = true → tabove n (t.filter p) = true := by
    intro n t ht
    induction t with
    | nil => rfl
    | cons q t ih =>
      obtain ⟨k, v⟩ := q
      simp only [tabove, List.all_cons, Bool.and_eq_true, List.filter] at *
      split
      · simp only [List.all_cons, Bool.and_eq_true]; exact ⟨ht.1, ih ht.2⟩
      · exact ih ht.2
  induction t with
  | nil => rfl
  | cons q t ih =>
    obtain ⟨k, v⟩ := q
    rw [trising_cons, Bool.and_eq_true] at h
    simp only [List.filter]
    split
    · rw [trising_cons, Bool.and_eq_true]; exact ⟨above k t h.1, ih h.2⟩
    · exact ih h.2

theorem memWf_filter (p : Nat × Byte → Bool) (m : Mem) (h : memWf m = true) : memWf (m.filter p) = true := by
  simp only [memWf, Tab.wf, Bool.and_eq_true] at *
  refine ⟨trising_filter p m h.1, ?_⟩
  rw [List.all_eq_true] at h ⊢
  exact fun q hq => h.2 q (List.mem_of_mem_filter hq)

theorem reset_memWf : memWf State.reset.mem.bytes = true := rfl

/-! ## Operations that forget or write bytes -/

theorem primeGranule_memWf (s : State) (g : Nat) (h : memWf s.mem.bytes = true) : memWf (primeGranule s g).mem.bytes = true :=
  memWf_filter _ _ h

theorem primeWhere_memWf (s : State) (p : Nat → Bool) (h : memWf s.mem.bytes = true) : memWf (primeWhere s p).mem.bytes = true :=
  memWf_filter _ _ h

/-! ## What leaves the stored bytes alone -/

@[simp] theorem modCtlAt_mem_bytes (s : State) (a : Nat) (f : MemCtl → MemCtl) : (modCtlAt s a f).mem.bytes = s.mem.bytes := rfl
@[simp] theorem setDirty_mem_bytes (s : State) (g : Nat) : (setDirty s g).mem.bytes = s.mem.bytes := rfl
@[simp] theorem fillGranule_mem_bytes (s : State) (key g : Nat) : (fillGranule s key g).mem.bytes = s.mem.bytes := rfl
@[simp] theorem countMemExc_mem (s : State) (n : Nat) : (countMemExc s n).mem = s.mem := rfl
@[simp] theorem countFill_mem_bytes (s : State) (a : Nat) : (countFill s a).mem.bytes = s.mem.bytes := rfl
@[simp] theorem setAnswer_mem_bytes (s : State) (st : Status) (b : Bytes) : (setAnswer s st b).mem.bytes = s.mem.bytes := rfl

@[simp] theorem loadSlot_mem (s : State) (slot cls : Nat) (key : BitVec 256) (part ses owner expiry limit : Nat) :
    (loadSlot s slot cls key part ses owner expiry limit).mem = s.mem := by
  unfold loadSlot; simp only []; split <;> rfl
@[simp] theorem draw_mem (s : State) : (draw s).2.mem = s.mem := rfl
@[simp] theorem startSanding_mem (s : State) (key : Nat) : (startSanding s key).mem = s.mem := by
  unfold startSanding; simp only []
  repeat' split
  all_goals simp [pin, modSlot]
@[simp] theorem addWrites_mem (s : State) (key cur old : Nat) : (addWrites s key cur old).mem = s.mem := by
  unfold addWrites; simp only []; split
  · rfl
  · split
    · simp
    · rfl
@[simp] theorem poisonEvent_mem (s : State) (a cause key ctx : Nat) : (poisonEvent s a cause key ctx).mem = s.mem := by simp [poisonEvent]
theorem poisonEvent_mem_bytes (s : State) (a cause key ctx : Nat) : (poisonEvent s a cause key ctx).mem.bytes = s.mem.bytes := by simp
theorem countMonitor_mem_bytes (s : State) (n : Nat) : (countMonitor s n).mem.bytes = s.mem.bytes := by simp
@[simp] theorem poisonLine_mem_bytes (s : State) (a : Nat) : (poisonLine s a).mem.bytes = s.mem.bytes := by simp [poisonLine]
@[simp] theorem correctLine_mem_bytes (s : State) (a : Nat) : (correctLine s a).mem.bytes = s.mem.bytes := by
  unfold correctLine; simp only []; split <;> simp
theorem poisonLines_mem_bytes (l : List Nat) (s : State) (cause key ctx : Nat) :
    (l.foldl (fun s b => if (lineInfo s b).poison then s else poisonEvent (poisonLine s b) b cause key ctx) s).mem.bytes = s.mem.bytes := by
  induction l generalizing s with
  | nil => rfl
  | cons b l ih => rw [List.foldl_cons, ih]; split <;> simp
@[simp] theorem failLine_mem_bytes (s : State) (a key ctx cause : Nat) (row3 : Bool) :
    (failLine s a key ctx cause row3).mem.bytes = s.mem.bytes := by
  unfold failLine; simp only []; split
  · rw [poisonLines_mem_bytes]; simp
  · simp

/-- Between two memories nothing changes but bytes of the line at `a`, and the canonical form is kept. -/
def LineOnly (a : Nat) (s t : State) : Prop :=
  (memWf s.mem.bytes = true → memWf t.mem.bytes = true) ∧
    ∀ c, (c < a ∨ a + 64 ≤ c) → mread t.mem.bytes c = mread s.mem.bytes c

theorem LineOnly.of_eq {a : Nat} {s t : State} (h : t.mem.bytes = s.mem.bytes) : LineOnly a s t := by
  unfold LineOnly; rw [h]; exact ⟨id, fun _ _ => rfl⟩
theorem LineOnly.of_write {a v : Nat} {s t : State} (h : t.mem.bytes = mwriteN s.mem.bytes a (leBytes 64 v)) : LineOnly a s t := by
  unfold LineOnly; rw [h]
  exact ⟨memWf_mwriteN _ _ _, fun c hc => mread_mwriteN_out _ _ _ _ (by simpa using hc)⟩
theorem LineOnly.trans {a : Nat} {s t u : State} (h : LineOnly a s t) (k : LineOnly a t u) : LineOnly a s u :=
  ⟨fun w => k.1 (h.1 w), fun c hc => (k.2 c hc).trans (h.2 c hc)⟩

/-- A line that passes its tag check leaves the stored bytes as they are, or writes back its own 64 bytes. -/
theorem passLine_only (s : State) (a key : Nat) (raw : RawRead) : LineOnly a s (passLine s a key raw).2.2 := by
  have wb : ∀ (l : Tab Line) (c : Prop) [Decidable c] (v : Nat), LineOnly a s (if c then correctLine { s with
      mem := { s.mem with lines := l, bytes := mwriteN s.mem.bytes a (leBytes 64 v) } } a else s) := by
    intro l c _ v
    split
    · exact LineOnly.of_write (correctLine_mem_bytes _ _)
    · exact LineOnly.of_eq rfl
  unfold passLine
  simp only []
  split
  · exact wb _ _ _
  · split
    · exact LineOnly.of_eq (correctLine_mem_bytes _ _)
    · exact LineOnly.of_eq rfl

/-- A line read changes no stored byte outside its line, whatever it finds. -/
theorem readLine_only (s : State) (ctx key a : Nat) (force : Option Nat) (r1 r2 : RawRead) :
    LineOnly a s (readLine s ctx key a force r1 r2).2.2 := by
  have hp := fun s raw => passLine_only s a key raw
  have hf := fun s c row => LineOnly.of_eq (a := a) (failLine_mem_bytes s a key ctx c row)
  have hq := fun s c => LineOnly.of_eq (a := a) (poisonEvent_mem_bytes s a c key ctx)
  have hc := fun s => LineOnly.of_eq (a := a) (countMonitor_mem_bytes s 1)
  unfold readLine
  generalize passLine = pl at *
  generalize failLine = fl at *
  generalize poisonEvent = pe at *
  generalize countMonitor = cm at *
  simp only []
  repeat' split
  all_goals first
    | exact hp _ _
    | exact hf _ _ _
    | exact hq _ _
    | exact LineOnly.of_eq rfl
    | (refine LineOnly.trans ?_ (hq _ _); exact LineOnly.of_eq rfl)
    | (refine LineOnly.trans ?_ (hf _ _ _); exact LineOnly.of_eq rfl)
    | (refine LineOnly.trans (LineOnly.trans ?_ (hc _)) (hp _ _); exact LineOnly.of_eq rfl)

/-! ## What a line write does -/

theorem reserveFill_mem {s t : State} {key a : Nat} (h : reserveFill s key a = some t) : t.mem = s.mem := by
  unfold reserveFill at h
  simp only [Option.ite_none_right_eq_some, Option.some.injEq] at h
  rw [← h.2]; simp

@[simp] theorem modCtl_mem_bytes (s : State) (c : Nat) (f : MemCtl → MemCtl) : (modCtl s c f).mem.bytes = s.mem.bytes := rfl
@[simp] theorem countCopy_mem_bytes (s : State) (ctl a : Nat) (r : Decoded) : (countCopy s ctl a r).mem.bytes = s.mem.bytes := by
  unfold countCopy; split <;> simp
/-- A read of the reserved region that a copy serves leaves the stored bytes as they are. -/
theorem readReserved_mem_bytes (s : State) (a : Nat) (r1 r2 : RawRead) (h : (readReserved s a r1 r2).1 = .ok) :
    (readReserved s a r1 r2).2.2.mem.bytes = s.mem.bytes := by
  unfold readReserved at *
  simp only [] at *
  repeat' split
  all_goals simp_all

/-- A write of the reserved region keeps the form: of a whole line, or merged with a line that a copy serves. -/
theorem writeReserved_memWf (s : State) (r : MemReq) (data : Bytes) (r1 r2 : RawRead) (h : memWf s.mem.bytes = true)
    (hr : (readReserved s r.addr r1 r2).1 = .ok) : memWf (writeReserved s r data r1 r2).mem.bytes = true := by
  have e := readReserved_mem_bytes s r.addr r1 r2 hr
  unfold writeReserved
  simp only []
  split
  · exact memWf_mwriteN _ _ _ h
  · split
    · rename_i hu
      rw [hu] at e
      have e2 : memWf _ = true := e ▸ h
      exact memWf_mwriteN _ _ _ e2
    · rename_i st b u hu
      rw [hu] at hr
      simp_all

/-- A line write changes no stored byte outside its line. -/
theorem storeLine_only (s : State) (ctx key a mask data : Nat) (paid : Bool) (r1 r2 : RawRead) :
    LineOnly a s (storeLine s ctx key a mask data paid r1 r2).2 := by
  have put : ∀ (u : State) (l : Tab Line) (cur old : Nat) (v : Nat), LineOnly a u
      (if paid then { u with mem := { u.mem with bytes := mwriteN u.mem.bytes a (leBytes 64 v), lines := l } }
        else addWrites { u with mem := { u.mem with bytes := mwriteN u.mem.bytes a (leBytes 64 v), lines := l } } key cur old) :=
    fun u l cur old v => LineOnly.of_write (v := v) (by split <;> simp)
  unfold storeLine
  simp only []
  by_cases h1 : (!isReserved a && (tlook s.mem.granules (granOf a)).map (·.key) != some key) = true
  · rw [if_pos h1]; exact LineOnly.of_eq rfl
  · rw [if_neg h1]
    generalize (if assignedGen s key a = (keyOf s key).gen then 1 else 0) = cur
    by_cases h2 : (!paid && !budgetOk s key cur (1 - cur)) = true
    · rw [if_pos h2]; exact LineOnly.of_eq rfl
    · rw [if_neg h2]
      by_cases h3 : mask = fullMask
      · rw [if_pos h3]; exact put s _ _ _ _
      · rw [if_neg h3]
        have e := readLine_only s ctx key a (some 6) r1 r2
        split
        · rename_i h; rw [h] at e; exact e.trans (put _ _ _ _ _)
        · rename_i h; rw [h] at e; exact e

/-! ## A zero-fill that ends -/

theorem landRead_only (s : State) (r : MemReq) (r1 r2 : RawRead) : LineOnly (lineBase r.addr) s (landRead s r r1 r2) :=
  readLine_only s r.ctx r.key (lineBase r.addr) none r1 r2

/-- A held write changes no stored byte outside its line. -/
theorem landWrite_only (s : State) (r : MemReq) (data : Bytes) (paid : Bool) (r1 r2 : RawRead) :
    LineOnly (lineBase r.addr) s (landWrite s r data paid r1 r2) := by
  unfold landWrite
  simp only []
  split
  · exact LineOnly.of_eq rfl
  · split
    · exact LineOnly.of_eq rfl
    · exact storeLine_only _ _ _ _ _ _ _ _ _

theorem landHeld_memWf (paid : Bool) (s : State) (q : HeldMem) (h : memWf s.mem.bytes = true) :
    memWf (landHeld paid s q).mem.bytes = true := by
  unfold landHeld
  split
  · exact (landRead_only _ _ _ _).1 h
  · exact (landWrite_only _ _ _ _ _ _).1 h

theorem landHelds_memWf (l : List HeldMem) (s : State) (h : memWf s.mem.bytes = true) :
    memWf (l.foldl (landHeld false) s).mem.bytes = true := by
  induction l generalizing s with
  | nil => exact h
  | cons q l ih => exact ih _ (landHeld_memWf false s q h)

theorem finishFill_memWf (s : State) (g : Nat) (h : memWf s.mem.bytes = true) : memWf (finishFill s g).mem.bytes = true := by
  unfold finishFill
  split
  · exact h
  · split
    · exact h
    · simp only []
      split
      · simpa using h
      · exact landHelds_memWf _ _ (landHeld_memWf true _ _ (by simpa using h))

/-- No zero-fill of a granule is in progress. -/
def notFilling (s : State) (g : Nat) : Bool := (tlook s.mem.granules g).all (fun e => !e.filling)

theorem finishFill_idle (s : State) (g : Nat) (h : notFilling s g = true) : finishFill s g = s := by
  unfold finishFill
  split
  · rfl
  · rename_i e he
    simp only [notFilling, he, Option.all_some] at h
    rw [if_pos h]

/-! ## What a line write of a unit does -/

/-- A line write into a granule that no zero-fill holds, one that it starts itself included, changes no stored byte outside its
line. -/
theorem writeLine_only (s : State) (ctx key a mask data : Nat) (measured : Bool) (r1 r2 : RawRead) (hf : notFilling s (granOf a) = true) :
    LineOnly a s (writeLine s ctx key a mask data measured r1 r2).2 := by
  unfold writeLine
  simp only [finishFill_idle s _ hf]
  split
  · exact LineOnly.of_eq rfl
  · split
    · exact LineOnly.of_eq rfl
    · split
      · split
        · exact LineOnly.of_eq rfl
        · rename_i u hu
          exact LineOnly.trans (LineOnly.of_eq (by simp [reserveFill_mem hu])) (storeLine_only _ _ _ _ _ _ _ _ _)
      · exact storeLine_only _ _ _ _ _ _ _ _ _

theorem writeLine_memWf (s : State) (ctx key a mask data : Nat) (measured : Bool) (r1 r2 : RawRead) (h : memWf s.mem.bytes = true) :
    memWf (writeLine s ctx key a mask data measured r1 r2).2.mem.bytes = true := by
  unfold writeLine
  simp only []
  split
  · exact h
  · split
    · exact h
    · have k := finishFill_memWf s (granOf a) h
      split
      · split
        · exact k
        · rename_i u hu
          have e := reserveFill_mem hu
          exact (storeLine_only _ _ _ _ _ _ _ _ _).1 (by simpa [e] using k)
      · exact (storeLine_only _ _ _ _ _ _ _ _ _).1 k

/-- Bytes outside a written line are as they were. -/
theorem writeLine_frame (s : State) (ctx key a mask data : Nat) (measured : Bool) (r1 r2 : RawRead) (c : Nat)
    (hf : notFilling s (granOf a) = true) (hc : c < a ∨ a + 64 ≤ c) :
    mread (writeLine s ctx key a mask data measured r1 r2).2.mem.bytes c = mread s.mem.bytes c :=
  (writeLine_only s ctx key a mask data measured r1 r2 hf).2 c hc

end Sys2Proof.Machine
end

