-- ==== Sys2Proof/Laws/StillBase.lean ====
section
/-! SUPPORT. What no operation of the model touches: module time, the queue of commands that wait, and the life-cycle word of the
OTP with the bits that programming under way still sets. `still` is the three together; each lemma says that an operation leaves
them as they are. -/

namespace Sys2Proof.Machine
open Sys2Proof

/-- Module time, the waiting commands and the settled life-cycle word. -/
def still (s : State) : Nat × List Instr × DWord := (s.ns, s.pending, lcSettled s.sp)

/-- An outcome that, where it is a next state, leaves them as they are. -/
def Kept (s : State) (o : Host.Outcome State Fault Refusal) : Prop := ∀ t, o = .next t → still t = still s

@[simp] theorem kept_next (s t : State) : Kept s (.next t) ↔ still t = still s :=
  ⟨fun h => h t rfl, fun h _ e => by injection e with e; exact e ▸ h⟩

@[simp] theorem kept_ite (s : State) (c : Prop) [Decidable c] (a b : Host.Outcome State Fault Refusal) :
    Kept s (if c then a else b) ↔ if c then Kept s a else Kept s b := by split <;> rfl

theorem lcSettled_congr {p q : Sp} (h : p.lcWord = q.lcWord) (k : p.programming = q.programming) : lcSettled p = lcSettled q := by
  unfold lcSettled; rw [h, k]

@[simp] theorem still_upd (t : State) (half fresh cores clusters puts signals plans queues contexts parts mem fab sp pow regs)
    (h : sp.lcWord = t.sp.lcWord) (k : sp.programming = t.sp.programming) :
    still ⟨t.ns, half, fresh, cores, clusters, puts, signals, plans, queues, contexts, parts, mem, fab, sp, pow, regs, t.pending⟩ = still t := by
  simp [still, lcSettled_congr h k]

@[simp] theorem still_ite (c : Prop) [Decidable c] (a b : State) : still (if c then a else b) = if c then still a else still b :=
  apply_ite still c a b

@[simp] theorem still_ite_snd {α : Type} (c : Prop) [Decidable c] (a b : α × State) :
    still (if c then a else b).2 = if c then still a.2 else still b.2 := by split <;> rfl

@[simp] theorem still_foldl {α : Type} (f : State → α → State) (h : ∀ s x, still (f s x) = still s) (l : List α) (s : State) :
    still (l.foldl f s) = still s := by
  induction l generalizing s with
  | nil => rfl
  | cons x l ih => rw [List.foldl_cons, ih, h]

theorem still_of_snd {α : Type} {p : α × State} {a : α} {t s : State} (h : p = (a, t)) (k : still p.2 = still s) : still t = still s := by
  rw [h] at k; exact k
theorem still_of_snd2 {α β : Type} {p : α × β × State} {a : α} {b : β} {t s : State} (h : p = (a, b, t)) (k : still p.2.2 = still s) :
    still t = still s := by rw [h] at k; exact k
theorem still_of_snd3 {α β γ : Type} {p : α × β × γ × State} {a : α} {b : β} {c : γ} {t s : State} (h : p = (a, b, c, t))
    (k : still p.2.2.2 = still s) : still t = still s := by rw [h] at k; exact k
theorem still_of_fst {α : Type} {p : State × α} {a : α} {t s : State} (h : p = (t, a)) (k : still p.1 = still s) : still t = still s := by
  rw [h] at k; exact k

theorem still_of_some {o : Option State} {t s : State} (h : o = some t) (k : ∀ u, o = some u → still u = still s) : still t = still s := k t h
theorem still_of_some2 {α : Type} {o : Option (α × State)} {a : α} {t s : State} (h : o = some (a, t))
    (k : ∀ u, o = some u → still u.2 = still s) : still t = still s := k (a, t) h
theorem still_foldl_of {α σ : Type} (π : σ → State) (f : σ → α → σ) (h : ∀ r x, still (π (f r x)) = still (π r)) (l : List α) (r : σ) :
    still (π (l.foldl f r)) = still (π r) := by
  induction l generalizing r with
  | nil => rfl
  | cons x l ih => rw [List.foldl_cons, ih, h]

theorem still_ite2 {α β : Type} {c : Prop} [Decidable c] {x y : α × β × State} {s : State} (hx : still x.2.2 = still s)
    (hy : still y.2.2 = still s) : still (if c then x else y).2.2 = still s := by split <;> assumption

theorem still_getD {o : Option State} {x : State} (h : ∀ t, o = some t → still t = still x) : still (o.getD x) = still x := by
  cases o with
  | none => rfl
  | some t => exact h t rfl

end Sys2Proof.Machine
end

