-- ==== Sys2Proof/Laws/StillWork.lean ====
section
/-! SUPPORT. The shared operations, the cores, the engines, the collectives and the Trowel leave module time, the waiting commands and the life-cycle word as they are. -/

namespace Sys2Proof.Machine
open Sys2Proof

/-! ## Ops -/

@[simp] theorem setCore_still (s : State) (c : Nat) (v : Core) : still (setCore s c v) = still s := by
  unfold setCore; simp
@[simp] theorem modCore_still (s : State) (c : Nat) (f : Core → Core) : still (modCore s c f) = still s := by
  unfold modCore; simp
@[simp] theorem setCluster_still (s : State) (n : Nat) (v : Cluster) : still (setCluster s n v) = still s := by
  unfold setCluster; simp
@[simp] theorem modCluster_still (s : State) (n : Nat) (f : Cluster → Cluster) : still (modCluster s n f) = still s := by
  unfold modCluster; simp
@[simp] theorem setQueue_still (s : State) (q : Nat) (v : Queue) : still (setQueue s q v) = still s := by
  unfold setQueue; simp
@[simp] theorem modQueue_still (s : State) (q : Nat) (f : Queue → Queue) : still (modQueue s q f) = still s := by
  unfold modQueue; simp
@[simp] theorem setCtx_still (s : State) (c : Nat) (v : Context) : still (setCtx s c v) = still s := by
  unfold setCtx; simp
@[simp] theorem modCtx_still (s : State) (c : Nat) (f : Context → Context) : still (modCtx s c f) = still s := by
  unfold modCtx; simp
@[simp] theorem setPart_still (s : State) (p : Nat) (v : Partition) : still (setPart s p v) = still s := by
  unfold setPart; simp
@[simp] theorem modPart_still (s : State) (p : Nat) (f : Partition → Partition) : still (modPart s p f) = still s := by
  unfold modPart; simp
@[simp] theorem setPlan_still (s : State) (q : Nat) (v : Plan) : still (setPlan s q v) = still s := by
  unfold setPlan; simp
@[simp] theorem dropPlan_still (s : State) (q : Nat) : still (dropPlan s q) = still s := by
  unfold dropPlan; simp
@[simp] theorem setKey_still (s : State) (k : Nat) (v : KeyCtx) : still (setKey s k v) = still s := by
  unfold setKey; simp
@[simp] theorem modKey_still (s : State) (k : Nat) (f : KeyCtx → KeyCtx) : still (modKey s k f) = still s := by
  unfold modKey; simp
@[simp] theorem setSlot_still (s : State) (k : Nat) (v : Slot) : still (setSlot s k v) = still s := by
  unfold setSlot; simp
@[simp] theorem modSlot_still (s : State) (k : Nat) (f : Slot → Slot) : still (modSlot s k f) = still s := by
  unfold modSlot; simp
@[simp] theorem setSes_still (s : State) (i : Nat) (v : Session) : still (setSes s i v) = still s := by
  unfold setSes; simp
@[simp] theorem setPort_still (s : State) (p : Nat) (v : Port) : still (setPort s p v) = still s := by
  unfold setPort; simp
@[simp] theorem modPort_still (s : State) (p : Nat) (f : Port → Port) : still (modPort s p f) = still s := by
  unfold modPort; simp
@[simp] theorem setD2d_still (s : State) (l : Nat) (v : D2d) : still (setD2d s l v) = still s := by
  unfold setD2d; simp
@[simp] theorem setCtl_still (s : State) (k : Nat) (v : MemCtl) : still (setCtl s k v) = still s := by
  unfold setCtl; simp
@[simp] theorem modCtl_still (s : State) (k : Nat) (f : MemCtl → MemCtl) : still (modCtl s k f) = still s := by
  unfold modCtl; simp
@[simp] theorem setDom_still (s : State) (d : Nat) (v : Domain) : still (setDom s d v) = still s := by
  unfold setDom; simp
@[simp] theorem setClock_still (s : State) (c : Nat) (v : Clock) : still (setClock s c v) = still s := by
  unfold setClock; simp
@[simp] theorem setRing_still (s : State) (r : Nat) (v : Ring) : still (setRing s r v) = still s := by
  unfold setRing; simp
@[simp] theorem setPage_still (s : State) (p : Nat) (v : Page) : still (setPage s p v) = still s := by
  unfold setPage; simp
@[simp] theorem setMark_still (s : State) (w : Nat) (v : Watermark) : still (setMark s w v) = still s := by
  unfold setMark; simp
@[simp] theorem setMon_still (s : State) (m : Nat) (v : Monitor) : still (setMon s m v) = still s := by
  unfold setMon; simp
@[simp] theorem forAll_still (l : List Nat) (s : State) (f : Nat → State → State) (hf : ∀ v0 v1, still (f v0 v1) = still v1) : still (forAll l s f) = still s := by
  unfold forAll; simp_all
@[simp] theorem drawFree_still (s : State) : still (drawFree s).2 = still s := by
  unfold drawFree; simp
@[simp] theorem answerSp_still (s : State) (st : Status) (data : List Nat) (bytes : Bytes) : still (answerSp s st data bytes) = still s := by
  unfold answerSp; simp
@[simp] theorem countLinkExc_still (s : State) : still (countLinkExc s) = still s := by
  unfold countLinkExc; simp

/-! ## Flags -/

@[simp] theorem flipPending_still (s : State) (v : Nat) : still (flipPending s v) = still s := by
  unfold flipPending; simp
@[simp] theorem sendMsix_still (s : State) (v : Nat) : still (sendMsix s v) = still s := by
  unfold sendMsix; simp
@[simp] theorem hostWrite_still (s : State) (a : Nat) (b : Bytes) : still (hostWrite s a b) = still s := by
  unfold hostWrite; simp
@[simp] theorem pulseEvent_still (s : State) (pg : Nat) (b : Nat) (infos : List (Nat × Nat)) : still (pulseEvent s pg b infos) = still s := by
  unfold pulseEvent; simp
@[simp] theorem levelEvent_still (s : State) (pg : Nat) (b : Nat) (high : Bool) (infos : List (Nat × Nat)) : still (levelEvent s pg b high infos) = still s := by
  unfold levelEvent; simp
@[simp] theorem logAdd_still (s : State) (source : Nat) (code : Nat) (part : Nat) (ctx : Nat) (info0 : Nat) (info1 : Nat) : still (logAdd s source code part ctx info0 info1) = still s := by
  unfold logAdd; simp
@[simp] theorem ringWriteAs_still (ok : Bool) (s : State) (r : Nat) (code : Nat) (kind : Nat) (crit : Bool) (info0 : Nat) (info1 : Nat) : still (ringWriteAs ok s r code kind crit info0 info1) = still s := by
  unfold ringWriteAs; (try simp only []); (repeat' split) <;> (try simp)
@[simp] theorem ringWrite_still (s : State) (r : Nat) (code : Nat) (kind : Nat) (crit : Bool) (info0 : Nat) (info1 : Nat) : still (ringWrite s r code kind crit info0 info1) = still s := by
  unfold ringWrite; simp
@[simp] theorem ringPost_still (s : State) (r : Nat) (code : Nat) (kind : Nat) (crit : Bool) (info0 : Nat) (info1 : Nat) : still (ringPost s r code kind crit info0 info1) = still s := by
  unfold ringPost; simp
@[simp] theorem markMove_still (s : State) (w : Nat) (lvl : Nat) : still (markMove s w lvl).1 = still s := by
  unfold markMove; simp
@[simp] theorem followRing_still (s : State) (r : Nat) : still (followRing s r) = still s := by
  unfold followRing; simp
@[simp] theorem postRecord_still (s : State) (r : Nat) (code : Nat) (kind : Nat) (crit : Bool) (info0 : Nat) (info1 : Nat) : still (postRecord s r code kind crit info0 info1) = still s := by
  unfold postRecord; simp
@[simp] theorem setLevel_still (s : State) (w : Nat) (lvl : Nat) : still (setLevel s w lvl) = still s := by
  unfold setLevel; simp
@[simp] theorem logIt_still (s : State) (source : Nat) (code : Nat) (part : Nat) (ctx : Nat) (info0 : Nat) (info1 : Nat) : still (logIt s source code part ctx info0 info1) = still s := by
  unfold logIt; simp
@[simp] theorem postEvent_still (s : State) (rings : List Nat) (code : Nat) (crit : Bool) (part : Nat) (info0 : Nat) (info1 : Nat) : still (postEvent s rings code crit part info0 info1) = still s := by
  unfold postEvent; simp
@[simp] theorem countMonitor_still (s : State) (m : Nat) : still (countMonitor s m) = still s := by
  unfold countMonitor; simp

/-! ## Crypto -/

@[simp] theorem draw_still (s : State) : still (draw s).2 = still s := by
  unfold draw; simp
@[simp] theorem loadSlot_still (s : State) (slot : Nat) (cls : Nat) (key : BitVec 256) (part : Nat) (ses : Nat) (owner : Nat) (expiry : Nat) (limit : Nat) : still (loadSlot s slot cls key part ses owner expiry limit) = still s := by
  unfold loadSlot; simp
@[simp] theorem emptySlot_still (s : State) (slot : Nat) : still (emptySlot s slot) = still s := by
  unfold emptySlot; simp
@[simp] theorem useSlot_still (s : State) (slot : Nat) (cls : Nat) (ses : Nat) : still (useSlot s slot cls ses).2 = still s := by
  unfold useSlot; simp
@[simp] theorem endUse_still (s : State) (slot : Nat) : still (endUse s slot) = still s := by
  unfold endUse; simp
@[simp] theorem unpin_still (s : State) (slot : Nat) : still (unpin s slot) = still s := by
  unfold unpin; simp
@[simp] theorem pin_still (s : State) (slot : Nat) : still (pin s slot) = still s := by
  unfold pin; simp
@[simp] theorem activateKey_still (s : State) (key : Nat) (cls : Nat) (part : Nat) (ses : Nat) (role : Nat) (slot : Nat) : still (activateKey s key cls part ses role slot) = still s := by
  unfold activateKey; simp
@[simp] theorem zeroizeKey_still (s : State) (key : Nat) : still (zeroizeKey s key) = still s := by
  unfold zeroizeKey; simp
@[simp] theorem startSanding_still (s : State) (key : Nat) : still (startSanding s key) = still s := by
  unfold startSanding; simp only []; (repeat' split) <;> simp

/-! ## Memory -/

@[simp] theorem addWrites_still (s : State) (key : Nat) (cur : Nat) (old : Nat) : still (addWrites s key cur old) = still s := by
  unfold addWrites; simp
@[simp] theorem setDirty_still (s : State) (g : Nat) : still (setDirty s g) = still s := by
  unfold setDirty; simp
@[simp] theorem primeGranule_still (s : State) (g : Nat) : still (primeGranule s g) = still s := by
  unfold primeGranule; simp
theorem reserveFill_still (s : State) (key : Nat) (a : Nat) : ∀ t, (reserveFill s key a) = some t → still t = still s := by
  unfold reserveFill; simp
@[simp] theorem fillGranule_still (s : State) (key : Nat) (g : Nat) : still (fillGranule s key g) = still s := by
  unfold fillGranule; simp
@[simp] theorem modCtlAt_still (s : State) (a : Nat) (f : MemCtl → MemCtl) : still (modCtlAt s a f) = still s := by
  unfold modCtlAt; simp
@[simp] theorem countMemExc_still (s : State) (n : Nat) : still (countMemExc s n) = still s := by
  unfold countMemExc; simp
@[simp] theorem countFill_still (s : State) (a : Nat) : still (countFill s a) = still s := by
  unfold countFill; simp
@[simp] theorem poisonEvent_still (s : State) (a : Nat) (cause : Nat) (key : Nat) (ctx : Nat) : still (poisonEvent s a cause key ctx) = still s := by
  unfold poisonEvent; simp
@[simp] theorem poisonLine_still (s : State) (a : Nat) : still (poisonLine s a) = still s := by
  unfold poisonLine; simp
@[simp] theorem failLine_still (s : State) (a : Nat) (key : Nat) (ctx : Nat) (cause : Nat) (row3 : Bool) : still (failLine s a key ctx cause row3) = still s := by
  unfold failLine; simp
@[simp] theorem correctLine_still (s : State) (a : Nat) : still (correctLine s a) = still s := by
  unfold correctLine; simp
@[simp] theorem passLine_still (s : State) (a : Nat) (key : Nat) (raw : RawRead) : still (passLine s a key raw).2.2 = still s := by
  unfold passLine; (try simp only []); (repeat' split) <;> (try simp)
@[simp] theorem readLine_still (s : State) (ctx : Nat) (key : Nat) (a : Nat) (force : Option Nat) (raw1 : RawRead) (raw2 : RawRead) : still (readLine s ctx key a force raw1 raw2).2.2 = still s := by
  unfold readLine; simp only []; (repeat' split) <;> simp
@[simp] theorem storeLine_still (s : State) (ctx : Nat) (key : Nat) (a : Nat) (mask : Nat) (data : Nat) (paid : Bool) (r1 : RawRead) (r2 : RawRead) : still (storeLine s ctx key a mask data paid r1 r2).2 = still s := by
  unfold storeLine; simp only []; (repeat' split) <;> (try simp) <;> (repeat (first | (refine still_of_snd (by assumption) ?_) | (refine still_of_snd2 (by assumption) ?_)) <;> (try simp))
@[simp] theorem setAnswer_still (s : State) (st : Status) (b : Bytes) : still (setAnswer s st b) = still s := by
  unfold setAnswer; simp
@[simp] theorem landRead_still (s : State) (r : MemReq) (r1 : RawRead) (r2 : RawRead) : still (landRead s r r1 r2) = still s := by
  unfold landRead; simp
@[simp] theorem landWrite_still (s : State) (r : MemReq) (data : Bytes) (paid : Bool) (r1 : RawRead) (r2 : RawRead) : still (landWrite s r data paid r1 r2) = still s := by
  unfold landWrite; simp
@[simp] theorem landHeld_still (paid : Bool) (s : State) (q : HeldMem) : still (landHeld paid s q) = still s := by
  unfold landHeld; simp
@[simp] theorem finishFill_still (s : State) (g : Nat) : still (finishFill s g) = still s := by
  unfold finishFill; (repeat' split) <;> simp
@[simp] theorem writeLine_still (s : State) (ctx : Nat) (key : Nat) (a : Nat) (mask : Nat) (data : Nat) (measured : Bool) (r1 : RawRead) (r2 : RawRead) : still (writeLine s ctx key a mask data measured r1 r2).2 = still s := by
  unfold writeLine; simp only []; (repeat' split) <;> (try simp) <;> (repeat (first | (refine still_of_snd (by assumption) ?_) | (refine still_of_snd2 (by assumption) ?_) | (refine still_of_snd3 (by assumption) ?_) | (refine still_of_fst (by assumption) ?_) | (refine (still_of_some (by assumption) (by first | apply reserveFill_still)).trans ?_)) <;> (try simp))
@[simp] theorem writeOwnLine_still (s : State) (a : Nat) (plain : Bytes) : still (writeOwnLine s a plain) = still s := by
  unfold writeOwnLine; simp
@[simp] theorem writePte_still (s : State) (ea : Nat) (e : Nat) : still (writePte s ea e) = still s := by
  unfold writePte; simp
@[simp] theorem zeroTable_still (s : State) (table : Nat) : still (zeroTable s table) = still s := by
  unfold zeroTable; simp
@[simp] theorem enterCache_still (s : State) (n : Nat) (ctx : Nat) (ea : Nat) : still (enterCache s n ctx ea) = still s := by
  unfold enterCache; simp
@[simp] theorem dropCached_still (s : State) (p : Nat × Nat → Bool) : still (dropCached s p) = still s := by
  unfold dropCached; simp
@[simp] theorem countMisses_still (s : State) (agent : Nat) (ctx : Nat) (ea : Nat) : still (countMisses s agent ctx ea) = still s := by
  unfold countMisses; simp
@[simp] theorem readEntry_still (s : State) (agent : Nat) (ctx : Nat) (ea : Nat) (lvl : Nat) : still (readEntry s agent ctx ea lvl) = still s := by
  unfold readEntry; simp only []; (repeat' split) <;> simp
@[simp] theorem walkLines_still (agent : Nat) (ctx : Nat) (va : Nat) (a3 : Nat) (a4 : Nat) (a5 : State) : still (walkLines agent ctx va a3 a4 a5) = still a5 := by
  induction a3 generalizing a4 a5 with
  | zero => simp [walkLines]
  | succ n ih =>
    unfold walkLines; dsimp only; split
    · split
      · rw [ih]; simp
      · simp
    · simp
@[simp] theorem cacheWalk_still (s : State) (agent : Nat) (ctx : Nat) (va : Nat) : still (cacheWalk s agent ctx va) = still s := by
  unfold cacheWalk; (repeat' split) <;> simp
@[simp] theorem walkRange_still (s : State) (ctx : Nat) (va : Nat) (n : Nat) : still (walkRange s ctx va n) = still s := by
  unfold walkRange; simp
@[simp] theorem dieReadLine_still (s : State) (agent : Nat) (ctx : Nat) (key : Nat) (va : Nat) (acc : Acc) : still (dieReadLine s agent ctx key va acc).2.2 = still s := by
  unfold dieReadLine; simp only []; (repeat' split) <;> simp
@[simp] theorem dieWriteLine_still (s : State) (agent : Nat) (ctx : Nat) (key : Nat) (va : Nat) (mask : Nat) (data : Nat) (measured : Bool) : still (dieWriteLine s agent ctx key va mask data measured).2 = still s := by
  unfold dieWriteLine; simp only []; (repeat' split) <;> simp
@[simp] theorem vreadLine_still (s : State) (ctx : Nat) (key : Nat) (va : Nat) (acc : Acc) : still (vreadLine s ctx key va acc).2.2 = still s := by
  unfold vreadLine; simp
@[simp] theorem vwriteLine_still (s : State) (ctx : Nat) (key : Nat) (va : Nat) (mask : Nat) (data : Nat) (measured : Bool) : still (vwriteLine s ctx key va mask data measured).2 = still s := by
  unfold vwriteLine; simp
@[simp] theorem vreadLines_still (s : State) (ctx : Nat) (key : Nat) (acc : Acc) (a4 : List Nat) : still (vreadLines s ctx key acc a4).2.2 = still s := by
  induction a4 generalizing s with
  | nil => rfl
  | cons x l ih => simp [vreadLines, ih]
@[simp] theorem vread_still (s : State) (ctx : Nat) (key : Nat) (va : Nat) (n : Nat) : still (vread s ctx key va n).2.2 = still s := by
  unfold vread; simp
@[simp] theorem vfetch_still (s : State) (ctx : Nat) (key : Nat) (va : Nat) (n : Nat) : still (vfetch s ctx key va n).2.2 = still s := by
  unfold vfetch; simp
@[simp] theorem vwriteLines_still (s : State) (ctx : Nat) (key : Nat) (va : Nat) (data : Bytes) (measured : Bool) (a6 : List Nat) : still (vwriteLines s ctx key va data measured a6).2 = still s := by
  induction a6 generalizing s with
  | nil => rfl
  | cons x l ih => simp [vwriteLines, ih]
@[simp] theorem vwrite_still (s : State) (ctx : Nat) (key : Nat) (va : Nat) (data : Bytes) (measured : Bool) : still (vwrite s ctx key va data measured).2 = still s := by
  unfold vwrite; simp
@[simp] theorem reportFault_still (s : State) (ctx : Nat) (st : Status) (queue : Nat) (cmd : Nat) (task : Nat) (addr : Option Nat) : still (reportFault s ctx st queue cmd task addr) = still s := by
  unfold reportFault; cases addr <;> simp
@[simp] theorem recordSealed_still (s : State) (ctx : Nat) (queue : Nat) (task : Nat) (addr : Option Nat) : still (recordSealed s ctx queue task addr) = still s := by
  unfold recordSealed; (repeat' split) <;> simp

/-! ## Cores -/

@[simp] theorem setTask_still (s : State) (r : TaskRef) (t : Task) : still (setTask s r t) = still s := by
  unfold setTask; (repeat' split) <;> simp
@[simp] theorem modTask_still (s : State) (r : TaskRef) (f : Task → Task) : still (modTask s r f) = still s := by
  unfold modTask; (repeat' split) <;> simp
@[simp] theorem stopCrew_still (s : State) (r : TaskRef) (st : Status) (f : Nat → Nat → Core → Core) : still (stopCrew s r st f) = still s := by
  unfold stopCrew; (try simp only []); (repeat' split) <;> (try simp)
@[simp] theorem beginStop_still (s : State) (r : TaskRef) (st : Status) : still (beginStop s r st) = still s := by
  unfold beginStop; simp
@[simp] theorem endByCore_still (s : State) (core : Nat) (st : Status) : still (endByCore s core st) = still s := by
  unfold endByCore; simp only []; (repeat' split) <;> simp
@[simp] theorem completeToken_still (s : State) (core : Nat) (tok : Nat) (st : Status) : still (completeToken s core tok st) = still s := by
  unfold completeToken; simp
@[simp] theorem reportHeld_still (s : State) (core : Nat) : still (reportHeld s core) = still s := by
  unfold reportHeld; (repeat' split) <;> (try simp)
@[simp] theorem releaseWait_still (s : State) (core : Nat) (next : Nat) : still (releaseWait s core next) = still s := by
  unfold releaseWait; simp only []; (repeat' split) <;> simp
@[simp] theorem writeLocal_still (s : State) (p : Place) (ws : List BitWrite) : still (writeLocal s p ws) = still s := by
  unfold writeLocal; (repeat' split) <;> simp
@[simp] theorem readLineTab_still (s : State) (agent : Nat) (ctx : Nat) (key : Nat) (addrs : List Nat) : still (readLineTab s agent ctx key addrs).2 = still s := by
  unfold readLineTab; refine still_foldl_of Prod.snd _ (fun r x => ?_) _ _; dsimp only; split <;> simp
@[simp] theorem writeLineTab_still (s : State) (agent : Nat) (ctx : Nat) (key : Nat) (g : Tab (Nat × Nat)) : still (writeLineTab s agent ctx key g).2 = still s := by
  unfold writeLineTab; refine still_foldl_of Prod.snd _ (fun r x => ?_) _ _; simp

/-! ## Lath -/

theorem takeCtr_still (s : State) (key : Nat) (dir : Nat) : ∀ t, (takeCtr s key dir) = some t → still t.2 = still s := by
  unfold takeCtr; simp
@[simp] theorem pumpPort_still (s : State) (port : Nat) : still (pumpPort s port) = still s := by
  unfold pumpPort; simp
@[simp] theorem bufferLevel_still (s : State) (vc : Nat) : still (bufferLevel s vc) = still s := by
  unfold bufferLevel; simp
@[simp] theorem bufferIn_still (s : State) (port : Nat) (p : Packet) : still (bufferIn s port p) = still s := by
  unfold bufferIn; (repeat' split) <;> (try simp)
@[simp] theorem bufferOut_still (s : State) (port : Nat) (p : Packet) : still (bufferOut s port p) = still s := by
  unfold bufferOut; (repeat' split) <;> (try simp)
@[simp] theorem sendOn_still (s : State) (port : Nat) (p : Packet) : still (sendOn s port p) = still s := by
  unfold sendOn; simp
@[simp] theorem emit_still (s : State) (p : Packet) : still (emit s p).2 = still s := by
  unfold emit; simp only []; (repeat' split) <;> (try simp) <;> (repeat (first | (refine still_of_snd (by assumption) ?_) | (refine still_of_snd2 (by assumption) ?_) | (refine still_of_snd3 (by assumption) ?_) | (refine still_of_fst (by assumption) ?_) | (refine (still_of_some (by assumption) (by first | apply reserveFill_still | apply takeCtr_still)).trans ?_) | (refine (still_of_some2 (by assumption) (by first | apply reserveFill_still | apply takeCtr_still)).trans ?_)) <;> (try simp))
@[simp] theorem noteXid_still (s : State) (node : Nat) (xid : Nat) : still (noteXid s node xid) = still s := by
  unfold noteXid; simp
@[simp] theorem sendRequest_still (s : State) (p : Packet) (who : Sender) (dest : List Nat) : still (sendRequest s p who dest).2.2 = still s := by
  unfold sendRequest; simp only []; (repeat' split) <;> (try simp) <;> (repeat (refine still_of_snd (by assumption) ?_; try simp))
@[simp] theorem dropPending_still (s : State) (xid : Nat) : still (dropPending s xid) = still s := by
  unfold dropPending; simp
@[simp] theorem resend_still (s : State) (xid : Nat) (tries : Nat) : still (resend s xid tries) = still s := by
  unfold resend; (repeat' split) <;> simp
@[simp] theorem lendTo_still (s : State) (node : Nat) : still (lendTo s node).2 = still s := by
  unfold lendTo drawFree; simp only []; split <;> simp
@[simp] theorem respond_still (s : State) (p : Packet) (st : Status) (data : Bytes) : still (respond s p st data).2 = still s := by
  unfold respond; (repeat' split) <;> simp
@[simp] theorem sendVc4_still (s : State) (op : Nat) (dir : Nat) (node : Nat) (data : Bytes) : still (sendVc4 s op dir node data) = still s := by
  unfold sendVc4; simp only []; (repeat' split) <;> simp

/-! ## Bundle -/

@[simp] theorem sendSignal_still (s : State) (i : Issue) (now : Nat) (counter : Nat) (target : Nat) : still (sendSignal s i now counter target) = still s := by
  unfold sendSignal; simp
@[simp] theorem ctlEffect_still (s : State) (i : Issue) (now : Nat) (v : Nat) : still (ctlEffect s i now v) = still s := by
  unfold ctlEffect; (repeat' split) <;> simp
@[simp] theorem dqEffect_still (s : State) (i : Issue) (v : Nat) : still (dqEffect s i v) = still s := by
  unfold dqEffect; simp only []; (repeat' split) <;> simp
@[simp] theorem putEffect_still (s : State) (i : Issue) (v : Nat) (now : Nat) : still (putEffect s i v now) = still s := by
  unfold putEffect; simp
@[simp] theorem bundleEffect_still (s : State) (i : Issue) (w : Slots) (now : Nat) : still (bundleEffect s i w now) = still s := by
  unfold bundleEffect; simp only []; (repeat' split) <;> simp
theorem execBundleIssue_still (core : Nat) (s : State) : Kept s (execBundleIssue core s) := by
  unfold execBundleIssue; simp only []; (repeat' split) <;> simp

/-! ## CoreEvents -/

theorem execWaitTokRelease_still (core : Nat) (s : State) : Kept s (execWaitTokRelease core s) := by
  unfold execWaitTokRelease; (repeat' split) <;> simp
theorem execWaitSigRelease_still (core : Nat) (s : State) : Kept s (execWaitSigRelease core s) := by
  unfold execWaitSigRelease; (repeat' split) <;> simp
theorem execWaitArrRelease_still (core : Nat) (s : State) : Kept s (execWaitArrRelease core s) := by
  unfold execWaitArrRelease; (repeat' split) <;> simp
theorem execCrewSyncRelease_still (queue : Nat) (task : Nat) (barrier : Nat) (cluster : Nat) (s : State) : Kept s (execCrewSyncRelease queue task barrier cluster s) := by
  unfold execCrewSyncRelease; (repeat' split) <;> simp
theorem execSignalIncrement_still (sender : Nat) (target : Nat) (counter : Nat) (s : State) : Kept s (execSignalIncrement sender target counter s) := by
  unfold execSignalIncrement; (repeat' split) <;> simp
theorem execMeshPutLand_still (target : Nat) (s : State) : Kept s (execMeshPutLand target s) := by
  unfold execMeshPutLand; (repeat' split) <;> simp

/-! ## Engine -/

theorem execGangStart_still (core : Nat) (s : State) : Kept s (execGangStart core s) := by
  unfold execGangStart; simp only []; (repeat' split) <;> simp
theorem execGangComplete_still (core : Nat) (s : State) : Kept s (execGangComplete core s) := by
  unfold execGangComplete; simp only []; (repeat' split) <;> simp
theorem execStageStart_still (core : Nat) (s : State) : Kept s (execStageStart core s) := by
  unfold execStageStart; simp only []; (repeat' split) <;> simp
theorem execStageComplete_still (core : Nat) (s : State) : Kept s (execStageComplete core s) := by
  unfold execStageComplete; simp only []; (repeat' split) <;> simp
theorem execTilePassSwap_still (core : Nat) (s : State) : Kept s (execTilePassSwap core s) := by
  unfold execTilePassSwap; simp only []; (repeat' split) <;> simp
theorem execTileComplete_still (core : Nat) (s : State) : Kept s (execTileComplete core s) := by
  unfold execTileComplete; simp only []; (repeat' split) <;> simp
theorem execCFillStart_still (core : Nat) (s : State) : Kept s (execCFillStart core s) := by
  unfold execCFillStart; simp only []; (repeat' split) <;> simp
theorem execCFillComplete_still (core : Nat) (s : State) : Kept s (execCFillComplete core s) := by
  unfold execCFillComplete; simp only []; (repeat' split) <;> simp
theorem execDrainStart_still (core : Nat) (s : State) : Kept s (execDrainStart core s) := by
  unfold execDrainStart; simp only []; (repeat' split) <;> simp
theorem execDrainComplete_still (core : Nat) (s : State) : Kept s (execDrainComplete core s) := by
  unfold execDrainComplete; simp only []; (repeat' split) <;> simp

/-! ## Sched -/

@[simp] theorem modPlan_still (s : State) (q : Nat) (f : Plan → Plan) : still (modPlan s q f) = still s := by
  unfold modPlan; (repeat' split) <;> simp
@[simp] theorem writeStatus_still (s : State) (q : Nat) (t : Nat) (st : Status) (bypassed : Bool) : still (writeStatus s q t st bypassed).2 = still s := by
  unfold writeStatus; (repeat' split) <;> simp
@[simp] theorem releaseReserved_still (s : State) (r : TaskRef) : still (releaseReserved s r) = still s := by
  unfold releaseReserved; simp
@[simp] theorem squash_still (s : State) (r : TaskRef) (dest : TState) : still (squash s r dest) = still s := by
  unfold squash; simp
@[simp] theorem haltPlan_still (s : State) (q : Nat) (st : Status) (culprit : Option Nat) : still (haltPlan s q st culprit) = still s := by
  unfold haltPlan; (repeat' split) <;> simp
@[simp] theorem resolvePlan_still (s : State) (q : Nat) (a2 : Nat) : still (resolvePlan s q a2) = still s := by
  induction a2 generalizing s with
  | zero => rfl
  | succ n ih =>
    unfold resolvePlan; dsimp only; split
    · rfl
    · split
      · simp
      · rw [ih, still_foldl _ (by simp)]; simp
@[simp] theorem settlePlan_still (s : State) (q : Nat) : still (settlePlan s q) = still s := by
  unfold settlePlan; simp only []; (repeat' split) <;> simp
@[simp] theorem finishCommand_still (s : State) (q : Nat) (st : Status) (info0 : Nat) (info1 : Nat) (result : Nat) : still (finishCommand s q st info0 info1 result) = still s := by
  unfold finishCommand; simp
@[simp] theorem tryPlanComplete_still (s : State) (q : Nat) : still (tryPlanComplete s q) = still s := by
  unfold tryPlanComplete; (repeat' split) <;> simp
@[simp] theorem fetchImage_still (s : State) (p : Plan) (t : Task) : still (fetchImage s p t).2.2.2.2 = still s := by
  unfold fetchImage; simp only []; (repeat' split) <;> simp
@[simp] theorem enterCluster_still (s : State) (r : TaskRef) (t : Task) (cluster : Nat) (image : List (BitVec 128)) (entry : Nat) : still (enterCluster s r t cluster image entry) = still s := by
  unfold enterCluster; simp

/-! ## Level -/

@[simp] theorem noteWrite_still (s : State) (r : TaskRef) (line : Nat) (mask : Nat) (data : Nat) : still (noteWrite s r line mask data) = still s := by
  unfold noteWrite; simp
@[simp] theorem noteBytes_still (s : State) (r : TaskRef) (va : Nat) (b : Bytes) : still (noteBytes s r va b) = still s := by
  unfold noteBytes; simp
@[simp] theorem noteDetail_still (s : State) (r : TaskRef) (core : Nat) (seq : Nat) (d : BitVec 64) : still (noteDetail s r core seq d) = still s := by
  unfold noteDetail; simp
@[simp] theorem noteDetails_still (s : State) (r : TaskRef) (core : Nat) (seq : Nat) (va : Nat) (b : Bytes) : still (noteDetails s r core seq va b) = still s := by
  unfold noteDetails; (try simp only []); (try simp)
@[simp] theorem modLevel_still (s : State) (part : Nat) (f : Level → Level) : still (modLevel s part f) = still s := by
  unfold modLevel; simp
@[simp] theorem levelReport_still (s : State) (part : Nat) (e : LevelEntry) : still (levelReport s part e) = still s := by
  unfold levelReport; simp only []; (repeat' split) <;> simp
@[simp] theorem levelCompare_still (s : State) (part : Nat) (a : LevelRecord) (b : LevelRecord) : still (levelCompare s part a b) = still s := by
  unfold levelCompare; simp only []; (repeat' split) <;> simp
@[simp] theorem levelMatch_still (s : State) (part : Nat) (a2 : Nat) : still (levelMatch s part a2) = still s := by
  induction a2 generalizing s with
  | zero => rfl
  | succ n ih => unfold levelMatch; (repeat' split) <;> simp [ih]
@[simp] theorem levelSettle_still (s : State) (part : Nat) : still (levelSettle s part) = still s := by
  unfold levelSettle; simp
@[simp] theorem pumpLevel_still (s : State) (part : Nat) (a2 : Nat) : still (pumpLevel s part a2) = still s := by
  induction a2 generalizing s with
  | zero => rfl
  | succ n ih =>
    unfold pumpLevel; (repeat' split) <;> (try rw [ih]) <;> simp
@[simp] theorem pumpLevels_still (s : State) : still (pumpLevels s) = still s := by
  unfold pumpLevels; rw [still_foldl]; intro s x; split <;> simp
@[simp] theorem levelSend_still (s : State) (p : Plan) (task : Nat) (st : Status) (flags : Nat) : still (levelSend s p task st flags) = still s := by
  unfold levelSend; simp only []; (repeat' split) <;> simp
@[simp] theorem levelReceive_still (s : State) (p : Packet) : still (levelReceive s p).2 = still s := by
  unfold levelReceive; simp only []; (repeat' split) <;> simp
theorem execLevelPeerSilent_still (partition : Nat) (s : State) : Kept s (execLevelPeerSilent partition s) := by
  unfold execLevelPeerSilent; (repeat' split) <;> simp
@[simp] theorem levelLost_still (s : State) (part : Nat) : still (levelLost s part) = still s := by
  unfold levelLost; (repeat' split) <;> simp

/-! ## Dma -/

@[simp] theorem runTransfer_still (s : State) (t : Transfer) : still (runTransfer s t).2.2 = still s := by
  unfold runTransfer; simp only []; (repeat' split) <;> simp
@[simp] theorem noteSealed_still (s : State) (ctx : Nat) (r : TaskRef) (st : Status) (va : Option Nat) : still (noteSealed s ctx r st va) = still s := by
  unfold noteSealed; (repeat' split) <;> (try simp)
theorem takeChan_still (s : State) (cluster : Nat) (lo : Nat) (hi : Nat) (u : ChanUser) : ∀ t, (takeChan s cluster lo hi u) = some t → still t = still s := by
  unfold takeChan; simp
@[simp] theorem dropChans_still (s : State) (p : ChanUser → Bool) : still (dropChans s p) = still s := by
  unfold dropChans; simp
@[simp] theorem completeCopy_still (s : State) (core : Nat) (r : TaskRef) (ctx : Nat) (t : Task) (o : DmaOp) : still (completeCopy s core r ctx t o) = still s := by
  unfold completeCopy; simp
@[simp] theorem setLoad_still (s : State) (r : TaskRef) (k : Nat) (cluster : Nat) (st : Status) (va : Option Nat) : still (setLoad s r k cluster st va) = still s := by
  unfold setLoad; simp only []; (repeat' split) <;> simp
@[simp] theorem completeLoad_still (s : State) (core : Nat) (k : Nat) : still (completeLoad s core k) = still s := by
  unfold completeLoad; simp only []; (repeat' split) <;> simp
@[simp] theorem putOp_still (s : State) (core : Nat) (o : DmaOp) : still (putOp s core o) = still s := by
  unfold putOp; simp
@[simp] theorem sealedToken_still (s : State) (core : Nat) (tok : Nat) (st : Status) : still (sealedToken s core tok st) = still s := by
  unfold sealedToken; (repeat' split) <;> simp
@[simp] theorem settleLath_still (s : State) (core : Nat) (tok : Nat) : still (settleLath s core tok) = still s := by
  unfold settleLath; (repeat' split) <;> simp
@[simp] theorem endLath_still (s : State) (core : Nat) (tok : Nat) (st : Status) : still (endLath s core tok st) = still s := by
  unfold endLath; (repeat' split) <;> simp
@[simp] theorem pumpLath_still (s : State) (core : Nat) (tok : Nat) (a3 : Nat) : still (pumpLath s core tok a3) = still s := by
  induction a3 generalizing s with
  | zero => rfl
  | succ n ih =>
    unfold pumpLath; (repeat' (first | split | dsimp only)) <;> (try rw [ih]) <;> (try simp) <;> (repeat (first | (refine still_of_snd (by assumption) ?_) | (refine still_of_snd2 (by assumption) ?_)) <;> (try simp))
@[simp] theorem pumpAll_still (s : State) : still (pumpAll s) = still s := by
  unfold pumpAll; simp
@[simp] theorem lathSource_still (s : State) (core : Nat) (t : Task) (ctx : Nat) (o : DmaOp) : still (lathSource s core t ctx o).2.2.2 = still s := by
  unfold lathSource; (repeat' split) <;> simp
@[simp] theorem startLath_still (s : State) (core : Nat) (r : TaskRef) (ctx : Nat) (t : Task) (o : DmaOp) : still (startLath s core r ctx t o) = still s := by
  unfold startLath; simp
theorem execDmaOperationStart_still (core : Nat) (queue : Nat) (s : State) : Kept s (execDmaOperationStart core queue s) := by
  unfold execDmaOperationStart; (repeat' (first | split | dsimp only)) <;> (try simp) <;> (try (refine (still_of_some (by assumption) (takeChan_still _ _ _ _ _)).trans ?_)) <;> (try simp)
theorem execDmaOperationComplete_still (core : Nat) (token : Nat) (s : State) : Kept s (execDmaOperationComplete core token s) := by
  unfold execDmaOperationComplete; (repeat' split) <;> simp
theorem execLathPairWaitTimeout_still (core : Nat) (token : Nat) (s : State) : Kept s (execLathPairWaitTimeout core token s) := by
  unfold execLathPairWaitTimeout; (repeat' split) <;> simp

/-! ## Freq -/

@[simp] theorem retarget_still (s : State) (n : Nat) (t : Nat) : still (retarget s n t) = still s := by
  unfold retarget; simp
@[simp] theorem restoreBounds_still (s : State) : still (restoreBounds s) = still s := by
  unfold restoreBounds; simp
@[simp] theorem startClock_still (s : State) (n : Nat) : still (startClock s n) = still s := by
  unfold startClock; (try simp only []); (repeat' split) <;> (try simp)
@[simp] theorem startWake_still (s : State) (n : Nat) : still (startWake s n) = still s := by
  unfold startWake; simp only []; (repeat' split) <;> simp
@[simp] theorem dtSettle_still (s : State) : still (dtSettle s) = still s := by
  unfold dtSettle; (try simp only []); (repeat' split) <;> (try simp)

/-! ## Finish -/

@[simp] theorem markMeas_still (s : State) : still (markMeas s) = still s := by
  unfold markMeas; simp
theorem measAdd_still (s : State) (part : Nat) (type : Nat) (ctx : Nat) (key : Nat) (role : Nat) (ses : Nat) (len : Nat) (d : Digest) : ∀ t, (measAdd s part type ctx key role ses len d) = some t → still t = still s := by
  unfold measAdd; simp
theorem noteProgram_still (s : State) (part : Nat) (ctx : Nat) (ses : Nat) (len : Nat) (d : Digest) : ∀ t, (noteProgram s part ctx ses len d) = some t → still t = still s := by
  unfold noteProgram; (repeat' split) <;> (try simp) <;> (repeat (first | (refine still_of_snd (by assumption) ?_) | (refine still_of_snd2 (by assumption) ?_) | (refine still_of_snd3 (by assumption) ?_) | (refine still_of_fst (by assumption) ?_) | (refine (still_of_some (by assumption) (by first | apply reserveFill_still | apply takeCtr_still | apply measAdd_still)).trans ?_)) <;> (try simp))
@[simp] theorem refreshClusters_still (s : State) : still (refreshClusters s) = still s := by
  unfold refreshClusters; simp
@[simp] theorem finishOne_still (s : State) (r : TaskRef) (st : Status) (result : Nat) : still (finishOne s r st result) = still s := by
  unfold finishOne
  split
  · split
    · rfl
    · extract_lets pub res s1 s2
      have h2 : still s2 = still s := by simp [s2, s1]
      split
      rename_i ws s3 h3
      have h3' : still s3 = still s := by rw [← h2]; exact still_of_snd h3 (by simp)
      extract_lets s4 s5 s6 s7
      have h4 : still s4 = still s := by simp only [s4]; split <;> simp [h3']
      have h5 : still s5 = still s := by simp only [s5]; split <;> simp [h4]
      have h6 : still s6 = still s := by simp only [s6]; (repeat' split) <;> simp [h5]
      have h7 : still s7 = still s := by simp only [s7]; split <;> simp [h6]
      split <;> simp [h7]
  · rfl
@[simp] theorem endTask_still (s : State) (r : TaskRef) (st : Status) : still (endTask s r st) = still s := by
  unfold endTask; (repeat' split) <;> simp
@[simp] theorem settleRounds_still (s : State) (q : Nat) (a2 : Nat) : still (settleRounds s q a2) = still s := by
  induction a2 generalizing s with
  | zero => rfl
  | succ n ih => unfold settleRounds; simp only []; (repeat' split) <;> simp [ih]
@[simp] theorem settleAll_still (s : State) (q : Nat) : still (settleAll s q) = still s := by
  unfold settleAll; dsimp only; rw [refreshClusters_still]; split <;> simp
@[simp] theorem completeTask_still (s : State) (r : TaskRef) (st : Status) (result : Nat) : still (completeTask s r st result) = still s := by
  unfold completeTask; simp
@[simp] theorem noteFault_still (s : State) (r : TaskRef) (st : Status) (va : Option Nat) : still (noteFault s r st va) = still s := by
  unfold noteFault; simp
@[simp] theorem faultRange_still (s : State) (r : TaskRef) (st : Status) (ctx : Nat) (key : Nat) (va : Nat) (n : Nat) (acc : Acc) : still (faultRange s r st ctx key va n acc) = still s := by
  unfold faultRange; simp
@[simp] theorem dropTraffic_still (s : State) (cores : List Nat) : still (dropTraffic s cores) = still s := by
  unfold dropTraffic; simp
@[simp] theorem dropCoreRequests_still (s : State) (core : Nat) : still (dropCoreRequests s core) = still s := by
  unfold dropCoreRequests; simp
@[simp] theorem finishCopies_still (s : State) (r : TaskRef) (core : Nat) : still (finishCopies s r core) = still s := by
  unfold finishCopies; (repeat' split) <;> simp
@[simp] theorem stopComplete_still (s : State) (r : TaskRef) : still (stopComplete s r) = still s := by
  unfold stopComplete; simp only []
  (repeat' split) <;> simp
@[simp] theorem crewEnd_still (s : State) (r : TaskRef) : still (crewEnd s r) = still s := by
  unfold crewEnd; (repeat' split) <;> simp
@[simp] theorem enterOn_still (s : State) (r : TaskRef) (cluster : Nat) : still (enterOn s r cluster) = still s := by
  unfold enterOn; simp only []; (repeat' split) <;> (try simp) <;> (repeat (first | (refine still_of_snd (by assumption) ?_) | (refine still_of_snd2 (by assumption) ?_) | (refine still_of_snd3 (by assumption) ?_) | (refine still_of_fst (by assumption) ?_) | (refine (still_of_some (by assumption) (by first | apply reserveFill_still | apply takeCtr_still | apply measAdd_still | apply noteProgram_still)).trans ?_)) <;> (try simp))
@[simp] theorem tryEnter_still (s : State) (r : TaskRef) (cluster : Nat) : still (tryEnter s r cluster) = still s := by
  unfold tryEnter; (repeat' split) <;> simp
@[simp] theorem passReserved_still (s : State) (cluster : Nat) : still (passReserved s cluster) = still s := by
  unfold passReserved; (repeat' split) <;> simp

/-! ## Receive -/

@[simp] theorem replayCheck_still (s : State) (node : Nat) (key : Nat) (dir : Nat) (ctr : Nat) : still (replayCheck s node key dir ctr).2 = still s := by
  unfold replayCheck; (repeat' split) <;> simp
@[simp] theorem clearReplay_still (s : State) (key : Nat) : still (clearReplay s key) = still s := by
  unfold clearReplay; simp
@[simp] theorem rxFirst_still (s : State) (rx : Rx) : still (rxFirst s rx).2 = still s := by
  unfold rxFirst; simp only []; (repeat' split) <;> (try simp) <;> (repeat (refine still_of_snd (by assumption) ?_; try simp))
@[simp] theorem rxCheck_still (s : State) (rx : Rx) : still (rxCheck s rx).2 = still s := by
  unfold rxCheck; (repeat' split) <;> (try simp) <;> (repeat (refine still_of_snd (by assumption) ?_; try simp))
@[simp] theorem renewLoan_still (s : State) (node : Nat) : still (renewLoan s node) = still s := by
  unfold renewLoan; (repeat' split) <;> simp
@[simp] theorem passTurn_still (s : State) (p : Packet) : still (passTurn s p) = still s := by
  unfold passTurn; simp

/-! ## Grout -/

@[simp] theorem putGrout_still (s : State) (g : Grout) : still (putGrout s g) = still s := by
  unfold putGrout; simp
@[simp] theorem dropGrout_still (s : State) (g : Grout) (lapsed : Option Nat) (failed : Bool) : still (dropGrout s g lapsed failed) = still s := by
  unfold dropGrout; simp
@[simp] theorem sendColl_still (s : State) (p : Packet) (who : Sender) (lane : Option Nat) : still (sendColl s p who lane).2.2 = still s := by
  unfold sendColl; (repeat' split) <;> simp
@[simp] theorem noteAbort_still (s : State) (sent : Bool) (st : Status) (part : Nat) (group : Nat) (tag : Nat) : still (noteAbort s sent st part group tag) = still s := by
  unfold noteAbort; simp
@[simp] theorem postAbort_still (s : State) (h : HeldAbort) (lane : Option Nat) : still (postAbort s h lane) = still s := by
  unfold postAbort; (repeat' split) <;> (try simp) <;> (refine still_of_snd2 (by assumption) ?_; simp)
@[simp] theorem sendAbort_still (s : State) (g : Grout) (pos : Nat) (st : Status) : still (sendAbort s g pos st) = still s := by
  unfold sendAbort; simp only []; (repeat' split) <;> (try simp) <;> (repeat (first | (refine still_of_snd (by assumption) ?_) | (refine still_of_snd2 (by assumption) ?_)) <;> (try simp))
@[simp] theorem groutEnd_still (s : State) (g : Grout) (st : Status) (lapsed : Option Nat) : still (groutEnd s g st lapsed) = still s := by
  unfold groutEnd; simp
@[simp] theorem groutFail_still (s : State) (g : Grout) (st : Status) : still (groutFail s g st) = still s := by
  unfold groutFail; simp
@[simp] theorem flushGrout_still (s : State) (g : Grout) (lane : Option Nat) (a3 : Nat) : still (flushGrout s g lane a3) = still s := by
  induction a3 generalizing s g with
  | zero => rfl
  | succ n ih =>
    unfold flushGrout; (repeat' split) <;> (try rw [ih]) <;> (try simp) <;> (repeat (first | (refine still_of_snd (by assumption) ?_) | (refine still_of_snd2 (by assumption) ?_)) <;> (try simp))
@[simp] theorem spotBytes_still (s : State) (g : Grout) (a2 : Option (Nat × Nat × Nat)) : still (spotBytes s g a2).2.2 = still s := by
  unfold spotBytes; split <;> simp
@[simp] theorem slotBytes_still (s : State) (g : Grout) (gr : Group) (i : Nat) (j : Nat) (r : RxStream) : still (slotBytes s g gr i j r).2.2 = still s := by
  unfold slotBytes; simp
@[simp] theorem ownBytes_still (s : State) (g : Grout) (j : Nat) : still (ownBytes s g j).2.2 = still s := by
  unfold ownBytes; simp
@[simp] theorem spotFail_still (s : State) (g : Grout) (st : Status) (a3 : Option (Nat × Nat × Nat)) : still (spotFail s g st a3) = still s := by
  unfold spotFail; split <;> simp
@[simp] theorem writeFail_still (s : State) (g : Grout) (st : Status) (key : Nat) (va : Nat) (n : Nat) : still (writeFail s g st key va n) = still s := by
  unfold writeFail; simp
@[simp] theorem addStreams_still (g : Grout) (gr : Group) (j : Nat) (a3 : List RxStream) (a4 : Nat) (a5 : Bytes) (a6 : State) : still (addStreams g gr j a3 a4 a5 a6).2 = still a6 := by
  induction a3 generalizing a4 a5 a6 with
  | nil => simp [addStreams]
  | cons r rest ih =>
    have k := slotBytes_still a6 g gr a4 j r
    unfold addStreams; dsimp only; split
    · rename_i h; rw [h] at k; split
      · rw [ih]; exact k
      · split
        · rename_i h2; rw [ih]; exact (still_of_snd h2 (by simp)).trans k
        · rename_i h2; exact (still_of_snd h2 (by simp)).trans k
    · rename_i h; rw [h] at k; exact k
@[simp] theorem chunkValue_still (s : State) (g : Grout) (gr : Group) (j : Nat) : still (chunkValue s g gr j).2 = still s := by
  unfold chunkValue; (repeat' split) <;> (try simp) <;> (repeat (first | (refine still_of_snd (by assumption) ?_) | (refine still_of_snd2 (by assumption) ?_)) <;> (try simp))
@[simp] theorem passChunk_still (s : State) (g : Grout) (gr : Group) : still (passChunk s g gr) = still s := by
  unfold passChunk; simp only []; (repeat' split) <;> (try simp) <;> (repeat (refine still_of_snd (by assumption) ?_) <;> (try simp))
@[simp] theorem forwardChunk_still (s : State) (g : Grout) (gr : Group) (t : TxStream) : still (forwardChunk s g gr t) = still s := by
  unfold forwardChunk; simp only []; (repeat' split) <;> simp
@[simp] theorem takeChunk_still (s : State) (g : Grout) (r : RxStream) : still (takeChunk s g r) = still s := by
  unfold takeChunk; simp
@[simp] theorem copyChunk_still (s : State) (g : Grout) : still (copyChunk s g) = still s := by
  unfold copyChunk; simp
@[simp] theorem takeCredit_still (s : State) (g : Grout) (gr : Group) (pos : Nat) (pl : Bytes) : still (takeCredit s g gr pos pl) = still s := by
  unfold takeCredit; simp
@[simp] theorem startPart_still (s : State) (g : Grout) (gr : Group) : still (startPart s g gr) = still s := by
  unfold startPart; dsimp only; rw [still_foldl]
  · rfl
  · intro s x; split <;> simp
@[simp] theorem groutDone_still (s : State) (g : Grout) (gr : Group) : still (groutDone s g gr) = still s := by
  unfold groutDone; simp only []; (repeat' split) <;> simp
theorem groutStep_still (s : State) (g : Grout) : ∀ t, (groutStep s g) = some t → still t = still s := by
  unfold groutStep; simp only []; (repeat' split) <;> simp
@[simp] theorem groutRun_still (s : State) (part : Nat) (group : Nat) (tag : Nat) (a4 : Nat) : still (groutRun s part group tag a4) = still s := by
  induction a4 generalizing s with
  | zero => rfl
  | succ n ih =>
    unfold groutRun; (repeat' (first | split | dsimp only)) <;> (try rw [ih]) <;> (try simp) <;> (repeat (first | (refine still_of_snd (by assumption) ?_) | (refine still_of_snd2 (by assumption) ?_) | (refine still_of_snd3 (by assumption) ?_) | (refine still_of_fst (by assumption) ?_) | (refine (still_of_some (by assumption) (by first | apply reserveFill_still | apply takeCtr_still | apply measAdd_still | apply noteProgram_still | apply groutStep_still)).trans ?_)) <;> (try simp))
@[simp] theorem groutGo_still (s : State) (part : Nat) (group : Nat) (tag : Nat) : still (groutGo s part group tag) = still s := by
  unfold groutGo; (repeat' split) <;> simp
@[simp] theorem barrierOfTask_still (s : State) (r : TaskRef) (ctx : Nat) (part : Nat) (t : Task) : still (barrierOfTask s r ctx part t).2.2 = still s := by
  unfold barrierOfTask; extract_lets
  split
  · rfl
  · split
    rename_i st b s1 h1
    have h1' : still s1 = still s := still_of_snd2 h1 (by simp)
    extract_lets step g gr sh
    clear_value sh gr g
    (repeat' split) <;> simp [h1']
@[simp] theorem groutStart_still (s : State) (g : Grout) : still (groutStart s g) = still s := by
  unfold groutStart; (repeat' split) <;> simp
@[simp] theorem renewLease_still (s : State) (gr : Group) (p : Packet) : still (renewLease s gr p) = still s := by
  unfold renewLease; (repeat' split) <;> (try simp)
@[simp] theorem collData_still (s : State) (gr : Group) (p : Packet) : still (collData s gr p).2 = still s := by
  unfold collData; simp only []; (repeat' split) <;> simp
@[simp] theorem runColl_still (s : State) (p : Packet) : still (runColl s p).2 = still s := by
  unfold runColl; simp only []; (repeat' split) <;> simp
@[simp] theorem collResp_still (s : State) (part : Nat) (group : Nat) (tag : Nat) (xid : Nat) (st : Status) : still (collResp s part group tag xid st) = still s := by
  unfold collResp; (repeat' split) <;> simp
theorem execHoldTimer_still (partition : Nat) (group : Nat) (tag : Nat) (receiver : Nat) (s : State) : Kept s (execHoldTimer partition group tag receiver s) := by
  unfold execHoldTimer; (repeat' split) <;> simp
theorem execSlotLeaseExpiry_still (partition : Nat) (group : Nat) (tag : Nat) (sender : Nat) (s : State) : Kept s (execSlotLeaseExpiry partition group tag sender s) := by
  unfold execSlotLeaseExpiry; (repeat' split) <;> simp
@[simp] theorem groutAbort_still (s : State) (r : TaskRef) (st : Status) : still (groutAbort s r st) = still s := by
  unfold groutAbort; (repeat' split) <;> simp
@[simp] theorem groutUnlocked_still (s : State) : still (groutUnlocked s) = still s := by
  unfold groutUnlocked; rw [still_foldl]; intro s x; split <;> (try split) <;> simp
@[simp] theorem groutStale_still (s : State) : still (groutStale s) = still s := by
  unfold groutStale; rw [still_foldl]; intro s x; split <;> (try split) <;> simp

/-! ## Trowel -/

@[simp] theorem tierRead_still (s : State) (ctx : Nat) (key : Nat) (va : Nat) (n : Nat) (cap : Bool) : still (tierRead s ctx key va n cap).2.2 = still s := by
  unfold tierRead; simp only []; (repeat' split) <;> simp
@[simp] theorem tierFault_still (s : State) (r : TaskRef) (st : Status) (ctx : Nat) (key : Nat) (va : Nat) (n : Nat) (acc : Acc) (cap : Bool) : still (tierFault s r st ctx key va n acc cap) = still s := by
  unfold tierFault; split <;> simp
@[simp] theorem writeStop_still (s : State) (ctx : Nat) (key : Nat) (a3 : List (Nat × Nat × Nat)) : still (writeStop s ctx key a3).2 = still s := by
  induction a3 generalizing s with
  | nil => rfl
  | cons x l ih =>
    obtain ⟨la, m, v⟩ := x; unfold writeStop; split <;> (try rw [ih]) <;> (try simp) <;> (repeat (refine still_of_snd (by assumption) ?_; try simp))
@[simp] theorem writeFault_still (s : State) (r : TaskRef) (st : Status) (ctx : Nat) (key : Nat) (l : List (Nat × Nat × Nat)) : still (writeFault s r st ctx key l) = still s := by
  unfold writeFault; simp
@[simp] theorem trowelWrite_still (s : State) (r : TaskRef) (ctx : Nat) (key : Nat) (va : Nat) (b : Bytes) : still (trowelWrite s r ctx key va b).2 = still s := by
  unfold trowelWrite; simp only []; split <;> simp
@[simp] theorem trowelDone_still (s : State) (r : TaskRef) (st : Status) (flags : Nat) : still (trowelDone s r st flags) = still s := by
  unfold trowelDone; simp
@[simp] theorem writeDesc_still (s : State) (t : Trowel) : still (writeDesc s t).2 = still s := by
  unfold writeDesc; simp
@[simp] theorem trowelDirty_still (s : State) (t : Trowel) (at' : Nat) (st : Status) : still (trowelDirty s t at' st) = still s := by
  unfold trowelDirty; simp
@[simp] theorem trowelDecide_still (s : State) (r : TaskRef) (ctx : Nat) (dkey : Nat) (auxVa : Nat) (rec' : Bytes) : still (trowelDecide s r ctx dkey auxVa rec') = still s := by
  unfold trowelDecide; simp
@[simp] theorem trowelFinish_still (s : State) (t : Trowel) : still (trowelFinish s t) = still s := by
  unfold trowelFinish; simp only []; (repeat' split) <;> (try simp) <;> (repeat (refine still_of_snd (by assumption) ?_; try simp))
@[simp] theorem trowelApply_still (s : State) (t : Trowel) : still (trowelApply s t) = still s := by
  unfold trowelApply; simp only []; (repeat' split) <;> (try simp) <;> (repeat (refine still_of_snd (by assumption) ?_; try simp))
@[simp] theorem trowelGrad_still (s : State) (t : Trowel) (lo : Nat) (hi : Nat) : still (trowelGrad s t lo hi).2.2 = still s := by
  unfold trowelGrad; (repeat' split) <;> simp
@[simp] theorem chunkFault_still (s : State) (t : Trowel) (st : Status) (st2 : Status) (va : Nat) (lo : Nat) (hi : Nat) : still (chunkFault s t st st2 va lo hi) = still s := by
  unfold chunkFault; dsimp only; (repeat' split) <;> simp
@[simp] theorem blockedWrite_still (s : State) (t : Trowel) (st : Status) (va : Nat) (n : Nat) (work : Tab (Nat × Nat)) : still (blockedWrite s t st va n work) = still s := by
  unfold blockedWrite; split <;> simp
@[simp] theorem trowelChunk_still (s : State) (t : Trowel) : still (trowelChunk s t) = still s := by
  unfold trowelChunk; extract_lets
  split
  rename_i st1 old s1 h1
  have h1' : still s1 = still s := still_of_snd2 h1 (by simp)
  split
  rename_i st2 grad s0 h2
  have h0' : still s0 = still s := (still_of_snd2 h2 (by simp)).trans h1'
  extract_lets s2 st
  have h2' : still s2 = still s := by simp [s2, h0']
  clear_value s2 st
  split
  · simp [h2']
  split
  · simp [h2']
  try extract_lets
  split
  · simp [h2']
  split
  rename_i st3 s3 h3
  have h3' : still s3 = still s := (still_of_snd h3 (by simp)).trans h2'
  split
  · simp [h3']
  extract_lets s4
  have h4' : still s4 = still s := (still_foldl _ (by simp) _ _).trans h3'
  split
  rename_i st5 s5 h5
  have h5' : still s5 = still s := (still_of_snd h5 (by simp)).trans h4'
  split
  · simp [h5']
  try extract_lets
  split
  · rename_i s6 h6
    have h6' : still s6 = still s := (still_of_snd h6 (by simp)).trans h5'
    split <;> simp [h6']
  · rename_i st6 s6 h6
    simpa using (still_of_snd h6 (by simp)).trans h5'
@[simp] theorem sealDone_still (s : State) (t : Trowel) : still (sealDone s t) = still s := by
  unfold sealDone; (repeat' split) <;> simp
@[simp] theorem pumpTrowel_still (s : State) (a1 : Nat) : still (pumpTrowel s a1) = still s := by
  induction a1 generalizing s with
  | zero => rfl
  | succ n ih =>
    unfold pumpTrowel; (repeat' (first | split | dsimp only)) <;> (try rw [ih]) <;> (try simp) <;> (repeat (first | (refine still_of_snd (by assumption) ?_) | (refine still_of_snd2 (by assumption) ?_)) <;> (try simp))
@[simp] theorem pumpTrowelAll_still (s : State) : still (pumpTrowelAll s) = still s := by
  unfold pumpTrowelAll; (repeat' split) <;> simp
@[simp] theorem trowelResp_still (s : State) (xid : Nat) (st : Status) : still (trowelResp s xid st) = still s := by
  unfold trowelResp; (repeat' split) <;> simp
@[simp] theorem journalWrite_still (s : State) (t : Trowel) (pieces : List (Nat × Bytes)) : still (journalWrite s t pieces) = still s := by
  unfold journalWrite; dsimp only; split
  · generalize h : pieces.foldl _ _ = q; obtain ⟨st, u⟩ := q; dsimp only
    rw [sealDone_still]
    exact still_of_snd h (still_foldl_of Prod.snd _ (fun r x => by split <;> simp) _ _)
  · split <;> simp
@[simp] theorem trowelJournal_still (s : State) (t : Trowel) : still (trowelJournal s t) = still s := by
  unfold trowelJournal; simp
@[simp] theorem trowelStep_still (s : State) (t : Trowel) : still (trowelStep s t) = still s := by
  unfold trowelStep; simp
@[simp] theorem trowelReplay_still (s : State) (t : Trowel) : still (trowelReplay s t) = still s := by
  unfold trowelReplay; simp
@[simp] theorem trowelStart_still (s : State) (r : TaskRef) (ctx : Nat) (part : Nat) (t : Task) : still (trowelStart s r ctx part t) = still s := by
  unfold trowelStart; extract_lets op
  clear_value op
  split
  · simp
  · split
    rename_i st1 dd s1 h1
    have h1' : still s1 = still s := by
      split at h1
      · cases h1; rfl
      · exact still_of_snd2 h1 (by simp)
    split
    rename_i st2 aux s2 h2
    have h2' : still s2 = still s := by
      split at h2 <;> exact (still_of_snd2 h2 (by simp)).trans h1'
    extract_lets
    (repeat' split) <;> simp only [faultRange_still, tierFault_still, trowelDone_still, trowelStep_still, trowelDecide_still, trowelJournal_still, trowelReplay_still, h2']
@[simp] theorem trowelAbort_still (s : State) (r : TaskRef) (st : Status) : still (trowelAbort s r st) = still s := by
  unfold trowelAbort; (repeat' split) <;> simp
theorem execTrowelChunkRetire_still (s : State) : Kept s (execTrowelChunkRetire s) := by
  unfold execTrowelChunkRetire; (repeat' split) <;> simp

end Sys2Proof.Machine
end

