-- ==== Sys2Proof/Laws/StillHost.lean ====
section
/-! SUPPORT. Host objects, the dispatcher, memory commands, power, links, reset, mapping, the bounce path, submission and the fabric leave module time, the waiting commands and the life-cycle word as they are. -/

namespace Sys2Proof.Machine
open Sys2Proof

/-! ## CkptSend -/

@[simp] theorem putCapture_still (s : State) (i : Nat) (c : Capture) : still (putCapture s i c) = still s := by
  unfold putCapture; (repeat' split) <;> simp
@[simp] theorem putRestore_still (s : State) (i : Nat) (r : Restore) : still (putRestore s i r) = still s := by
  unfold putRestore; (repeat' split) <;> simp
@[simp] theorem freeSes_still (s : State) (i : Nat) : still (freeSes s i) = still s := by
  unfold freeSes; (repeat' split) <;> simp
@[simp] theorem putLink_still (s : State) (i : Nat) (t : CkptLink) : still (putLink s i t) = still s := by
  unfold putLink; (repeat' split) <;> simp
@[simp] theorem pumpCkpt_still (s : State) (i : Nat) (a2 : Nat) : still (pumpCkpt s i a2) = still s := by
  induction a2 generalizing s with
  | zero => rfl
  | succ n ih =>
    unfold pumpCkpt; (repeat' (first | split | dsimp only)) <;> (try rw [ih]) <;> (try simp) <;> (rename_i h; exact still_of_snd2 h (by simp))
@[simp] theorem pumpCkptAll_still (s : State) : still (pumpCkptAll s) = still s := by
  unfold pumpCkptAll; rw [still_foldl]; intro s x; split <;> simp
@[simp] theorem ckptResp_still (s : State) (i : Nat) (xid : Nat) (st : Status) : still (ckptResp s i xid st) = still s := by
  unfold ckptResp; (repeat' split) <;> simp
@[simp] theorem ckptLand_still (s : State) (i : Nat) (off : Nat) (b : Bytes) : still (ckptLand s i off b) = still s := by
  unfold ckptLand; (repeat' split) <;> simp
@[simp] theorem dropLinkRequests_still (s : State) (i : Nat) : still (dropLinkRequests s i) = still s := by
  unfold dropLinkRequests; (repeat' split) <;> simp
@[simp] theorem captureFail_still (s : State) (i : Nat) (st : Status) : still (captureFail s i st) = still s := by
  unfold captureFail; (repeat' split) <;> simp
@[simp] theorem restoreEnd_still (s : State) (i : Nat) (st : Status) (bytes : Bytes) : still (restoreEnd s i st bytes) = still s := by
  unfold restoreEnd; (repeat' split) <;> simp
@[simp] theorem restoreFail_still (s : State) (i : Nat) (st : Status) : still (restoreFail s i st) = still s := by
  unfold restoreFail; (repeat' split) <;> simp
@[simp] theorem ckptAbort_still (s : State) (i : Nat) (st : Status) : still (ckptAbort s i st) = still s := by
  unfold ckptAbort; simp
@[simp] theorem ckptEndContext_still (s : State) (ctx : Nat) (st : Status) : still (ckptEndContext s ctx st) = still s := by
  unfold ckptEndContext; rw [still_foldl]; intro s x; (repeat' split) <;> simp
@[simp] theorem ckptUnmapped_still (s : State) (ctx : Nat) (va : Nat) (len : Nat) : still (ckptUnmapped s ctx va len) = still s := by
  unfold ckptUnmapped; rw [still_foldl]; intro s x; (repeat' split) <;> simp
@[simp] theorem ckptRevoke_still (s : State) (key : Nat) : still (ckptRevoke s key) = still s := by
  unfold ckptRevoke; rw [still_foldl]; intro s x; dsimp only; (repeat' split) <;> simp

/-! ## Objects -/

@[simp] theorem lockPage_still (s : State) (pa : Nat) (n : Nat) (take : Bool) : still (lockPage s pa n take) = still s := by
  unfold lockPage; simp
@[simp] theorem primeWhere_still (s : State) (p : Nat → Bool) : still (primeWhere s p) = still s := by
  unfold primeWhere; simp
@[simp] theorem closeWindow_still (s : State) (w : Nat) : still (closeWindow s w) = still s := by
  unfold closeWindow; (repeat' split) <;> simp
@[simp] theorem closeGroup_still (s : State) (part : Nat) (group : Nat) : still (closeGroup s part group) = still s := by
  unfold closeGroup; simp
@[simp] theorem closeOf_still (s : State) (p : Nat → Bool) : still (closeOf s p) = still s := by
  unfold closeOf; simp
@[simp] theorem forgetUses_still (s : State) (slot : Nat) : still (forgetUses s slot) = still s := by
  unfold forgetUses; (try simp only []); (try simp)
@[simp] theorem stopTask_still (s : State) (r : TaskRef) (st : Status) : still (stopTask s r st) = still s := by
  unfold stopTask; (repeat' split) <;> simp
@[simp] theorem stopQueue_still (s : State) (q : Nat) (st : Status) : still (stopQueue s q st) = still s := by
  unfold stopQueue; (repeat' split) <;> simp
@[simp] theorem beginContextEnd_still (s : State) (ctx : Nat) (st : Status) : still (beginContextEnd s ctx st) = still s := by
  unfold beginContextEnd; simp
@[simp] theorem finishReset_still (s : State) (ctx : Nat) : still (finishReset s ctx) = still s := by
  unfold finishReset; simp
@[simp] theorem finishDestroy_still (s : State) (ctx : Nat) : still (finishDestroy s ctx) = still s := by
  unfold finishDestroy; dsimp only; rw [setCtx_still]; split <;> simp
@[simp] theorem beginSessionEnd_still (s : State) (i : Nat) : still (beginSessionEnd s i) = still s := by
  unfold beginSessionEnd; (repeat' split) <;> simp
@[simp] theorem finishSession_still (s : State) (i : Nat) : still (finishSession s i) = still s := by
  unfold finishSession
  split
  · rfl
  · extract_lets k s1 s2 sl s3 s4 s5 s6
    have h1 : still s1 = still s := still_foldl _ (by simp) _ _
    have h2 : still s2 = still s := (still_foldl _ (by simp) _ _).trans h1
    have h3 : still s3 = still s := (still_foldl _ (by simp) _ _).trans h2
    have h4 : still s4 = still s := by
      simp only [s4]
      cases h : measAdd s3 _ 5 0 0 0 i 0 _ with
      | none => exact h3
      | some t => exact (measAdd_still _ _ _ _ _ _ _ _ _ t h).trans h3
    have h6 : still s6 = still s := by simp [s6, s5, h4]
    clear_value s6
    exact h6
@[simp] theorem beginRemoval_still (s : State) (n : Nat) : still (beginRemoval s n) = still s := by
  unfold beginRemoval; simp only [modCluster_still]; rw [still_foldl]
  · simp
  · intro s x; split <;> simp
theorem execClusterRemovalTimeout_still (cluster : Nat) (s : State) : Kept s (execClusterRemovalTimeout cluster s) := by
  unfold execClusterRemovalTimeout; (repeat' split) <;> simp
@[simp] theorem zeroCluster_still (s : State) (n : Nat) : still (zeroCluster s n) = still s := by
  unfold zeroCluster; simp
@[simp] theorem startScrubs_still (s : State) : still (startScrubs s) = still s := by
  unfold startScrubs; simp
@[simp] theorem finishPartition_still (s : State) (part : Nat) : still (finishPartition s part) = still s := by
  unfold finishPartition; simp
@[simp] theorem mgmtProgress_still (q : Nat) (s : State) : still (mgmtProgress q s) = still s := by
  unfold mgmtProgress; simp only []; (repeat' split) <;> simp
@[simp] theorem fwActivate_still (s : State) (target : Nat) : still (fwActivate s target).2 = still s := by
  unfold fwActivate; (repeat' split) <;> simp
@[simp] theorem fwBoth_still (s : State) : still (fwBoth s).2 = still s := by
  unfold fwBoth; simp
@[simp] theorem fwProgress_still (s : State) : still (fwProgress s) = still s := by
  unfold fwProgress; simp
@[simp] theorem progress_still (s : State) : still (progress s) = still s := by
  unfold progress
  extract_lets s1 s2 s3 st s4
  have h1 : still s1 = still s := still_foldl _ (by intro s x; (repeat' split) <;> simp) _ _
  have h2 : still s2 = still s := (still_foldl _ (by intro s x; (repeat' (first | split | dsimp only)) <;> simp) _ _).trans h1
  have h3 : still s3 = still s := by simp [s3, h2]
  have h4 : still s4 = still s := (still_foldl _ (by simp) _ _).trans h3
  simp [h4]
theorem execClusterScrubComplete_still (cluster : Nat) (s : State) : Kept s (execClusterScrubComplete cluster s) := by
  unfold execClusterScrubComplete; (repeat' split) <;> simp

/-! ## Completion -/

theorem execEndRelease_still (core : Nat) (s : State) : Kept s (execEndRelease core s) := by
  unfold execEndRelease; simp only []; (repeat' split) <;> simp
theorem execTaskScrubComplete_still (core : Nat) (s : State) : Kept s (execTaskScrubComplete core s) := by
  unfold execTaskScrubComplete; (repeat' split) <;> simp
theorem execTaskStopComplete_still (queue : Nat) (task : Nat) (s : State) : Kept s (execTaskStopComplete queue task s) := by
  unfold execTaskStopComplete; (repeat' split) <;> simp
@[simp] theorem noteLimit_still (s : State) (queue : Nat) (task : Nat) : still (noteLimit s queue task) = still s := by
  unfold noteLimit; simp
theorem execWatchdogExpiry_still (queue : Nat) (task : Nat) (s : State) : Kept s (execWatchdogExpiry queue task s) := by
  unfold execWatchdogExpiry; (repeat' split) <;> simp
theorem execSignalLimitExpiry_still (queue : Nat) (task : Nat) (s : State) : Kept s (execSignalLimitExpiry queue task s) := by
  unfold execSignalLimitExpiry; (repeat' split) <;> simp

/-! ## Dispatcher -/

@[simp] theorem readPlan_still (s : State) (ctx : Nat) (base : Nat) (key : Nat) : still (readPlan s ctx base key).2.2.2.2.2 = still s := by
  unfold readPlan; simp only []; (repeat' split) <;> simp
@[simp] theorem failedAt_still (s : State) (q : Nat) (va : Option Nat) : still (failedAt s q va) = still s := by
  unfold failedAt; simp
@[simp] theorem planFault_still (s : State) (q : Nat) (ctx : Nat) (base : Nat) (key : Nat) (st : Status) : still (planFault s q ctx base key st) = still s := by
  unfold planFault; simp
@[simp] theorem afterFailed_still (s : State) (ctx : Nat) (key : Nat) (va : Nat) (n : Nat) : still (afterFailed s ctx key va n) = still s := by
  unfold afterFailed; (repeat' split) <;> (try simp)
theorem execPlanLoad_still (queue : Nat) (s : State) : Kept s (execPlanLoad queue s) := by
  unfold execPlanLoad; simp only []; (repeat' split) <;> simp
@[simp] theorem takeClusters_still (s : State) (part : Nat) (r : TaskRef) (t : Task) : still (takeClusters s part r t) = still s := by
  unfold takeClusters; simp
@[simp] theorem takeUnit_still (s : State) (r : TaskRef) : still (takeUnit s r) = still s := by
  unfold takeUnit; simp
@[simp] theorem dispatchWinner_still (s : State) (res : Resource) (c : Candidate) : still (dispatchWinner s res c) = still s := by
  unfold dispatchWinner; simp only []; (repeat' split) <;> simp
theorem execArbitrationDecision_still (resource : Resource) (s : State) : Kept s (execArbitrationDecision resource s) := by
  unfold execArbitrationDecision; (repeat' split) <;> simp
theorem execSkimAdmission_still (partition : Nat) (s : State) : Kept s (execSkimAdmission partition s) := by
  unfold execSkimAdmission; (repeat' split) <;> simp
theorem execPrologueLoadIssue_still (queue : Nat) (task : Nat) (entry : Nat) (cluster : Nat) (s : State) : Kept s (execPrologueLoadIssue queue task entry cluster s) := by
  unfold execPrologueLoadIssue; (repeat' (first | split | dsimp only)) <;> (try simp) <;> (try (refine (still_getD (takeChan_still _ _ _ _ _)).trans ?_)) <;> (try simp)
theorem execAheadDispatch_still (queue : Nat) (task : Nat) (cluster : Nat) (s : State) : Kept s (execAheadDispatch queue task cluster s) := by
  unfold execAheadDispatch; simp only []; (repeat' split) <;> simp
theorem execSkimRangeZero_still (cluster : Nat) (base : Nat) (s : State) : Kept s (execSkimRangeZero cluster base s) := by
  unfold execSkimRangeZero; simp only []; (repeat' split) <;> simp

/-! ## Requests -/

@[simp] theorem answerRequest_still (s : State) (xid : Nat) (st : Status) : still (answerRequest s xid st) = still s := by
  unfold answerRequest; simp only []; (repeat' split) <;> simp
@[simp] theorem pumpEverything_still (s : State) : still (pumpEverything s) = still s := by
  unfold pumpEverything; simp
@[simp] theorem sendAgain_still (s : State) (xid : Nat) (tries : Nat) : still (sendAgain s xid tries) = still s := by
  unfold sendAgain; (repeat' split) <;> simp
@[simp] theorem movePort_still (s : State) (p : Nat) (st : PState) : still (movePort s p st) = still s := by
  unfold movePort; simp
@[simp] theorem clearPort_still (s : State) (p : Nat) : still (clearPort s p) = still s := by
  unfold clearPort; simp
@[simp] theorem downPort_still (s : State) (p : Nat) : still (downPort s p) = still s := by
  unfold downPort; simp
@[simp] theorem trainPort_still (s : State) (p : Nat) : still (trainPort s p) = still s := by
  unfold trainPort; simp
@[simp] theorem freshPort_still (s : State) (p : Nat) : still (freshPort s p) = still s := by
  unfold freshPort; simp
@[simp] theorem abortPort_still (s : State) (p : Nat) (st : Status) : still (abortPort s p st) = still s := by
  unfold abortPort; simp

/-! ## Serve -/

@[simp] theorem answerVia_still (s : State) (port : Nat) (p : Packet) (st : Status) (data : Bytes) : still (answerVia s port p st data).2 = still s := by
  unfold answerVia; simp only []; (repeat' split) <;> (try simp) <;> (repeat (first | (refine still_of_snd (by assumption) ?_) | (refine still_of_snd2 (by assumption) ?_) | (refine still_of_snd3 (by assumption) ?_) | (refine still_of_fst (by assumption) ?_) | (refine (still_of_some (by assumption) (by first | apply reserveFill_still | apply takeCtr_still | apply measAdd_still | apply noteProgram_still | apply groutStep_still)).trans ?_) | (refine (still_of_some2 (by assumption) (by first | apply reserveFill_still | apply takeCtr_still)).trans ?_)) <;> (try simp))
@[simp] theorem keepRecord_still (s : State) (p : Packet) (r : Packet) (st : Status) : still (keepRecord s p r st) = still s := by
  unfold keepRecord; simp
@[simp] theorem runPut_still (s : State) (p : Packet) (w : Window) : still (runPut s p w).2.2 = still s := by
  unfold runPut; simp only []; (repeat' split) <;> simp
@[simp] theorem runGet_still (s : State) (p : Packet) (w : Window) : still (runGet s p w).2.2 = still s := by
  unfold runGet; simp
@[simp] theorem runWord_still (s : State) (p : Packet) (w : Window) (n : Nat) (f : Bytes → Option Bytes × Bytes) : still (runWord s p w n f).2.2 = still s := by
  unfold runWord; simp only []; (repeat' split) <;> simp
@[simp] theorem runAtomic_still (s : State) (p : Packet) (w : Window) : still (runAtomic s p w).2.2 = still s := by
  unfold runAtomic; (repeat' split) <;> simp
@[simp] theorem runWindow_still (s : State) (p : Packet) : still (runWindow s p).2.2 = still s := by
  unfold runWindow; simp only []; (repeat' split) <;> simp
@[simp] theorem runRequest_still (s : State) (p : Packet) : still (runRequest s p).2.2 = still s := by
  unfold runRequest; simp only []; (repeat' split) <;> simp
@[simp] theorem settlePlans_still (s : State) : still (settlePlans s) = still s := by
  unfold settlePlans; simp
@[simp] theorem serveDue_still (s : State) (port : Nat) (p : Packet) : still (serveDue s port p) = still s := by
  unfold serveDue; simp
@[simp] theorem serveHeld_still (s : State) (a1 : Nat) : still (serveHeld s a1) = still s := by
  induction a1 generalizing s with
  | zero => rfl
  | succ n ih =>
    unfold serveHeld; split
    · rfl
    · dsimp only; rw [ih]; split <;> simp
@[simp] theorem serveOrdered_still (s : State) (rx : Rx) : still (serveOrdered s rx) = still s := by
  unfold serveOrdered; simp only []; (repeat' split) <;> simp
@[simp] theorem passBuffer_still (s : State) (rx : Rx) : still (passBuffer s rx) = still s := by
  unfold passBuffer; simp
@[simp] theorem keepIn_still (s : State) (l : List HeldReq) (rx : Rx) : still (keepIn s l rx).2 = still s := by
  unfold keepIn; (repeat' split) <;> (try simp)
@[simp] theorem holdLink_still (s : State) (rx : Rx) : still (holdLink s rx) = still s := by
  unfold holdLink; (try simp only []); (try simp)
@[simp] theorem holdEpoch_still (s : State) (rx : Rx) : still (holdEpoch s rx) = still s := by
  unfold holdEpoch; (try simp only []); (try simp)
@[simp] theorem actOn_still (s : State) (rx : Rx) (v : Verdict) : still (actOn s rx v) = still s := by
  unfold actOn; (repeat' split) <;> simp
@[simp] theorem receiveRequest_still (s : State) (rx : Rx) : still (receiveRequest s rx) = still s := by
  unfold receiveRequest; (repeat' split) <;> (try simp) <;> (repeat (refine still_of_snd (by assumption) ?_; try simp))
@[simp] theorem releaseEpoch_still (s : State) : still (releaseEpoch s) = still s := by
  unfold releaseEpoch; rw [still_foldl]; intro s x; split <;> simp
@[simp] theorem applyLoan_still (s : State) (node : Nat) (b : Bytes) : still (applyLoan s node b) = still s := by
  unfold applyLoan; simp
@[simp] theorem landBytes_still (s : State) (core : Nat) (tok : Nat) (dest : List Nat) (data : Bytes) : still (landBytes s core tok dest data).2.2 = still s := by
  unfold landBytes; (repeat' split) <;> simp
@[simp] theorem noteLanding_still (s : State) (core : Nat) (tok : Nat) (off : Nat) (a : Option Nat) : still (noteLanding s core tok off a) = still s := by
  unfold noteLanding; (repeat' split) <;> (try simp)
@[simp] theorem deliver_still (s : State) (rx : Rx) : still (deliver s rx) = still s := by
  unfold deliver; (try simp only []); (repeat' split) <;> (try simp)
@[simp] theorem serveLate_still (s : State) (h : HeldReq) : still (serveLate s h) = still s := by
  unfold serveLate; (try simp only []); (repeat' split) <;> (try simp)
@[simp] theorem releaseLink_still (s : State) : still (releaseLink s) = still s := by
  unfold releaseLink; (try simp only []); (repeat' split) <;> (try simp)

/-! ## MemCmds -/

@[simp] theorem failModule_still (s : State) (a : Nat) : still (failModule s a) = still s := by
  unfold failModule; simp
@[simp] theorem countCopy_still (s : State) (ctl : Nat) (a : Nat) (r : Decoded) : still (countCopy s ctl a r) = still s := by
  unfold countCopy; (repeat' split) <;> simp
@[simp] theorem readReserved_still (s : State) (a : Nat) (raw1 : RawRead) (raw2 : RawRead) : still (readReserved s a raw1 raw2).2.2 = still s := by
  unfold readReserved; (repeat' split) <;> simp
@[simp] theorem runRead_still (s : State) (r : MemReq) (r1 : RawRead) (r2 : RawRead) : still (runRead s r r1 r2) = still s := by
  unfold runRead; simp only []; (repeat' split) <;> simp
@[simp] theorem writeReserved_still (s : State) (r : MemReq) (data : Bytes) (r1 : RawRead) (r2 : RawRead) : still (writeReserved s r data r1 r2) = still s := by
  unfold writeReserved; simp only []; (repeat' split) <;> (try simp) <;> (repeat (first | (refine still_of_snd (by assumption) ?_) | (refine still_of_snd2 (by assumption) ?_)) <;> (try simp))
@[simp] theorem runWrite_still (s : State) (r : MemReq) (data : Bytes) (r1 : RawRead) (r2 : RawRead) : still (runWrite s r data r1 r2) = still s := by
  unfold runWrite; simp only []; (repeat' split) <;> (try simp) <;> (repeat (first | (refine still_of_snd (by assumption) ?_) | (refine still_of_snd2 (by assumption) ?_) | (refine still_of_snd3 (by assumption) ?_) | (refine still_of_fst (by assumption) ?_) | (refine (still_of_some (by assumption) (by first | apply reserveFill_still)).trans ?_)) <;> (try simp))
@[simp] theorem runReq_still (s : State) (q : HeldMem) : still (runReq s q) = still s := by
  unfold runReq; (repeat' split) <;> (try simp)
@[simp] theorem atController_still (s : State) (q : HeldMem) : still (atController s q) = still s := by
  unfold atController; (repeat' split) <;> simp
@[simp] theorem releaseHeld_still (s : State) (d : Nat) : still (releaseHeld s d) = still s := by
  unfold releaseHeld; simp
@[simp] theorem sealRequest_still (s : State) (r : MemReq) : still (sealRequest s r) = still s := by
  unfold sealRequest; simp
@[simp] theorem admitRequest_still (s : State) (q : HeldMem) : still (admitRequest s q) = still s := by
  unfold admitRequest; (repeat' split) <;> simp
theorem execLineRead_still (req : MemReq) (first : RawRead) (second : RawRead) (s : State) : Kept s (execLineRead req first second s) := by
  unfold execLineRead; simp
theorem execLineWrite_still (req : MemReq) (data : Bytes) (first : RawRead) (second : RawRead) (s : State) : Kept s (execLineWrite req data first second s) := by
  unfold execLineWrite; simp
theorem execZeroFillComplete_still (granule : Nat) (s : State) : Kept s (execZeroFillComplete granule s) := by
  unfold execZeroFillComplete; simp
theorem execPatrolScrubRead_still (addr : Nat) (raw : RawRead) (s : State) : Kept s (execPatrolScrubRead addr raw s) := by
  unfold execPatrolScrubRead; simp
theorem execMemoryRefresh_still (controller : Nat) (_bank : Nat) (delayed : Nat) (s : State) : Kept s (execMemoryRefresh controller _bank delayed s) := by
  unfold execMemoryRefresh; simp
theorem execSandingRetry_still (key : Nat) (s : State) : Kept s (execSandingRetry key s) := by
  unfold execSandingRetry; simp only []; (repeat' split) <;> simp
@[simp] theorem finishSanding_still (s : State) (key : Nat) : still (finishSanding s key) = still s := by
  unfold finishSanding; simp
@[simp] theorem slotsAhead_still (s : State) (ctl : Nat) : still (slotsAhead s ctl).2 = still s := by
  unfold slotsAhead; (repeat' split) <;> (try simp)
theorem execSandingLineStep_still (key : Nat) (controller : Nat) (first : RawRead) (second : RawRead) (s : State) : Kept s (execSandingLineStep key controller first second s) := by
  unfold execSandingLineStep; simp only []; (repeat' split) <;> (try simp) <;> (repeat (first | (refine still_of_snd (by assumption) ?_) | (refine still_of_snd2 (by assumption) ?_)) <;> (try simp))

/-! ## Power -/

theorem execDvfsDecision_still (cluster : Nat) (n : Nat) (s : State) : Kept s (execDvfsDecision cluster n s) := by
  unfold execDvfsDecision; simp
@[simp] theorem updateThrottle_still (s : State) : still (updateThrottle s) = still s := by
  unfold updateThrottle; simp
theorem execThrottleOutRelease_still (s : State) : Kept s (execThrottleOutRelease s) := by
  unfold execThrottleOutRelease; (repeat' split) <;> simp
@[simp] theorem beginOverride_still (s : State) (loop : Nat) : still (beginOverride s loop) = still s := by
  unfold beginOverride; simp
@[simp] theorem endOverride_still (s : State) (loop : Nat) : still (endOverride s loop) = still s := by
  unfold endOverride; simp
@[simp] theorem updateFloor_still (s : State) : still (updateFloor s) = still s := by
  unfold updateFloor; simp
@[simp] theorem setSkip_still (s : State) : still (setSkip s) = still s := by
  unfold setSkip; simp
@[simp] theorem lowerN_still (s : State) (c : Nat) : still (lowerN s c) = still s := by
  unfold lowerN; (try simp only []); (repeat' split) <;> (try simp)
@[simp] theorem lowerStep_still (s : State) (loop : Nat) : still (lowerStep s loop) = still s := by
  unfold lowerStep; simp
theorem execFastCurrentOverride_still (s : State) : Kept s (execFastCurrentOverride s) := by
  unfold execFastCurrentOverride; simp
theorem execSustainedCurrentStep_still (s : State) : Kept s (execSustainedCurrentStep s) := by
  unfold execSustainedCurrentStep; simp
@[simp] theorem noteDroop_still (s : State) (die : Nat) : still (noteDroop s die) = still s := by
  unfold noteDroop; (try simp only []); (repeat' split) <;> (try simp)
theorem execVoltageDroop_still (die : Nat) (s : State) : Kept s (execVoltageDroop die s) := by
  unfold execVoltageDroop; simp
theorem execTemperatureThrottleStep_still (s : State) : Kept s (execTemperatureThrottleStep s) := by
  unfold execTemperatureThrottleStep; simp
theorem execTemperatureFloor_still (s : State) : Kept s (execTemperatureFloor s) := by
  unfold execTemperatureFloor; simp
theorem execSafetyOverrideEnd_still (loop : Nat) (s : State) : Kept s (execSafetyOverrideEnd loop s) := by
  unfold execSafetyOverrideEnd; simp
theorem execBrakeInTrigger_still (s : State) : Kept s (execBrakeInTrigger s) := by
  unfold execBrakeInTrigger; simp
theorem execBrakeAssertedRepeat_still (s : State) : Kept s (execBrakeAssertedRepeat s) := by
  unfold execBrakeAssertedRepeat; simp
theorem execBrakeRelease_still (s : State) : Kept s (execBrakeRelease s) := by
  unfold execBrakeRelease; simp
@[simp] theorem beginDrain_still (s : State) (d : Nat) (target : DState) : still (beginDrain s d target) = still s := by
  unfold beginDrain; simp
theorem execClusterClockStop_still (cluster : Nat) (s : State) : Kept s (execClusterClockStop cluster s) := by
  unfold execClusterClockStop; simp only []; (repeat' split) <;> simp
theorem execClusterOffDelay_still (cluster : Nat) (s : State) : Kept s (execClusterOffDelay cluster s) := by
  unfold execClusterOffDelay; simp only []; (repeat' split) <;> simp
@[simp] theorem abortDomain_still (s : State) (d : Nat) : still (abortDomain s d) = still s := by
  unfold abortDomain; (repeat' split) <;> simp
@[simp] theorem darkCluster_still (s : State) (n : Nat) : still (darkCluster s n) = still s := by
  unfold darkCluster; simp
@[simp] theorem switchOff_still (s : State) (d : Nat) (target : DState) : still (switchOff s d target) = still s := by
  unfold switchOff; simp
@[simp] theorem beginWake_still (s : State) (d : Nat) : still (beginWake s d) = still s := by
  unfold beginWake; simp
@[simp] theorem powerProgressOf_still (q : Nat) (s : State) : still (powerProgressOf q s) = still s := by
  unfold powerProgressOf; (repeat' split) <;> simp
@[simp] theorem powerProgress_still (s : State) : still (powerProgress s) = still s := by
  unfold powerProgress; simp
theorem execDomainDrainEnd_still (domain : Nat) (s : State) : Kept s (execDomainDrainEnd domain s) := by
  unfold execDomainDrainEnd; simp
theorem execDomainWakeComplete_still (domain : Nat) (s : State) : Kept s (execDomainWakeComplete domain s) := by
  unfold execDomainWakeComplete; simp
@[simp] theorem powerSet_still (s : State) (q : Nat) (entry : Bytes) : still (powerSet s q entry) = still s := by
  unfold powerSet; simp; (repeat' split) <;> simp
theorem execClockLadderStep_still (clock : Nat) (s : State) : Kept s (execClockLadderStep clock s) := by
  unfold execClockLadderStep; simp
@[simp] theorem setGate_still (s : State) (b : Nat) (on : Bool) : still (setGate s b on) = still s := by
  unfold setGate; simp
@[simp] theorem resetBlock_still (s : State) (b : Nat) : still (resetBlock s b) = still s := by
  unfold resetBlock; simp
@[simp] theorem writeGate_still (s : State) (b : Nat) (on : Bool) : still (writeGate s b on) = still s := by
  unfold writeGate; simp
@[simp] theorem clkgateWrite_still (s : State) (offset : Nat) (value : Nat) : still (clkgateWrite s offset value) = still s := by
  unfold clkgateWrite; simp
theorem execClkgateWrite_still (offset : Nat) (value : Word) (s : State) : Kept s (execClkgateWrite offset value s) := by
  unfold execClkgateWrite; simp
theorem execClkgateTakeEffect_still (block : Nat) (s : State) : Kept s (execClkgateTakeEffect block s) := by
  unfold execClkgateTakeEffect; (repeat' split) <;> simp
@[simp] theorem postClockLost_still (s : State) (src : Nat) : still (postClockLost s src) = still s := by
  unfold postClockLost; simp
@[simp] theorem failOverDie_still (s : State) (die : Nat) : still (failOverDie s die) = still s := by
  unfold failOverDie; (try simp only []); (repeat' split) <;> (try simp)
@[simp] theorem failOver_still (s : State) (n : Nat) : still (failOver s n) = still s := by
  unfold failOver; simp
@[simp] theorem enterDust_still (s : State) (src : Nat) : still (enterDust s src) = still s := by
  unfold enterDust; simp
theorem execClockLoss_still (source : ClockSource) (s : State) : Kept s (execClockLoss source s) := by
  unfold execClockLoss; (repeat' split) <;> simp
theorem execCrystalReturn_still (s : State) : Kept s (execCrystalReturn s) := by
  unfold execCrystalReturn; simp
@[simp] theorem shiftTimers_still (s : State) (at' : Nat) : still (shiftTimers s at') = still s := by
  unfold shiftTimers; simp
@[simp] theorem interruptLath_still (s : State) : still (interruptLath s) = still s := by
  unfold interruptLath; simp only []; (repeat' split) <;> simp
@[simp] theorem clockRecover_still (s : State) : still (clockRecover s) = still s := by
  unfold clockRecover; simp

/-! ## Links -/

@[simp] theorem setLinkDir_still (s : State) (link : Nat) (dir : Nat) (v : D2dDir) : still (setLinkDir s link dir v) = still s := by
  unfold setLinkDir; simp
@[simp] theorem keyPhase_still (s : State) (link : Nat) (dir : Nat) (phase : Nat) : still (keyPhase s link dir phase) = still s := by
  unfold keyPhase; simp
@[simp] theorem retrainLink_still (s : State) (link : Nat) : still (retrainLink s link) = still s := by
  unfold retrainLink; simp
@[simp] theorem putFrame_still (s : State) (link : Nat) (dir : Nat) (phase : Nat) (ctr : Nat) (payload : Bytes) : still (putFrame s link dir phase ctr payload) = still s := by
  unfold putFrame; simp
@[simp] theorem sendFrame_still (s : State) (link : Nat) (dir : Nat) (payload : Bytes) : still (sendFrame s link dir payload) = still s := by
  unfold sendFrame; simp
@[simp] theorem sendHeld_still (s : State) (link : Nat) (dir : Nat) : still (sendHeld s link dir) = still s := by
  unfold sendHeld; simp
@[simp] theorem dropLink_still (s : State) (link : Nat) : still (dropLink s link) = still s := by
  unfold dropLink; simp
theorem execD2dFrameSend_still (link : Nat) (dir : Nat) (payload : Bytes) (s : State) : Kept s (execD2dFrameSend link dir payload s) := by
  unfold execD2dFrameSend; (repeat' split) <;> simp
theorem execD2dFrameReceive_still (link : Nat) (dir : Nat) (tagOk : Bool) (s : State) : Kept s (execD2dFrameReceive link dir tagOk s) := by
  unfold execD2dFrameReceive; simp
theorem execLinkKeyInstall_still (link : Nat) (dir : Nat) (s : State) : Kept s (execLinkKeyInstall link dir s) := by
  unfold execLinkKeyInstall; simp only []; (repeat' split) <;> simp
theorem execLinkKeyTimeout_still (link : Nat) (dir : Nat) (s : State) : Kept s (execLinkKeyTimeout link dir s) := by
  unfold execLinkKeyTimeout; (repeat' split) <;> simp
theorem execD2dLinkTrainingComplete_still (link : Nat) (ok : Bool) (s : State) : Kept s (execD2dLinkTrainingComplete link ok s) := by
  unfold execD2dLinkTrainingComplete; simp
@[simp] theorem startLinks_still (s : State) : still (startLinks s) = still s := by
  unfold startLinks; simp

/-! ## Reset -/

@[simp] theorem relevel_still (s : State) : still (relevel s) = still s := by
  unfold relevel; simp
@[simp] theorem moduleReset_still (s : State) : still (moduleReset s) = still s := by
  unfold moduleReset; simp only [markMove_still, updateThrottle_still, relevel_still]; rfl
@[simp] theorem powerUp_still (s : State) : still (powerUp s) = still s := by
  unfold powerUp; simp
@[simp] theorem halt_still (s : State) : still (halt s) = still s := by
  unfold halt; (try simp only []); (try simp)
@[simp] theorem tryPowerUp_still (s : State) : still (tryPowerUp s) = still s := by
  unfold tryPowerUp; simp
theorem execPerstAssert_still (s : State) : Kept s (execPerstAssert s) := by
  unfold execPerstAssert; simp
theorem execPerstDeassert_still (slotId : Nat) (s : State) : Kept s (execPerstDeassert slotId s) := by
  unfold execPerstDeassert; simp
@[simp] theorem losePower_still (s : State) (mv : Nat) (h : s.sp.programming = none) : still (losePower s mv) = still s := by
  simp [losePower, still, lcSettled, h]
@[simp] theorem destroyRoot_still (s : State) : still (destroyRoot s) = still s := by
  unfold destroyRoot; simp
@[simp] theorem endProgramming_still (s : State) (target : Nat) (h : lcSettled s.sp = s.sp.lcWord) : still (endProgramming s target) = still s := by
  have h1 : ∀ b, still { s with sp := { s.sp with programming := none, testAccess := b } } = still s := fun b => by
    simp only [still]; rw [h]; rfl
  unfold endProgramming; dsimp only
  (repeat' split) <;> simp [h1]
theorem bit_eq (v i : Nat) : bit v i = v.testBit i := by
  simp [bit, Nat.testBit, Nat.shiftRight_eq_div_pow, Nat.and_comm, Nat.one_and_eq_mod_two]
/-- A bit that programming sets is one of the target's code. -/
theorem nextBit_some (s : State) (target i : Nat) (h : nextBit s target = some i) :
    s.sp.lcWord ||| BitVec.ofNat 64 (2 ^ i) ||| lcCode target = s.sp.lcWord ||| lcCode target := by
  have hb := List.find?_some h
  simp only [bit_eq, Bool.and_eq_true] at hb
  apply BitVec.eq_of_getLsbD_eq
  intro j hj
  simp only [BitVec.getLsbD_or, BitVec.getLsbD_ofNat, Nat.testBit_two_pow, hj, decide_true, Bool.true_and]
  by_cases e : i = j
  · subst e; simp [BitVec.getLsbD, hb.1]
  · simp [e]
/-- With no bit left to set the word reads all of the target's code. -/
theorem nextBit_none (s : State) (target : Nat) (h : nextBit s target = none) : s.sp.lcWord ||| lcCode target = s.sp.lcWord := by
  have hb := List.find?_eq_none.mp h
  apply BitVec.eq_of_getLsbD_eq
  intro j hj
  have k := hb j (List.mem_range.mpr hj)
  simp only [bit_eq, Bool.and_eq_true, Bool.not_eq_true', not_and, Bool.not_eq_false] at k
  simp only [BitVec.getLsbD_or]
  by_cases e : (lcCode target).getLsbD j = true
  · have w : s.sp.lcWord.getLsbD j = true := k e
    rw [w]; rfl
  · simp only [Bool.not_eq_true] at e; simp [e]
@[simp] theorem settleProgramming_still (s : State) : still (settleProgramming s) = still s := by
  unfold settleProgramming
  split
  · rfl
  · rename_i t at' h
    have e : lcSettled s.sp = s.sp.lcWord ||| lcCode t := by simp [lcSettled, h]
    have e2 : lcSettled { s.sp with lcWord := lcSettled s.sp } = lcSettled s.sp := by simp [lcSettled, h, BitVec.or_assoc]
    rw [endProgramming_still _ _ e2]
    simp only [still]; rw [e2]
@[simp] theorem programTick_still (s : State) : still (programTick s) = still s := by
  unfold programTick
  split
  · rfl
  · rename_i t at' h
    have e : lcSettled s.sp = s.sp.lcWord ||| lcCode t := by simp [lcSettled, h]
    split
    · rfl
    · split
      · rename_i i hi
        have e2 : lcSettled { s.sp with programming := some (t, s.ns), lcWord := s.sp.lcWord ||| BitVec.ofNat 64 (2 ^ i) } = lcSettled s.sp := by
          rw [e]; exact nextBit_some s t i hi
        simp only [still]; rw [e2]
      · rename_i hn
        exact endProgramming_still s t (by rw [e, nextBit_none s t hn])
@[simp] theorem islandStart_still (s : State) (mv : Nat) : still (islandStart s mv) = still s := by
  show still (tryPowerUp (if _ then destroyRoot _ else _)) = _
  rw [tryPowerUp_still]
  split
  · rw [destroyRoot_still]; rfl
  · rfl
theorem execInputPowerUp_still (millivolts : Nat) (s : State) : Kept s (execInputPowerUp millivolts s) := by
  unfold execInputPowerUp; simp
theorem execInputBrownOut_still (millivolts : Nat) (s : State) : Kept s (execInputBrownOut millivolts s) := by
  unfold execInputBrownOut; simp
theorem execBrownOutRecovery_still (millivolts : Nat) (s : State) : Kept s (execBrownOutRecovery millivolts s) := by
  unfold execBrownOutRecovery; simp
theorem execInputLockout_still (millivolts : Nat) (s : State) (h : s.sp.programming = none) : Kept s (execInputLockout millivolts s) := by
  unfold execInputLockout; simp [h]
theorem execInputOvervoltage_still (millivolts : Nat) (s : State) (h : s.sp.programming = none) : Kept s (execInputOvervoltage millivolts s) := by
  unfold execInputOvervoltage; simp [h]
theorem execOvervoltageRecovery_still (millivolts : Nat) (s : State) : Kept s (execOvervoltageRecovery millivolts s) := by
  unfold execOvervoltageRecovery; simp
theorem execTemperatureTrip_still (s : State) : Kept s (execTemperatureTrip s) := by
  unfold execTemperatureTrip; simp
theorem execTripCooldownRelease_still (s : State) : Kept s (execTripCooldownRelease s) := by
  unfold execTripCooldownRelease; simp
theorem execClockRecovery_still (s : State) : Kept s (execClockRecovery s) := by
  unfold execClockRecovery; simp
theorem execCableInsert_still (connector : Nat) (s : State) : Kept s (execCableInsert connector s) := by
  unfold execCableInsert; simp
theorem execCableRemove_still (connector : Nat) (s : State) : Kept s (execCableRemove connector s) := by
  unfold execCableRemove; simp
theorem execSmbusStuck_still (scl : Bool) (sda : Bool) (s : State) : Kept s (execSmbusStuck scl sda s) := by
  unfold execSmbusStuck; simp
theorem execSmbusResume_still (s : State) : Kept s (execSmbusResume s) := by
  unfold execSmbusResume; simp
theorem execSmbusAlertResponse_still (s : State) : Kept s (execSmbusAlertResponse s) := by
  unfold execSmbusAlertResponse; simp
theorem execMctpControlMessage_still (binding : Nat) (eid : Nat) (s : State) : Kept s (execMctpControlMessage binding eid s) := by
  unfold execMctpControlMessage; simp
theorem execPldmSensorRead_still (sensor : Nat) (s : State) : Kept s (execPldmSensorRead sensor s) := by
  unfold execPldmSensorRead; simp
theorem execPldmFruRead_still (s : State) : Kept s (execPldmFruRead s) := by
  unfold execPldmFruRead; simp
theorem execSensorRefresh_still (millivolts : Nat) (watts : Nat) (temps : List Nat) (inlet : Nat) (outlet : Nat) (s : State) : Kept s (execSensorRefresh millivolts watts temps inlet outlet s) := by
  unfold execSensorRefresh; simp

/-! ## Mapping -/

@[simp] theorem tensorCreate_still (s : State) (ctx : Nat) (e : Bytes) : still (tensorCreate s ctx e).2 = still s := by
  unfold tensorCreate; simp
@[simp] theorem tensorDestroy_still (s : State) (ctx : Nat) (e : Bytes) : still (tensorDestroy s ctx e).2 = still s := by
  unfold tensorDestroy; simp only []; (repeat' split) <;> simp
@[simp] theorem markTable_still (s : State) (ctx : Nat) (pa : Nat) (n : Nat) : still (markTable s ctx pa n) = still s := by
  unfold markTable; simp
@[simp] theorem linkTable_still (s : State) (ea : Nat) (next : Nat) : still (linkTable s ea next) = still s := by
  unfold linkTable; simp
@[simp] theorem readBroken_still (s : State) (ctx : Nat) (slots : List Slot64) : still (readBroken s ctx slots).2 = still s := by
  unfold readBroken; simp
@[simp] theorem mapPages_still (s : State) (ctx : Nat) (e : Bytes) : still (mapPages s ctx e).2.2 = still s := by
  unfold mapPages; simp only []; (repeat' split) <;> simp
@[simp] theorem unmapPages_still (s : State) (ctx : Nat) (e : Bytes) : still (unmapPages s ctx e).2.2 = still s := by
  unfold unmapPages; extract_lets; (repeat' (first | split | dsimp only)) <;> (try simp) <;> (try (rw [still_foldl _ (by intro s x; simp)]))

/-! ## Bounce -/

@[simp] theorem bindUse_still (s : State) (slot : Nat) (cls : Nat) (ses : Nat) : still (bindUse s slot cls ses).2 = still s := by
  unfold bindUse; (repeat' (first | split | dsimp only)) <;> (try simp) <;> (repeat (first | (refine still_of_snd (by assumption) ?_) | (refine still_of_snd2 (by assumption) ?_) | (refine still_of_fst (by assumption) ?_)) <;> (try simp))
@[simp] theorem dropUses_still (s : State) (slot : Nat) : still (dropUses s slot) = still s := by
  unfold dropUses; (try simp only []); (try simp)
@[simp] theorem abortSlot_still (s : State) (slot : Nat) : still (abortSlot s slot) = still s := by
  unfold abortSlot; simp
@[simp] theorem copyIn_still (s : State) (q : Nat) (ctx : Nat) (e : Bytes) (body : Option Body) : still (copyIn s q ctx e body).2.2 = still s := by
  unfold copyIn; (repeat' (first | split | dsimp only)) <;> (try simp) <;> (repeat (first | (refine still_of_snd (by assumption) ?_) | (refine still_of_snd2 (by assumption) ?_) | (refine still_of_fst (by assumption) ?_)) <;> (try simp))
@[simp] theorem copyInEnd_still (s : State) (ctx : Nat) (e : Bytes) (u : CopyUse) : still (copyInEnd s ctx e u).2.2 = still s := by
  unfold copyInEnd
  split
  rename_i va n _
  split
  · rfl
  · dsimp only
    split
    · rfl
    · rename_i s2 h2
      have h3 : still s2 = still s := by
        split at h2
        · exact measAdd_still _ _ _ _ _ _ _ _ _ _ h2
        · injection h2 with h; rw [h]
      simpa using h3
@[simp] theorem sendPieces_still (s : State) (ses : Nat) (id : Nat) (va : Nat) (plain : Bytes) : still (sendPieces s ses id va plain).2 = still s := by
  unfold sendPieces; (repeat' split) <;> simp
@[simp] theorem copyOut_still (s : State) (ctx : Nat) (e : Bytes) (busError : Bool) : still (copyOut s ctx e busError).2.2 = still s := by
  unfold copyOut
  split
  rename_i va n _
  extract_lets w key slotNo owned ses
  split
  · rfl
  · split
    · rfl
    · split
      · rfl
      · rename_i form _
        extract_lets use
        have hu : still use.2.2 = still s := by simp only [use]; (repeat' split) <;> simp
        clear_value use
        split
        · rename_i h1; exact still_of_snd h1 hu
        · rename_i h1; exact still_of_snd h1 hu
@[simp] theorem copyOutEnd_still (s : State) (q : Nat) (ctx : Nat) (e : Bytes) (u : CopyUse) : still (copyOutEnd s q ctx e u).2.2 = still s := by
  unfold copyOutEnd
  split
  rename_i va n _
  split
  rename_i st plain s1 h1
  have h1' : still s1 = still s := still_of_snd2 h1 (by simp)
  split
  · exact h1'
  · split
    · exact h1'
    · split
      rename_i good s2 h2
      have h2' : still s2 = still s := by
        split at h2
        · exact (still_of_snd h2 (by simp)).trans h1'
        · cases h2; exact h1'
      split <;> simp [h2']
@[simp] theorem withBody_still (s : State) (q : Nat) (dir : Nat) (e : Bytes) (busError : Bool) (run : State → Status × Option CopyUse × State) (hrun : ∀ v0, still (run v0).2.2 = still v0) : still (withBody s q dir e busError run).2.2 = still s := by
  unfold withBody; dsimp only; (repeat' split) <;> simp [hrun]

/-! ## Manage -/

@[simp] theorem done_still (s : State) (q : Nat) (st : Status) : still (done s q st) = still s := by
  unfold done; simp
@[simp] theorem refuse_still (s : State) (q : Nat) (code : Nat) (part : Nat) : still (refuse s q code part) = still s := by
  unfold refuse; simp
@[simp] theorem waitOn_still (s : State) (q : Nat) (l : List Nat) : still (waitOn s q l) = still s := by
  unfold waitOn; simp
@[simp] theorem partitionCreate_still (s : State) (q : Nat) (e : Bytes) : still (partitionCreate s q e) = still s := by
  unfold partitionCreate; simp
@[simp] theorem partitionResize_still (s : State) (q : Nat) (e : Bytes) : still (partitionResize s q e) = still s := by
  unfold partitionResize; simp
@[simp] theorem partitionReset_still (s : State) (q : Nat) (e : Bytes) : still (partitionReset s q e) = still s := by
  unfold partitionReset; simp
@[simp] theorem partitionDestroy_still (s : State) (q : Nat) (e : Bytes) : still (partitionDestroy s q e) = still s := by
  unfold partitionDestroy; simp
@[simp] theorem contextCreate_still (s : State) (q : Nat) (e : Bytes) : still (contextCreate s q e) = still s := by
  unfold contextCreate; simp
@[simp] theorem contextEnd_still (s : State) (q : Nat) (e : Bytes) (st : Status) : still (contextEnd s q e st) = still s := by
  unfold contextEnd; simp
@[simp] theorem contextFaultRead_still (s : State) (q : Nat) (e : Bytes) : still (contextFaultRead s q e) = still s := by
  unfold contextFaultRead; simp
@[simp] theorem queueCreate_still (s : State) (q : Nat) (e : Bytes) : still (queueCreate s q e) = still s := by
  unfold queueCreate; simp
@[simp] theorem queueDestroy_still (s : State) (q : Nat) (e : Bytes) : still (queueDestroy s q e) = still s := by
  unfold queueDestroy; (repeat' split) <;> simp
@[simp] theorem queueFlush_still (s : State) (q : Nat) (e : Bytes) : still (queueFlush s q e) = still s := by
  unfold queueFlush; (repeat' split) <;> simp
@[simp] theorem queueResume_still (s : State) (q : Nat) (e : Bytes) : still (queueResume s q e) = still s := by
  unfold queueResume; (repeat' split) <;> simp
@[simp] theorem queueSetPrio_still (s : State) (q : Nat) (e : Bytes) : still (queueSetPrio s q e) = still s := by
  unfold queueSetPrio; (repeat' split) <;> simp
theorem execQueueDestroyTimeout_still (queue : Nat) (s : State) : Kept s (execQueueDestroyTimeout queue s) := by
  unfold execQueueDestroyTimeout; (repeat' split) <;> simp
@[simp] theorem fwCommand_still (s : State) (q : Nat) (e : Bytes) : still (fwCommand s q e) = still s := by
  unfold fwCommand; simp
@[simp] theorem resetCommand_still (s : State) (q : Nat) : still (resetCommand s q) = still s := by
  unfold resetCommand; simp
@[simp] theorem manage_still (s : State) (q : Nat) (e : Bytes) : still (manage s q e) = still s := by
  unfold manage; (repeat' split) <;> simp

/-! ## Submission -/

@[simp] theorem markPinned_still (s : State) : still (markPinned s) = still s := by
  unfold markPinned; simp
@[simp] theorem touchQueue_still (s : State) (q : Nat) : still (touchQueue s q) = still s := by
  unfold touchQueue; simp
@[simp] theorem loadQueue_still (s : State) (q : Nat) : still (loadQueue s q).2 = still s := by
  unfold loadQueue; simp only []; (repeat' split) <;> simp
@[simp] theorem serveWaiting_still (s : State) : still (serveWaiting s) = still s := by
  unfold serveWaiting; rw [still_foldl]; intro s x; (repeat' split) <;> (try simp) <;> (repeat (refine still_of_snd (by assumption) ?_; try simp))
@[simp] theorem dropDoorbell_still (s : State) (q : Nat) (value : Nat) : still (dropDoorbell s q value) = still s := by
  unfold dropDoorbell; simp
@[simp] theorem keepDoorbell_still (s : State) (q : Nat) (f : Queue → Queue) : still (keepDoorbell s q f) = still s := by
  unfold keepDoorbell; simp
@[simp] theorem sqTailWrite_still (s : State) (queue : Nat) (value : Nat) : still (sqTailWrite s queue value) = still s := by
  unfold sqTailWrite; simp only []; (repeat' split) <;> (try simp) <;> (repeat (refine still_of_snd (by assumption) ?_; try simp))
theorem execSqTailDoorbell_still (queue : Nat) (value : Nat) (s : State) : Kept s (execSqTailDoorbell queue value s) := by
  unfold execSqTailDoorbell; simp
@[simp] theorem cqHeadWrite_still (s : State) (queue : Nat) (value : Nat) : still (cqHeadWrite s queue value) = still s := by
  unfold cqHeadWrite; simp only []; (repeat' split) <;> (try simp) <;> (repeat (refine still_of_snd (by assumption) ?_) <;> (try simp))
theorem execCqHeadDoorbell_still (queue : Nat) (value : Nat) (s : State) : Kept s (execCqHeadDoorbell queue value s) := by
  unfold execCqHeadDoorbell; simp
@[simp] theorem doneAt_still (s : State) (q : Nat) (st : Status) (addr : Option Nat) (info0 : Nat) : still (doneAt s q st addr info0) = still s := by
  unfold doneAt; simp
@[simp] theorem copyStart_still (q : Nat) (r : Status × Option CopyUse × State) : still (copyStart q r) = still r.2.2 := by
  unfold copyStart; split <;> simp
@[simp] theorem copyFinish_still (s : State) (q : Nat) : still (copyFinish s q) = still s := by
  unfold copyFinish; (repeat' (first | split | dsimp only)) <;> (try simp) <;> (repeat (first | (refine still_of_snd (by assumption) ?_) | (refine still_of_snd2 (by assumption) ?_) | (refine still_of_fst (by assumption) ?_)) <;> (try simp))
@[simp] theorem dataCommand_still (s : State) (q : Nat) (e : Bytes) (body : Option Body) (busError : Bool) : still (dataCommand s q e body busError) = still s := by
  unfold dataCommand; (repeat' (first | split | dsimp only)) <;> (try simp) <;> (try (rename_i h; refine still_of_snd2 h ?_)) <;> (try simp)
theorem execSubmissionFetch_still (queue : Nat) (entry : Bytes) (body : Option Body) (busError : Bool) (s : State) : Kept s (execSubmissionFetch queue entry body busError s) := by
  unfold execSubmissionFetch; simp only []; (repeat' split) <;> simp
theorem execCommandCompletion_still (queue : Nat) (s : State) : Kept s (execCommandCompletion queue s) := by
  unfold execCommandCompletion; simp only []; (repeat' split) <;> simp
theorem execPrimeBitsSet_still (queue : Nat) (s : State) : Kept s (execPrimeBitsSet queue s) := by
  unfold execPrimeBitsSet; (repeat' split) <;> simp
theorem execUnmapAccessTimeout_still (queue : Nat) (s : State) : Kept s (execUnmapAccessTimeout queue s) := by
  unfold execUnmapAccessTimeout; (repeat' split) <;> simp

/-! ## Fabric -/

theorem execStore_still (rx : Rx) (s : State) : Kept s (execStore rx s) := by
  unfold execStore; simp
theorem execPut_still (rx : Rx) (s : State) : Kept s (execPut rx s) := by
  unfold execPut; simp
theorem execLoad_still (rx : Rx) (s : State) : Kept s (execLoad rx s) := by
  unfold execLoad; simp
theorem execGet_still (rx : Rx) (s : State) : Kept s (execGet rx s) := by
  unfold execGet; simp
theorem execFetchAdd_still (rx : Rx) (s : State) : Kept s (execFetchAdd rx s) := by
  unfold execFetchAdd; simp
theorem execCompareSwap_still (rx : Rx) (s : State) : Kept s (execCompareSwap rx s) := by
  unfold execCompareSwap; simp
theorem execLeaseAcquire_still (rx : Rx) (s : State) : Kept s (execLeaseAcquire rx s) := by
  unfold execLeaseAcquire; simp
theorem execLeaseRelease_still (rx : Rx) (s : State) : Kept s (execLeaseRelease rx s) := by
  unfold execLeaseRelease; simp
theorem execResp_still (rx : Rx) (s : State) : Kept s (execResp rx s) := by
  unfold execResp; (repeat' (first | split | dsimp only)) <;> (try simp) <;> (repeat (first | (refine still_of_snd (by assumption) ?_) | (refine still_of_snd2 (by assumption) ?_) | (refine still_of_fst (by assumption) ?_)) <;> (try simp))
@[simp] theorem exhaustRequest_still (s : State) (xid : Nat) : still (exhaustRequest s xid) = still s := by
  unfold exhaustRequest; (repeat' split) <;> simp
theorem execRespTimeout_still (node : Nat) (xid : Nat) (s : State) : Kept s (execRespTimeout node xid s) := by
  unfold execRespTimeout; (repeat' split) <;> simp
theorem execCompletionRecordExpiry_still (node : Nat) (xid : Nat) (s : State) : Kept s (execCompletionRecordExpiry node xid s) := by
  unfold execCompletionRecordExpiry; simp
theorem execEpochHoldTimeout_still (node : Nat) (xid : Nat) (s : State) : Kept s (execEpochHoldTimeout node xid s) := by
  unfold execEpochHoldTimeout; (repeat' split) <;> simp
theorem execLoanReclaim_still (node : Nat) (s : State) : Kept s (execLoanReclaim node s) := by
  unfold execLoanReclaim; (repeat' split) <;> simp
theorem execLathKeyRetire_still (key : Nat) (s : State) : Kept s (execLathKeyRetire key s) := by
  unfold execLathKeyRetire; (repeat' split) <;> simp
@[simp] theorem retrainPort_still (s : State) (p : Nat) : still (retrainPort s p) = still s := by
  unfold retrainPort; simp
@[simp] theorem replayAll_still (s : State) (port : Nat) : still (replayAll s port) = still s := by
  unfold replayAll; simp
theorem execPortTrainingComplete_still (port : Nat) (ok : Bool) (s : State) : Kept s (execPortTrainingComplete port ok s) := by
  unfold execPortTrainingComplete; simp
theorem execLinkFrameReceive_still (port : Nat) (seq : Nat) (fecOk : Bool) (fecFixed : Bool) (crcOk : Bool) (tagOk : Bool) (s : State) : Kept s (execLinkFrameReceive port seq fecOk fecFixed crcOk tagOk s) := by
  unfold execLinkFrameReceive; simp
theorem execLinkNakReceive_still (port : Nat) (seq : Nat) (s : State) : Kept s (execLinkNakReceive port seq s) := by
  unfold execLinkNakReceive; simp only []; (repeat' split) <;> simp
theorem execLinkAckReceive_still (port : Nat) (seq : Nat) (credits : List Nat) (s : State) : Kept s (execLinkAckReceive port seq credits s) := by
  unfold execLinkAckReceive; simp

end Sys2Proof.Machine
end

