-- ==== Sys2Proof/Laws/StillSp.lean ====
section
/-! SUPPORT. The security processor's requests, the domain, registers and platform management leave module time, the waiting commands and the life-cycle word as they are. -/

namespace Sys2Proof.Machine
open Sys2Proof

/-! ## SpReq -/

@[simp] theorem setSpdm_still (s : State) (sess : Nat) (v : Spdm) : still (setSpdm s sess v) = still s := by
  unfold setSpdm; simp
@[simp] theorem inOrder_still (s : State) (sess : Nat) (v : Spdm) (f : State → State) (hf : ∀ v0, still (f v0) = still v0) : still (inOrder s sess v f) = still s := by
  unfold inOrder
  split
  · dsimp only
    split <;> simp [hf]
  · exact hf s
@[simp] theorem lateTick_still (s : State) : still (lateTick s) = still s := by
  unfold lateTick; (try simp only []); (repeat' split) <;> (try simp)
theorem request_still (s : State) (sess : Nat) (allow : Spdm → Bool) (f : Spdm → State → State) (hf : ∀ v0 v1, still (f v0 v1) = still v1) : Kept s (request s sess allow f) := by
  unfold request
  split
  · simp
  · dsimp only
    split
    · simp
    · split
      · simp
      · rw [kept_next, inOrder_still]
        · simp
        · intro s; (repeat' split) <;> simp [hf]

/-! ## Domain -/

@[simp] theorem setPlumb_still (s : State) (p : Plumb) : still (setPlumb s p) = still s := by
  unfold setPlumb; simp
@[simp] theorem setMember_still (s : State) (m : Member) : still (setMember s m) = still s := by
  unfold setMember; simp
@[simp] theorem vc4Accept_still (s : State) (rx : Rx) (op : Nat) : still (vc4Accept s rx op).2 = still s := by
  unfold vc4Accept; simp only []; (repeat' split) <;> (try simp) <;> (repeat (refine still_of_snd (by assumption) ?_; try simp))
@[simp] theorem flushGroup_still (s : State) (part : Nat) (group : Nat) : still (flushGroup s part group) = still s := by
  unfold flushGroup; rw [still_foldl]; intro s x; split <;> simp
@[simp] theorem postSlip_still (s : State) (part : Nat) (group : Nat) (node : Nat) : still (postSlip s part group node) = still s := by
  unfold postSlip; simp
@[simp] theorem withdraw_still (s : State) (groups : List (Nat × Nat)) (node : Nat) : still (withdraw s groups node) = still s := by
  unfold withdraw; simp
@[simp] theorem loseLock_still (s : State) : still (loseLock s) = still s := by
  unfold loseLock; simp
theorem execPlumbSyncTimer_still (s : State) : Kept s (execPlumbSyncTimer s) := by
  unfold execPlumbSyncTimer; simp
theorem execSyncReq_still (rx : Rx) (s : State) : Kept s (execSyncReq rx s) := by
  unfold execSyncReq; (repeat' split) <;> (try simp) <;> (repeat (refine still_of_snd (by assumption) ?_; try simp))
@[simp] theorem takeEpoch_still (s : State) (e : Nat) : still (takeEpoch s e) = still s := by
  unfold takeEpoch; simp
theorem execSyncResp_still (rx : Rx) (s : State) : Kept s (execSyncResp rx s) := by
  unfold execSyncResp
  split
  · rename_i h; exact (kept_next _ _).mpr (still_of_snd h (by simp))
  · rename_i s1 h
    have h1 : still s1 = still s := still_of_snd h (by simp)
    dsimp only
    split
    · exact (kept_next _ _).mpr h1
    split
    · exact (kept_next _ _).mpr h1
    split
    · rw [kept_next, takeEpoch_still, setPlumb_still]; exact h1
    · split
      · rw [kept_next, setPlumb_still, takeEpoch_still, setPlumb_still]; exact h1
      · rw [kept_next, loseLock_still, takeEpoch_still, setPlumb_still]; exact h1
theorem execPlumbLockLoss_still (s : State) : Kept s (execPlumbLockLoss s) := by
  unfold execPlumbLockLoss; simp
@[simp] theorem crownGrandmaster_still (s : State) : still (crownGrandmaster s) = still s := by
  unfold crownGrandmaster; simp
theorem execPpsInEdge_still (s : State) : Kept s (execPpsInEdge s) := by
  unfold execPpsInEdge; simp
theorem execPpsOutPulse_still (s : State) : Kept s (execPpsOutPulse s) := by
  unfold execPpsOutPulse; simp
@[simp] theorem slipCheck_still (s : State) (rx : Rx) : still (slipCheck s rx) = still s := by
  unfold slipCheck; simp
theorem execSlotSlip_still (rx : Rx) (s : State) : Kept s (execSlotSlip rx s) := by
  unfold execSlotSlip; (repeat' split) <;> (try simp) <;> (repeat (refine still_of_snd (by assumption) ?_; try simp))
theorem execScheduledLaneReturn_still (s : State) : Kept s (execScheduledLaneReturn s) := by
  unfold execScheduledLaneReturn; simp
@[simp] theorem laneAborts_still (s : State) (part : Nat) (group : Nat) (mask : Nat) (room : Tab Nat) : still (laneAborts s part group mask room).2 = still s := by
  unfold laneAborts; refine still_foldl_of Prod.snd _ (fun r x => ?_) _ _; split <;> simp
@[simp] theorem laneFlush_still (s : State) (part : Nat) (group : Nat) (tag : Nat) (mask : Nat) (room : Tab Nat) (a6 : Nat) : still (laneFlush s part group tag mask room a6).2 = still s := by
  induction a6 generalizing room s with
  | zero => rfl
  | succ n ih =>
    unfold laneFlush; (repeat' split) <;> (try rw [ih]) <;> simp
theorem execLaneSlotStart_still (lane : Nat) (s : State) : Kept s (execLaneSlotStart lane s) := by
  unfold execLaneSlotStart; (repeat' (first | split | dsimp only)) <;> (try simp) <;>
    exact (still_foldl_of Prod.snd _ (fun r x => by simp) _ _).trans (by simp)
@[simp] theorem loadPairKeys_still (s : State) : still (loadPairKeys s) = still s := by
  unfold loadPairKeys; simp
@[simp] theorem holdNextKey_still (s : State) (key : BitVec 256) : still (holdNextKey s key) = still s := by
  unfold holdNextKey; simp
@[simp] theorem newDomainKey_still (s : State) (key : BitVec 256) : still (newDomainKey s key) = still s := by
  unfold newDomainKey; simp
@[simp] theorem applyRecord_still (s : State) (r : MembRecord) (key : BitVec 256) : still (applyRecord s r key) = still s := by
  unfold applyRecord
  extract_lets gone bounds adm m t src s1 s2 s3 s4 s5
  have h1 : still s1 = still s := rfl
  have h2 : still s2 = still s := by simp [s2, h1]
  have h3 : still s3 = still s := by simp only [s3]; split <;> simp [h2]
  have h4 : still s4 = still s := by simp [s4, h3]
  have h5 : still s5 = still s := (still_foldl _ (by intro s x; (repeat' split) <;> simp) _ _).trans h4
  simp [h5]
@[simp] theorem afterEpoch_still (s : State) : still (afterEpoch s) = still s := by
  unfold afterEpoch; simp
theorem execEpochUpdate_still (rx : Rx) (record : MembRecord) (s : State) : Kept s (execEpochUpdate rx record s) := by
  unfold execEpochUpdate; simp only []; (repeat' split) <;> (try simp) <;> (repeat (refine still_of_snd (by assumption) ?_; try simp))
@[simp] theorem sendUpdate_still (s : State) (r : MembRecord) : still (sendUpdate s r) = still s := by
  unfold sendUpdate; simp
@[simp] theorem nextUpdate_still (s : State) : still (nextUpdate s) = still s := by
  unfold nextUpdate; simp only []; (repeat' split) <;> simp
theorem execEpochRequest_still (sess : Nat) (record : MembRecord) (s : State) : Kept s (execEpochRequest sess record s) := by
  unfold execEpochRequest; refine request_still _ _ _ _ (fun v s => ?_)
  dsimp only
  (repeat' split) <;> (try simp)
theorem execEpochAck_still (rx : Rx) (s : State) : Kept s (execEpochAck rx s) := by
  unfold execEpochAck; (repeat' split) <;> (try simp) <;> (repeat (refine still_of_snd (by assumption) ?_; try simp))
theorem execEpochAckTimeout_still (s : State) : Kept s (execEpochAckTimeout s) := by
  unfold execEpochAckTimeout; (repeat' split) <;> simp
@[simp] theorem enterDomain_still (s : State) (node : Nat) (r : MembRecord) (key : BitVec 256) : still (enterDomain s node r key) = still s := by
  unfold enterDomain; simp
theorem execDomainForm_still (sess : Nat) (node : Nat) (record : MembRecord) (s : State) : Kept s (execDomainForm sess node record s) := by
  unfold execDomainForm; refine request_still _ _ _ _ (fun v s => ?_)
  dsimp only
  (repeat' split) <;> (try simp)
theorem execDomainJoin_still (sess : Nat) (node : Nat) (record : MembRecord) (key : BitVec 256) (s : State) : Kept s (execDomainJoin sess node record key s) := by
  unfold execDomainJoin; refine request_still _ _ _ _ (fun v s => ?_)
  dsimp only
  (repeat' split) <;> (try simp)

/-! ## Coll -/

@[simp] theorem receiveColl_still (s : State) (rx : Rx) : still (receiveColl s rx) = still s := by
  unfold receiveColl; simp
theorem execReduceData_still (rx : Rx) (s : State) : Kept s (execReduceData rx s) := by
  unfold execReduceData; simp
theorem execBcastData_still (rx : Rx) (s : State) : Kept s (execBcastData rx s) := by
  unfold execBcastData; simp
theorem execCredit_still (rx : Rx) (s : State) : Kept s (execCredit rx s) := by
  unfold execCredit; simp
theorem execHold_still (rx : Rx) (s : State) : Kept s (execHold rx s) := by
  unfold execHold; simp
theorem execAbort_still (rx : Rx) (s : State) : Kept s (execAbort rx s) := by
  unfold execAbort; simp

/-! ## KeyStore -/

theorem execEntropyStartup_still (samples : List Nat) (s : State) : Kept s (execEntropyStartup samples s) := by
  unfold execEntropyStartup; simp
theorem execEntropyTestFailure_still (s : State) : Kept s (execEntropyTestFailure s) := by
  unfold execEntropyTestFailure; simp
theorem execDrbgReseed_still (entropyOk : Bool) (s : State) : Kept s (execDrbgReseed entropyOk s) := by
  unfold execDrbgReseed; simp
theorem execRootSecretGenerate_still (s : State) : Kept s (execRootSecretGenerate s) := by
  unfold execRootSecretGenerate; simp
theorem execSlotRemask_still (s : State) : Kept s (execSlotRemask s) := by
  unfold execSlotRemask; simp
@[simp] theorem freeZeroized_still (s : State) : still (freeZeroized s) = still s := by
  unfold freeZeroized; simp
theorem execSlotZeroize_still (slot : Nat) (s : State) : Kept s (execSlotZeroize slot s) := by
  unfold execSlotZeroize; simp
@[simp] theorem eraseSlot_still (s : State) (slot : Nat) : still (eraseSlot s slot) = still s := by
  unfold eraseSlot; simp
@[simp] theorem revokeWaiting_still (s : State) (key : Nat) : still (revokeWaiting s key) = still s := by
  unfold revokeWaiting; simp
@[simp] theorem revokeBound_still (s : State) (key : Nat) : still (revokeBound s key) = still s := by
  unfold revokeBound; simp
@[simp] theorem loadBounce_still (s : State) (i : Nat) (v : Session) (obs : BitVec 256) : still (loadBounce s i v obs) = still s := by
  unfold loadBounce; (repeat' split) <;> simp
@[simp] theorem loadWrap_still (s : State) (i : Nat) (part : Nat) (ss : BitVec 384) : still (loadWrap s i part ss) = still s := by
  unfold loadWrap; (repeat' split) <;> simp
theorem execKeyImport_still (sess : Nat) (session : Nat) (slot : Nat) (cls : Nat) (key : BitVec 256) (s : State) : Kept s (execKeyImport sess session slot cls key s) := by
  unfold execKeyImport; refine request_still _ _ _ _ (fun v s => ?_)
  dsimp only
  (repeat' split) <;> (try simp)
theorem execSlotErase_still (sess : Nat) (slot : Nat) (immediate : Bool) (s : State) : Kept s (execSlotErase sess slot immediate s) := by
  unfold execSlotErase; refine request_still _ _ _ _ (fun v s => ?_)
  dsimp only
  (repeat' split) <;> (try simp)
@[simp] theorem bindLath_still (s : State) (key : Nat) (part : Nat) (ses : Nat) (role : Nat) (count : Nat) (ss : BitVec 384) : still (bindLath s key part ses role count ss) = still s := by
  unfold bindLath; simp only []; (repeat' split) <;> simp
theorem execKeyCtxBind_still (sess : Nat) (partition : Nat) (session : Nat) (key : Nat) (role : Nat) (s : State) : Kept s (execKeyCtxBind sess partition session key role s) := by
  unfold execKeyCtxBind; refine request_still _ _ _ _ (fun v s => ?_)
  dsimp only
  (repeat' split) <;> (try simp)
theorem execKeyCtxErase_still (sess : Nat) (key : Nat) (immediate : Bool) (s : State) : Kept s (execKeyCtxErase sess key immediate s) := by
  unfold execKeyCtxErase; refine request_still _ _ _ _ (fun v s => ?_)
  dsimp only
  (repeat' split) <;> (try simp)
theorem execKeyRollInstall_still (sess : Nat) (session : Nat) (role : Nat) (count : Nat) (s : State) : Kept s (execKeyRollInstall sess session role count s) := by
  unfold execKeyRollInstall; refine request_still _ _ _ _ (fun v s => ?_)
  dsimp only
  (repeat' split) <;> (try simp)
theorem execKeyRollRetire_still (sess : Nat) (session : Nat) (role : Nat) (s : State) : Kept s (execKeyRollRetire sess session role s) := by
  unfold execKeyRollRetire; refine request_still _ _ _ _ (fun v s => ?_)
  dsimp only
  (repeat' split) <;> (try simp)
theorem execSandStart_still (sess : Nat) (key : Nat) (s : State) : Kept s (execSandStart sess key s) := by
  unfold execSandStart; refine request_still _ _ _ _ (fun v s => ?_)
  dsimp only
  (repeat' split) <;> (try simp)

/-! ## Joint -/

theorem sessionRequest_still (s : State) (sess : Nat) (allow : Spdm → Bool) (f : Spdm → State → State) (hf : ∀ v0 v1, still (f v0 v1) = still v1) : Kept s (sessionRequest s sess allow f) := by
  unfold sessionRequest; refine request_still _ _ _ _ (fun v s => ?_)
  (repeat' split) <;> simp [hf]
theorem execSessionOpen_still (sess : Nat) (manifest : Bytes) (sigsOk : Bool) (partition : Nat) (founder : Bool) (s : State) : Kept s (execSessionOpen sess manifest sigsOk partition founder s) := by
  unfold execSessionOpen; refine request_still _ _ _ _ (fun v s => ?_)
  dsimp only
  (repeat' split) <;> (try simp) <;> (repeat (first | (refine still_of_snd (by assumption) ?_) | (refine still_of_snd2 (by assumption) ?_) | (refine still_of_snd3 (by assumption) ?_) | (refine still_of_fst (by assumption) ?_) | (refine (still_of_some (by assumption) (by first | apply reserveFill_still | apply takeCtr_still | apply measAdd_still)).trans ?_)) <;> (try simp))
theorem execSessionApprove_still (sess : Nat) (session : Nat) (owner : Nat) (kind : Nat) (object : Digest) (sigsOk : Bool) (s : State) : Kept s (execSessionApprove sess session owner kind object sigsOk s) := by
  unfold execSessionApprove; refine request_still _ _ _ _ (fun v s => ?_)
  dsimp only
  (repeat' split) <;> (try simp)
@[simp] theorem takeBounds_still (s : State) (i : Nat) (v : Session) (bounds : List (Nat × Nat)) : still (takeBounds s i v bounds) = still s := by
  unfold takeBounds; simp
@[simp] theorem takeOwners_still (s : State) (i : Nat) (v : Session) (keys : List (Nat × Nat × Nat × BitVec 256)) : still (takeOwners s i v keys) = still s := by
  unfold takeOwners; simp
@[simp] theorem answerJoin_still (s : State) (session : Nat) (v : Session) (node : Nat) : still (answerJoin s session v node) = still s := by
  unfold answerJoin; simp
theorem execSessionJoin_still (sess : Nat) (session : Nat) (report : Report) (s : State) : Kept s (execSessionJoin sess session report s) := by
  unfold execSessionJoin; refine request_still _ _ _ _ (fun v s => ?_)
  dsimp only
  (repeat' split) <;> (try simp)
theorem execSessionEnd_still (sess : Nat) (session : Nat) (s : State) : Kept s (execSessionEnd sess session s) := by
  unfold execSessionEnd; refine request_still _ _ _ _ (fun v s => ?_)
  (repeat' (first | split | dsimp only)) <;> (try simp)
theorem execReleasePrepare_still (sess : Nat) (session : Nat) (rule : Nat) (context : Nat) (addr : Nat) (len : Nat) (key : Nat) (s : State) : Kept s (execReleasePrepare sess session rule context addr len key s) := by
  unfold execReleasePrepare; refine request_still _ _ _ _ (fun v s => ?_)
  dsimp only
  (repeat' split) <;> (try simp)
theorem execReleaseKeyGet_still (sess : Nat) (session : Nat) (ticket : Nat) (s : State) : Kept s (execReleaseKeyGet sess session ticket s) := by
  unfold execReleaseKeyGet; refine request_still _ _ _ _ (fun v s => ?_)
  dsimp only
  (repeat' split) <;> (try simp) <;> (repeat (refine still_of_snd (by assumption) ?_; try simp))
theorem execWindowOpen_still (sess : Nat) (window : Nat) (entry : Bytes) (s : State) : Kept s (execWindowOpen sess window entry s) := by
  unfold execWindowOpen; refine request_still _ _ _ _ (fun v s => ?_)
  dsimp only
  (repeat' split) <;> (try simp)
theorem execWindowClose_still (sess : Nat) (window : Nat) (s : State) : Kept s (execWindowClose sess window s) := by
  unfold execWindowClose; refine request_still _ _ _ _ (fun v s => ?_)
  (repeat' (first | split | dsimp only)) <;> (try simp)
theorem execGroupOpen_still (sess : Nat) (partition : Nat) (operands : Bytes) (s : State) : Kept s (execGroupOpen sess partition operands s) := by
  unfold execGroupOpen; refine request_still _ _ _ _ (fun v s => ?_)
  dsimp only
  (repeat' split) <;> (try simp)
theorem execGroupClose_still (sess : Nat) (partition : Nat) (group : Nat) (s : State) : Kept s (execGroupClose sess partition group s) := by
  unfold execGroupClose; refine request_still _ _ _ _ (fun v s => ?_)
  (repeat' (first | split | dsimp only)) <;> (try simp)
theorem execMeasLogRead_still (sess : Nat) (partition : Nat) (seq : Nat) (s : State) : Kept s (execMeasLogRead sess partition seq s) := by
  unfold execMeasLogRead; refine request_still _ _ _ _ (fun v s => ?_)
  dsimp only
  (try simp)
theorem execSpLogRead_still (sess : Nat) (seq : Nat) (s : State) : Kept s (execSpLogRead sess seq s) := by
  unfold execSpLogRead; refine request_still _ _ _ _ (fun v s => ?_)
  dsimp only
  (try simp)
@[simp] theorem setPairing_still (s : State) (part : Nat) (l : Option Level) : still (setPairing s part l) = still s := by
  unfold setPairing; simp
theorem execLevelPair_still (sess : Nat) (partition : Nat) (peer : Nat) (va : Nat) (len : Nat) (key : Nat) (halt : Bool) (detail : Bool) (s : State) : Kept s (execLevelPair sess partition peer va len key halt detail s) := by
  unfold execLevelPair; refine request_still _ _ _ _ (fun v s => ?_)
  dsimp only
  (repeat' split) <;> (try simp)

/-! ## Ckpt -/

theorem execHealthWindowExpiry_still (monitor : Nat) (s : State) : Kept s (execHealthWindowExpiry monitor s) := by
  unfold execHealthWindowExpiry; simp
@[simp] theorem modCapture_still (s : State) (i : Nat) (f : Capture → Capture) : still (modCapture s i f) = still s := by
  unfold modCapture; (repeat' split) <;> simp
@[simp] theorem commitStep_still (s : State) (b : Bytes) : still (commitStep s b).2.2 = still s := by
  unfold commitStep; split
  · rfl
  · rcases h : vread s (capContext b) (capStepKey b) (capStepVa b + 0x20) 8 with ⟨st, x, u⟩
    exact still_of_snd2 h (by simp)
@[simp] theorem clearDirty_still (s : State) (i : Nat) (grans : List Nat) (tries : Nat) : still (clearDirty s i grans tries) = still s := by
  unfold clearDirty; rw [modCapture_still]; rfl
@[simp] theorem captureBegin_still (s : State) (i : Nat) (v : Session) (c : Capture) (r : Region) : still (captureBegin s i v c r) = still s := by
  unfold captureBegin; split
  · simp
  · rcases h : vread s (capContext c.operands) r.key r.list (48 * r.grans) with ⟨st, x, u⟩
    have k : still u = still s := still_of_snd2 h (by simp)
    dsimp only; (repeat' split) <;> simp [k]
@[simp] theorem captureGranule_still (s : State) (i : Nat) (c : Capture) (r : Region) (g : Nat) (rest : List Nat) : still (captureGranule s i c r g rest) = still s := by
  unfold captureGranule; split
  · simp
  · split
    · rfl
    · split
      · split <;> simp
      · rcases h : vread s (capContext c.operands) r.key (r.va + 65536 * g) 65536 with ⟨st, x, u⟩
        have k : still u = still s := still_of_snd2 h (by simp)
        dsimp only; rw [h]; dsimp only; split <;> simp [k]
@[simp] theorem writeImage_still (s : State) (i : Nat) (b : Bytes) (off : Nat) (data : Bytes) : still (writeImage s i b off data).2 = still s := by
  unfold writeImage; (repeat' split) <;> simp
@[simp] theorem captureWrite_still (s : State) (i : Nat) (c : Capture) : still (captureWrite s i c) = still s := by
  unfold captureWrite
  rcases h : writeImage s i c.operands 0 c.objects with ⟨st, u⟩
  have k : still u = still s := still_of_snd h (by simp)
  split <;> (rename_i e; cases e; simp [k])
@[simp] theorem writeLists_still (s : State) (ctx : Nat) (l : List (Region × Bytes)) : still (writeLists s ctx l).2 = still s := by
  unfold writeLists; exact still_foldl_of Prod.snd _ (fun r x => by split <;> simp) _ _
@[simp] theorem captureClose_still (s : State) (i : Nat) (v : Session) (c : Capture) : still (captureClose s i v c) = still s := by
  unfold captureClose
  rcases h : (if capKind c.operands = 2 then (Status.ok, s) else writeLists s (capContext c.operands) c.lists) with ⟨st, u⟩
  have k : still u = still s := still_of_snd h (by split <;> simp)
  dsimp only; rw [h]; dsimp only; split
  · simp [k]
  · rcases h2 : commitStep u c.operands with ⟨st2, n, u2⟩
    have k2 : still u2 = still s := (still_of_snd2 h2 (by simp)).trans k
    split
    · rename_i e; cases e; split
      · simp [k2]
      · generalize hw : writeImage u2 i c.operands c.objects.length _ = w
        obtain ⟨st3, u3⟩ := w
        have k3 : still u3 = still s := (still_of_snd hw (by simp)).trans k2
        split <;> (rename_i e; cases e; simp [k3])
    · rename_i e; cases e; simp [k2]
@[simp] theorem captureDone_still (s : State) (i : Nat) (c : Capture) (chain : Chain) (len : Nat) (d : Digest) : still (captureDone s i c chain len d) = still s := by
  unfold captureDone; split <;> simp
@[simp] theorem captureStep_still (s : State) (i : Nat) (v : Session) (c : Capture) : still (captureStep s i v c) = still s := by
  unfold captureStep; (repeat' split) <;> simp
@[simp] theorem startCapture_still (s : State) (sess : Nat) (i : Nat) (b : Bytes) : still (startCapture s sess i b) = still s := by
  unfold startCapture
  rcases h : useSlot s (capSlot b) 5 i with ⟨st, u⟩
  have k : still u = still s := still_of_snd h (by simp)
  split
  · rename_i e; cases e
    rcases hd : draw u with ⟨r, u1⟩
    have k1 : still u1 = still s := (still_of_snd hd (by simp)).trans k
    dsimp only
    rcases h2 : commitStep u1 b with ⟨st2, n, u2⟩
    have k2 : still u2 = still s := (still_of_snd2 h2 (by simp)).trans k1
    split
    · rename_i e; cases e; split <;> simp [k2]
    · rename_i e; cases e; simp [k2]
  · rename_i e; cases e; simp [k]
theorem execCkptCapture_still (sess : Nat) (session : Nat) (operands : Bytes) (s : State) : Kept s (execCkptCapture sess session operands s) := by
  unfold execCkptCapture; refine request_still _ _ _ _ (fun v s => ?_)
  (repeat' (first | split | dsimp only)) <;> (try simp)
@[simp] theorem modRestore_still (s : State) (i : Nat) (f : Restore → Restore) : still (modRestore s i f) = still s := by
  unfold modRestore; (repeat' split) <;> simp
@[simp] theorem sourceBytes_still (s : State) (i : Nat) (r : Restore) (off : Nat) (n : Nat) : still (sourceBytes s i r off n).2 = still s := by
  unfold sourceBytes; dsimp only; split
  · rfl
  · split
    · rfl
    · split <;> simp
  · generalize h : vread s r.context r.source.key (r.source.addr + off) n = q
    obtain ⟨st, x, u⟩ := q
    exact still_of_snd2 h (by simp)
@[simp] theorem restoreStart_still (s : State) (i : Nat) (v : Session) (r : Restore) (b : Bytes) : still (restoreStart s i v r b) = still s := by
  unfold restoreStart; split
  · simp
  · split
    · simp
    · rename_i slot _
      rcases h : useSlot s slot 5 i with ⟨st, u⟩
      have k : still u = still s := still_of_snd h (by simp)
      split
      · rename_i e; cases e; split
        · simp [k]
        · split <;> simp [k]
      · rename_i e; cases e; simp [k]
@[simp] theorem restoreList_still (s : State) (i : Nat) (r : Restore) (t : Region) : still (restoreList s i r t) = still s := by
  unfold restoreList
  generalize manifestRegion r.manifest r.region = m
  obtain ⟨g, c, off, d, z⟩ := m
  dsimp only
  generalize h : sourceBytes s i r off _ = q
  obtain ⟨a, u⟩ := q
  have k : still u = still s := still_of_snd h (by simp)
  split
  · rename_i e; cases e; exact k
  · rename_i e; cases e; split
    · simp [k]
    · split
      · simp [k]
      · split
        · simp [k]
        · rename_i w hn
          rw [modRestore_still]
          split at hn
          · exact (measAdd_still _ _ _ _ _ _ _ _ _ _ hn).trans k
          · cases hn; exact k
@[simp] theorem restoreGranule_still (s : State) (i : Nat) (r : Restore) (t : Region) (g : Nat) (rest : List Nat) : still (restoreGranule s i r t g rest) = still s := by
  unfold restoreGranule
  generalize h : sourceBytes s i r r.off 65600 = q
  obtain ⟨a, u⟩ := q
  have k : still u = still s := still_of_snd h (by simp)
  split
  · rename_i e; cases e; exact k
  · rename_i e; cases e; split
    · simp [k]
    · split
      · simp [k]
      · split
        · simp [k]
        · rename_i p _ _
          generalize hw : (if r.verify = true then (Status.ok, u) else vwrite u r.context t.key (t.va + 65536 * g) p ((keyOf u t.key).cls == 1)) = w
          obtain ⟨st3, u3⟩ := w
          have k3 : still u3 = still s := (still_of_snd hw (by split <;> simp)).trans k
          dsimp only; split <;> simp [k3]
@[simp] theorem restoreRegionEnd_still (s : State) (i : Nat) (r : Restore) (t : Region) : still (restoreRegionEnd s i r t) = still s := by
  unfold restoreRegionEnd; simp
@[simp] theorem restoreDone_still (s : State) (i : Nat) (v : Session) (r : Restore) : still (restoreDone s i v r) = still s := by
  unfold restoreDone; simp
@[simp] theorem restoreStep_still (s : State) (i : Nat) (v : Session) (r : Restore) : still (restoreStep s i v r) = still s := by
  unfold restoreStep; split
  · simp
  · split
    · generalize h : sourceBytes s i r r.source.manOff _ = q
      obtain ⟨a, u⟩ := q
      have k : still u = still s := still_of_snd h (by simp)
      split
      · rename_i e; cases e; exact k
      · rename_i e; cases e; split <;> simp [k]
    · (repeat' split) <;> simp
@[simp] theorem startRestore_still (s : State) (sess : Nat) (session : Nat) (v : Session) (verify : Bool) (context : Nat) (targets : Bytes) (source : CkptSource) : still (startRestore s sess session v verify context targets source) = still s := by
  unfold startRestore; simp
theorem execCkptRestore_still (sess : Nat) (session : Nat) (context : Nat) (targets : Bytes) (source : CkptSource) (s : State) : Kept s (execCkptRestore sess session context targets source s) := by
  unfold execCkptRestore; refine request_still _ _ _ _ (fun v s => ?_)
  (repeat' (first | split | dsimp only)) <;> (try simp)
theorem execCkptVerify_still (sess : Nat) (session : Nat) (context : Nat) (targets : Bytes) (source : CkptSource) (s : State) : Kept s (execCkptVerify sess session context targets source s) := by
  unfold execCkptVerify; refine request_still _ _ _ _ (fun v s => ?_)
  (repeat' (first | split | dsimp only)) <;> (try simp)
@[simp] theorem ckptStep_still (s : State) (i : Nat) : still (ckptStep s i) = still s := by
  unfold ckptStep; (repeat' split) <;> simp
@[simp] theorem ckptTick_still (s : State) : still (ckptTick s) = still s := by
  unfold ckptTick; split
  · rfl
  · rw [fwProgress_still, still_foldl _ (fun s i => ckptStep_still s i)]

/-! ## LifeCycle -/

@[simp] theorem testSelectWrite_still (s : State) (on : Bool) : still (testSelectWrite s on) = still s := by
  unfold testSelectWrite; simp
@[simp] theorem hubHaltWrite_still (s : State) (on : Bool) : still (hubHaltWrite s on) = still s := by
  unfold hubHaltWrite; (try simp only []); (repeat' split) <;> (try simp)
@[simp] theorem arrayWrite_still (s : State) (a : Nat) (cipher : Bytes) (tag : Nat) (gen : Nat) (poison : Bool) : still (arrayWrite s a cipher tag gen poison) = still s := by
  unfold arrayWrite; simp
@[simp] theorem freshNonce_still (s : State) (debug : Bool) : still (freshNonce s debug) = still s := by
  unfold freshNonce; simp
@[simp] theorem useNonce_still (s : State) : still (useNonce s) = still s := by
  unfold useNonce; simp
@[simp] theorem spendNonce_still (s : State) (t : AuthToken) : still (spendNonce s t) = still s := by
  unfold spendNonce; (repeat' split) <;> (try simp)
@[simp] theorem answerState_still (s : State) : still (answerState s) = still s := by
  unfold answerState; simp
theorem execLcGet_still (sess : Nat) (s : State) : Kept s (execLcGet sess s) := by
  unfold execLcGet
  split
  · simp
  · exact request_still _ _ _ _ (fun v s => by simp)
theorem execLcNonce_still (sess : Nat) (s : State) : Kept s (execLcNonce sess s) := by
  unfold execLcNonce; refine request_still _ _ _ _ (fun v s => ?_)
  (try simp)
theorem execDebugChallenge_still (sess : Nat) (s : State) : Kept s (execDebugChallenge sess s) := by
  unfold execDebugChallenge; refine request_still _ _ _ _ (fun v s => ?_)
  (try simp)
theorem execNonceLapse_still (s : State) : Kept s (execNonceLapse s) := by
  unfold execNonceLapse; simp
@[simp] theorem closeDebug_still (s : State) : still (closeDebug s) = still s := by
  unfold closeDebug; simp
theorem execDebugUnlock_still (sess : Nat) (token : AuthToken) (s : State) : Kept s (execDebugUnlock sess token s) := by
  unfold execDebugUnlock; refine request_still _ _ _ _ (fun v s => ?_)
  dsimp only
  (repeat' split) <;> (try simp)
theorem execDebugLock_still (sess : Nat) (s : State) : Kept s (execDebugLock sess s) := by
  unfold execDebugLock; refine request_still _ _ _ _ (fun v s => ?_)
  dsimp only
  (repeat' split) <;> (try simp)
theorem execDebugKill_still (sess : Nat) (token : Option AuthToken) (s : State) : Kept s (execDebugKill sess token s) := by
  unfold execDebugKill; refine request_still _ _ _ _ (fun v s => ?_)
  dsimp only
  (repeat' split) <;> (try simp)
theorem execDebugDurationExpiry_still (s : State) : Kept s (execDebugDurationExpiry s) := by
  unfold execDebugDurationExpiry; (repeat' split) <;> simp

/-! ## Spdm -/

theorem spdm_still (s : State) (f : State → State) (hf : ∀ v0, still (f v0) = still v0) : Kept s (spdm s f) := by
  unfold spdm; (repeat' split) <;> simp [hf]
@[simp] theorem spdmError_still (s : State) (code : Nat) : still (spdmError s code) = still s := by
  unfold spdmError; simp
@[simp] theorem withIdentity_still (s : State) (f : State → State) (hf : ∀ v0, still (f v0) = still v0) : still (withIdentity s f) = still s := by
  unfold withIdentity; split <;> simp [hf]
theorem execSpdmGetVersion_still (_sess : Nat) (s : State) : Kept s (execSpdmGetVersion _sess s) := by
  unfold execSpdmGetVersion; refine spdm_still _ _ (fun s => ?_)
  (try simp)
theorem execSpdmGetCapabilities_still (_sess : Nat) (s : State) : Kept s (execSpdmGetCapabilities _sess s) := by
  unfold execSpdmGetCapabilities; refine spdm_still _ _ (fun s => ?_)
  (try simp)
theorem execSpdmNegotiateAlgorithms_still (_sess : Nat) (asym : AsymOffer) (hash : Nat) (dhe : Nat) (aead : AeadOffer) (s : State) : Kept s (execSpdmNegotiateAlgorithms _sess asym hash dhe aead s) := by
  unfold execSpdmNegotiateAlgorithms; refine spdm_still _ _ (fun s => ?_)
  (repeat' (first | split | dsimp only)) <;> (try simp)
theorem execSpdmGetDigests_still (_sess : Nat) (s : State) : Kept s (execSpdmGetDigests _sess s) := by
  unfold execSpdmGetDigests; refine spdm_still _ _ (fun s => ?_)
  (try simp)
theorem execSpdmGetCertificate_still (_sess : Nat) (s : State) : Kept s (execSpdmGetCertificate _sess s) := by
  unfold execSpdmGetCertificate; refine spdm_still _ _ (fun s => ?_)
  (try simp)
theorem execSpdmChallenge_still (_sess : Nat) (s : State) : Kept s (execSpdmChallenge _sess s) := by
  unfold execSpdmChallenge; refine spdm_still _ _ (fun s => ?_)
  (repeat' (first | split | dsimp only)) <;> (try simp)
theorem execSpdmGetMeasurements_still (_sess : Nat) (index : Nat) (s : State) : Kept s (execSpdmGetMeasurements _sess index s) := by
  unfold execSpdmGetMeasurements; refine spdm_still _ _ (fun s => ?_)
  rw [withIdentity_still]
  intro s; (repeat' (first | split | dsimp only)) <;> simp
theorem execSpdmUnsupportedRequest_still (_sess : Nat) (_code : Nat) (s : State) : Kept s (execSpdmUnsupportedRequest _sess _code s) := by
  unfold execSpdmUnsupportedRequest
  split
  · exact request_still _ _ _ _ (fun v s => by simp)
  · exact spdm_still _ _ (fun s => by simp)
theorem execPqOffer_still (sess : Nat) (encapsKey : Bytes) (s : State) : Kept s (execPqOffer sess encapsKey s) := by
  unfold execPqOffer; refine spdm_still _ _ (fun s => ?_)
  (repeat' (first | split | dsimp only)) <;> (try simp) <;> (repeat (refine still_of_snd (by assumption) ?_; try simp))
theorem execSpdmKeyExchange_still (sess : Nat) (requester : Nat) (identity : Digest) (handle : Nat) (offerDigest : Digest) (s : State) : Kept s (execSpdmKeyExchange sess requester identity handle offerDigest s) := by
  unfold execSpdmKeyExchange; refine spdm_still _ _ (fun s => ?_)
  (repeat' (first | split | dsimp only)) <;> (try simp) <;> (repeat (first | (refine still_of_snd (by assumption) ?_) | (refine still_of_snd2 (by assumption) ?_) | (refine still_of_fst (by assumption) ?_)) <;> (try simp))
@[simp] theorem dropSpdm_still (s : State) (sess : Nat) : still (dropSpdm s sess) = still s := by
  unfold dropSpdm; simp
theorem execSpdmFinish_still (sess : Nat) (verifies : Bool) (s : State) : Kept s (execSpdmFinish sess verifies s) := by
  unfold execSpdmFinish; refine spdm_still _ _ (fun s => ?_)
  (repeat' (first | split | dsimp only)) <;> (try simp)
theorem execPqSign_still (sess : Nat) (verifies : Bool) (s : State) : Kept s (execPqSign sess verifies s) := by
  unfold execPqSign; refine spdm_still _ _ (fun s => ?_)
  (repeat' (first | split | dsimp only)) <;> (try simp)
theorem execPqCountersign_still (sess : Nat) (s : State) : Kept s (execPqCountersign sess s) := by
  unfold execPqCountersign; refine request_still _ _ _ _ (fun v s => ?_)
  rw [withIdentity_still]; intro s; simp
theorem execSpdmHeartbeat_still (sess : Nat) (s : State) : Kept s (execSpdmHeartbeat sess s) := by
  unfold execSpdmHeartbeat; refine spdm_still _ _ (fun s => ?_)
  (repeat' (first | split | dsimp only)) <;> (try simp)
theorem execSpdmKeyUpdate_still (sess : Nat) (s : State) : Kept s (execSpdmKeyUpdate sess s) := by
  unfold execSpdmKeyUpdate; refine spdm_still _ _ (fun s => ?_)
  (repeat' (first | split | dsimp only)) <;> (try simp)
theorem execSpdmEndSession_still (sess : Nat) (s : State) : Kept s (execSpdmEndSession sess s) := by
  unfold execSpdmEndSession; refine spdm_still _ _ (fun s => ?_)
  (repeat' (first | split | dsimp only)) <;> (try simp)

/-! ## Registers -/

theorem rcMod_still (s : State) (b : Blk) (pn : Nat) (off : Nat) (f : Nat → Nat → Nat → Nat) : ∀ t, (rcMod s b pn off f) = some t → still t = still s := by
  unfold rcMod; simp only []; (repeat' split) <;> simp
@[simp] theorem readReg_still (s : State) (b : Blk) (pn : Nat) (off : Nat) (racing : Nat) : still (readReg s b pn off racing).2 = still s := by
  unfold readReg; dsimp only
  split
  · rename_i z hz
    have h1 : still z = still s := rcMod_still _ _ _ _ _ _ hz
    split
    · exact h1
    split
    · simpa using h1
    · exact (still_getD (fun t ht => rcMod_still _ _ _ _ _ t ht)).trans (by simpa using h1)
  · (repeat' split) <;> simp
@[simp] theorem msixWrite_still (s : State) (w : Nat) (v : Word) : still (msixWrite s w v) = still s := by
  unfold msixWrite; simp
@[simp] theorem readBar_still (s : State) (addr : Nat) (size : Nat) (racing : Nat) : still (readBar s addr size racing).2 = still s := by
  unfold readBar; (repeat' split) <;> simp
@[simp] theorem debugRead_still (s : State) (a : Nat) (size : Nat) (racing : Nat) : still (debugRead s a size racing).2 = still s := by
  unfold debugRead; (try simp only []); (repeat' split) <;> (try simp)
@[simp] theorem giveRead_still (r : Nat × State) : still (giveRead r) = still r.2 := by
  unfold giveRead; simp
theorem execRcFieldRead_still (addr : Nat) (size : Nat) (racing : Nat) (s : State) : Kept s (execRcFieldRead addr size racing s) := by
  unfold execRcFieldRead; rw [kept_next, giveRead_still]; split <;> simp
theorem execPlumbLoRead_still (s : State) : Kept s (execPlumbLoRead s) := by
  unfold execPlumbLoRead giveRead; rw [kept_next]; exact readBar_still s 0x088 4 0
@[simp] theorem headerWrite_still (s : State) (pn : Nat) (off : Nat) (v : Nat) : still (headerWrite s pn off v) = still s := by
  unfold headerWrite; (repeat' split) <;> simp
@[simp] theorem q0CfgWrite_still (s : State) (v : Nat) : still (q0CfgWrite s v) = still s := by
  unfold q0CfgWrite; simp
@[simp] theorem deviceWrite_still (s : State) (off : Nat) (v : Nat) : still (deviceWrite s off v) = still s := by
  unfold deviceWrite; (repeat' split) <;> simp
@[simp] theorem lpCtrlWrite_still (s : State) (p : Nat) (v : Nat) : still (lpCtrlWrite s p v) = still s := by
  unfold lpCtrlWrite; simp only []; (repeat' split) <;> simp
@[simp] theorem portWrite_still (s : State) (p : Nat) (off : Nat) (v : Nat) : still (portWrite s p off v) = still s := by
  unfold portWrite; (repeat' split) <;> simp
@[simp] theorem evrCfgWrite_still (s : State) (v : Nat) : still (evrCfgWrite s v) = still s := by
  unfold evrCfgWrite; simp
@[simp] theorem evrHeadWrite_still (s : State) (v : Nat) : still (evrHeadWrite s v) = still s := by
  unfold evrHeadWrite; simp
@[simp] theorem wmStickyWrite_still (s : State) (v : Nat) : still (wmStickyWrite s v) = still s := by
  unfold wmStickyWrite; simp
@[simp] theorem eventWrite_still (s : State) (off : Nat) (v : Nat) : still (eventWrite s off v) = still s := by
  unfold eventWrite; simp
@[simp] theorem healthWrite_still (s : State) (off : Nat) (v : Nat) : still (healthWrite s off v) = still s := by
  unfold healthWrite; simp
@[simp] theorem doorbellWrite_still (s : State) (i : Nat) (off : Nat) (v : Nat) : still (doorbellWrite s i off v) = still s := by
  unfold doorbellWrite; simp
@[simp] theorem regWrite_still (s : State) (b : Blk) (pn : Nat) (off : Nat) (v : Nat) : still (regWrite s b pn off v) = still s := by
  unfold regWrite; (repeat' split) <;> simp
@[simp] theorem writeBar_still (s : State) (addr : Nat) (size : Nat) (v : Nat) : still (writeBar s addr size v) = still s := by
  unfold writeBar; (repeat' split) <;> simp
@[simp] theorem debugWrite_still (s : State) (a : Nat) (size : Nat) (v : Nat) : still (debugWrite s a size v) = still s := by
  unfold debugWrite; (try simp only []); (repeat' split) <;> (try simp)
theorem execRegisterWrite_still (addr : Nat) (size : Nat) (value : DWord) (s : State) : Kept s (execRegisterWrite addr size value s) := by
  unfold execRegisterWrite; simp
theorem execEvrCfgWrite_still (value : Word) (s : State) : Kept s (execEvrCfgWrite value s) := by
  unfold execEvrCfgWrite; simp
theorem execEvrHeadWrite_still (value : Word) (s : State) : Kept s (execEvrHeadWrite value s) := by
  unfold execEvrHeadWrite; simp
theorem execWmStickyWrite_still (value : Word) (s : State) : Kept s (execWmStickyWrite value s) := by
  unfold execWmStickyWrite; simp
theorem execEvtStickyWrite_still (page : Nat) (value : Word) (s : State) : Kept s (execEvtStickyWrite page value s) := by
  unfold execEvtStickyWrite; simp
theorem execQ0CfgWrite_still (value : Word) (s : State) : Kept s (execQ0CfgWrite value s) := by
  unfold execQ0CfgWrite; simp
theorem execLpCtrlWrite_still (port : Nat) (value : Word) (s : State) : Kept s (execLpCtrlWrite port value s) := by
  unfold execLpCtrlWrite; simp

/-! ## Mgmt -/

theorem execPlatformManagementRequest_still (sess : Nat) (entry : Bytes) (s : State) : Kept s (execPlatformManagementRequest sess entry s) := by
  unfold execPlatformManagementRequest; simp
theorem pldm_still (s : State) (f : State → State) (hf : ∀ v0, still (f v0) = still v0) : Kept s (pldm s f) := by
  unfold pldm; dsimp only; (repeat' split) <;> simp [hf]
theorem execPldmFwTransfer_still (component : Nat) (image : Digest) (version : Nat) (sigsOk : Bool) (s : State) : Kept s (execPldmFwTransfer component image version sigsOk s) := by
  unfold execPldmFwTransfer; refine pldm_still _ _ (fun s => ?_)
  (repeat' (first | split | dsimp only)) <;> (try simp) <;> (repeat (first | (refine still_of_snd (by assumption) ?_) | (refine still_of_snd2 (by assumption) ?_) | (refine still_of_fst (by assumption) ?_)) <;> (try simp))
theorem execPldmApply_still (component : Nat) (s : State) : Kept s (execPldmApply component s) := by
  unfold execPldmApply; refine pldm_still _ _ (fun s => ?_)
  (repeat' (first | split | dsimp only)) <;> (try simp) <;> (repeat (first | (refine still_of_snd (by assumption) ?_) | (refine still_of_snd2 (by assumption) ?_) | (refine still_of_fst (by assumption) ?_)) <;> (try simp))
theorem execPldmActivateFirmware_still (sess : Nat) (s : State) : Kept s (execPldmActivateFirmware sess s) := by
  unfold execPldmActivateFirmware; refine pldm_still _ _ (fun s => ?_)
  (repeat' (first | split | dsimp only)) <;> (try simp) <;> (repeat (first | (refine still_of_snd (by assumption) ?_) | (refine still_of_snd2 (by assumption) ?_) | (refine still_of_fst (by assumption) ?_)) <;> (try simp))

end Sys2Proof.Machine
end

