-- ==== Sys2Proof/Laws/StillExec.lean ====
section
/-! SUPPORT. Every command leaves module time and the waiting commands alone, and every command but LC_ADVANCE, and but the loss of
all power while the life-cycle word is being programmed, the word to be; what LC_ADVANCE makes of it; what a tick and an idle step
change. -/

namespace Sys2Proof.Machine
open Sys2Proof

/-- Every command but LC_ADVANCE, and but the loss of all power while life-cycle programming is under way. -/
theorem exec_still (c : Instr) (s : State) (h : ∀ sess by', c ≠ .lcAdvance sess by')
    (hp : s.sp.programming = none ∨ ∀ mv, c ≠ .inputLockout mv ∧ c ≠ .inputOvervoltage mv) : Kept s (exec c s) := by
  cases c with
  | bundleIssue core => exact execBundleIssue_still core s
  | waitTokRelease core => exact execWaitTokRelease_still core s
  | waitSigRelease core => exact execWaitSigRelease_still core s
  | waitArrRelease core => exact execWaitArrRelease_still core s
  | crewSyncRelease queue task barrier cluster => exact execCrewSyncRelease_still queue task barrier cluster s
  | endRelease core => exact execEndRelease_still core s
  | taskScrubComplete core => exact execTaskScrubComplete_still core s
  | signalIncrement sender target counter => exact execSignalIncrement_still sender target counter s
  | meshPutLand target => exact execMeshPutLand_still target s
  | dmaOperationStart core queue => exact execDmaOperationStart_still core queue s
  | dmaOperationComplete core token => exact execDmaOperationComplete_still core token s
  | gangStart core => exact execGangStart_still core s
  | gangComplete core => exact execGangComplete_still core s
  | stageStart core => exact execStageStart_still core s
  | stageComplete core => exact execStageComplete_still core s
  | tilePassSwap core => exact execTilePassSwap_still core s
  | tileComplete core => exact execTileComplete_still core s
  | cFillStart core => exact execCFillStart_still core s
  | cFillComplete core => exact execCFillComplete_still core s
  | drainStart core => exact execDrainStart_still core s
  | drainComplete core => exact execDrainComplete_still core s
  | taskStopComplete queue task => exact execTaskStopComplete_still queue task s
  | planLoad queue => exact execPlanLoad_still queue s
  | arbitrationDecision resource => exact execArbitrationDecision_still resource s
  | skimAdmission partition => exact execSkimAdmission_still partition s
  | prologueLoadIssue queue task entry cluster => exact execPrologueLoadIssue_still queue task entry cluster s
  | aheadDispatch queue task cluster => exact execAheadDispatch_still queue task cluster s
  | skimRangeZero cluster base => exact execSkimRangeZero_still cluster base s
  | watchdogExpiry queue task => exact execWatchdogExpiry_still queue task s
  | signalLimitExpiry queue task => exact execSignalLimitExpiry_still queue task s
  | submissionFetch queue entry body busError => exact execSubmissionFetch_still queue entry body busError s
  | commandCompletion queue => exact execCommandCompletion_still queue s
  | sqTailDoorbell queue value => exact execSqTailDoorbell_still queue value s
  | cqHeadDoorbell queue value => exact execCqHeadDoorbell_still queue value s
  | primeBitsSet queue => exact execPrimeBitsSet_still queue s
  | unmapAccessTimeout queue => exact execUnmapAccessTimeout_still queue s
  | clusterRemovalTimeout cluster => exact execClusterRemovalTimeout_still cluster s
  | queueDestroyTimeout queue => exact execQueueDestroyTimeout_still queue s
  | lineRead req first second => exact execLineRead_still req first second s
  | lineWrite req data first second => exact execLineWrite_still req data first second s
  | zeroFillComplete granule => exact execZeroFillComplete_still granule s
  | patrolScrubRead addr raw => exact execPatrolScrubRead_still addr raw s
  | memoryRefresh controller bank delayed => exact execMemoryRefresh_still controller bank delayed s
  | sandingRetry key => exact execSandingRetry_still key s
  | sandingLineStep key controller first second => exact execSandingLineStep_still key controller first second s
  | d2dFrameSend link dir payload => exact execD2dFrameSend_still link dir payload s
  | d2dFrameReceive link dir tagOk => exact execD2dFrameReceive_still link dir tagOk s
  | linkKeyInstall link dir => exact execLinkKeyInstall_still link dir s
  | linkKeyTimeout link dir => exact execLinkKeyTimeout_still link dir s
  | portTrainingComplete port ok => exact execPortTrainingComplete_still port ok s
  | linkFrameReceive port seq fecOk fecFixed crcOk tagOk => exact execLinkFrameReceive_still port seq fecOk fecFixed crcOk tagOk s
  | linkNakReceive port seq => exact execLinkNakReceive_still port seq s
  | linkAckReceive port seq credits => exact execLinkAckReceive_still port seq credits s
  | store rx => exact execStore_still rx s
  | put rx => exact execPut_still rx s
  | load rx => exact execLoad_still rx s
  | get rx => exact execGet_still rx s
  | fetchAdd rx => exact execFetchAdd_still rx s
  | compareSwap rx => exact execCompareSwap_still rx s
  | leaseAcquire rx => exact execLeaseAcquire_still rx s
  | leaseRelease rx => exact execLeaseRelease_still rx s
  | resp rx => exact execResp_still rx s
  | respTimeout node xid => exact execRespTimeout_still node xid s
  | completionRecordExpiry node xid => exact execCompletionRecordExpiry_still node xid s
  | epochHoldTimeout node xid => exact execEpochHoldTimeout_still node xid s
  | plumbSyncTimer => exact execPlumbSyncTimer_still s
  | syncReq rx => exact execSyncReq_still rx s
  | syncResp rx => exact execSyncResp_still rx s
  | plumbLockLoss => exact execPlumbLockLoss_still s
  | ppsInEdge => exact execPpsInEdge_still s
  | ppsOutPulse => exact execPpsOutPulse_still s
  | slotSlip rx => exact execSlotSlip_still rx s
  | scheduledLaneReturn => exact execScheduledLaneReturn_still s
  | epochUpdate rx record => exact execEpochUpdate_still rx record s
  | epochAck rx => exact execEpochAck_still rx s
  | epochAckTimeout => exact execEpochAckTimeout_still s
  | lathKeyRetire key => exact execLathKeyRetire_still key s
  | lathPairWaitTimeout core token => exact execLathPairWaitTimeout_still core token s
  | reduceData rx => exact execReduceData_still rx s
  | bcastData rx => exact execBcastData_still rx s
  | credit rx => exact execCredit_still rx s
  | hold rx => exact execHold_still rx s
  | abort rx => exact execAbort_still rx s
  | holdTimer partition group tag receiver => exact execHoldTimer_still partition group tag receiver s
  | slotLeaseExpiry partition group tag sender => exact execSlotLeaseExpiry_still partition group tag sender s
  | trowelChunkRetire => exact execTrowelChunkRetire_still s
  | healthWindowExpiry monitor => exact execHealthWindowExpiry_still monitor s
  | ckptCapture sess session operands => exact execCkptCapture_still sess session operands s
  | ckptRestore sess session context targets source => exact execCkptRestore_still sess session context targets source s
  | ckptVerify sess session context targets source => exact execCkptVerify_still sess session context targets source s
  | sessionOpen sess manifest sigsOk partition founder => exact execSessionOpen_still sess manifest sigsOk partition founder s
  | sessionApprove sess session owner kind object sigsOk => exact execSessionApprove_still sess session owner kind object sigsOk s
  | sessionJoin sess session report => exact execSessionJoin_still sess session report s
  | sessionEnd sess session => exact execSessionEnd_still sess session s
  | keyImport sess session slot cls key => exact execKeyImport_still sess session slot cls key s
  | keyCtxBind sess partition session key role => exact execKeyCtxBind_still sess partition session key role s
  | keyCtxErase sess key immediate => exact execKeyCtxErase_still sess key immediate s
  | keyRollInstall sess session role count => exact execKeyRollInstall_still sess session role count s
  | keyRollRetire sess session role => exact execKeyRollRetire_still sess session role s
  | sandStart sess key => exact execSandStart_still sess key s
  | windowOpen sess window entry => exact execWindowOpen_still sess window entry s
  | windowClose sess window => exact execWindowClose_still sess window s
  | groupOpen sess partition operands => exact execGroupOpen_still sess partition operands s
  | groupClose sess partition group => exact execGroupClose_still sess partition group s
  | epochRequest sess record => exact execEpochRequest_still sess record s
  | domainForm sess node record => exact execDomainForm_still sess node record s
  | domainJoin sess node record key => exact execDomainJoin_still sess node record key s
  | releasePrepare sess session rule context addr len key => exact execReleasePrepare_still sess session rule context addr len key s
  | releaseKeyGet sess session ticket => exact execReleaseKeyGet_still sess session ticket s
  | slotErase sess slot immediate => exact execSlotErase_still sess slot immediate s
  | slotZeroize slot => exact execSlotZeroize_still slot s
  | slotRemask => exact execSlotRemask_still s
  | measLogRead sess partition seq => exact execMeasLogRead_still sess partition seq s
  | pqOffer sess encapsKey => exact execPqOffer_still sess encapsKey s
  | pqSign sess verifies => exact execPqSign_still sess verifies s
  | pqCountersign sess => exact execPqCountersign_still sess s
  | levelPair sess partition peer va len key halt detail => exact execLevelPair_still sess partition peer va len key halt detail s
  | spLogRead sess seq => exact execSpLogRead_still sess seq s
  | spdmKeyExchange sess requester identity handle offerDigest => exact execSpdmKeyExchange_still sess requester identity handle offerDigest s
  | spdmFinish sess verifies => exact execSpdmFinish_still sess verifies s
  | spdmGetMeasurements sess index => exact execSpdmGetMeasurements_still sess index s
  | spdmUnsupportedRequest sess code => exact execSpdmUnsupportedRequest_still sess code s
  | entropyStartup samples => exact execEntropyStartup_still samples s
  | entropyTestFailure => exact execEntropyTestFailure_still s
  | drbgReseed entropyOk => exact execDrbgReseed_still entropyOk s
  | rootSecretGenerate => exact execRootSecretGenerate_still s
  | lcGet sess => exact execLcGet_still sess s
  | lcNonce sess => exact execLcNonce_still sess s
  | lcAdvance sess token => exact absurd rfl (h sess token)
  | debugChallenge sess => exact execDebugChallenge_still sess s
  | debugUnlock sess token => exact execDebugUnlock_still sess token s
  | debugLock sess => exact execDebugLock_still sess s
  | debugKill sess token => exact execDebugKill_still sess token s
  | nonceLapse => exact execNonceLapse_still s
  | debugDurationExpiry => exact execDebugDurationExpiry_still s
  | levelPeerSilent partition => exact execLevelPeerSilent_still partition s
  | clkgateWrite offset value => exact execClkgateWrite_still offset value s
  | clkgateTakeEffect block => exact execClkgateTakeEffect_still block s
  | domainDrainEnd domain => exact execDomainDrainEnd_still domain s
  | domainWakeComplete domain => exact execDomainWakeComplete_still domain s
  | clusterClockStop cluster => exact execClusterClockStop_still cluster s
  | clusterOffDelay cluster => exact execClusterOffDelay_still cluster s
  | clockLadderStep clock => exact execClockLadderStep_still clock s
  | dvfsDecision cluster n => exact execDvfsDecision_still cluster n s
  | clockLoss source => exact execClockLoss_still source s
  | clockRecovery => exact execClockRecovery_still s
  | fastCurrentOverride => exact execFastCurrentOverride_still s
  | sustainedCurrentStep => exact execSustainedCurrentStep_still s
  | voltageDroop die => exact execVoltageDroop_still die s
  | temperatureThrottleStep => exact execTemperatureThrottleStep_still s
  | temperatureFloor => exact execTemperatureFloor_still s
  | temperatureTrip => exact execTemperatureTrip_still s
  | tripCooldownRelease => exact execTripCooldownRelease_still s
  | throttleOutRelease => exact execThrottleOutRelease_still s
  | brakeAssertedRepeat => exact execBrakeAssertedRepeat_still s
  | brakeInTrigger => exact execBrakeInTrigger_still s
  | brakeRelease => exact execBrakeRelease_still s
  | loanReclaim node => exact execLoanReclaim_still node s
  | evrCfgWrite value => exact execEvrCfgWrite_still value s
  | evrHeadWrite value => exact execEvrHeadWrite_still value s
  | wmStickyWrite value => exact execWmStickyWrite_still value s
  | evtStickyWrite page value => exact execEvtStickyWrite_still page value s
  | rcFieldRead addr size racing => exact execRcFieldRead_still addr size racing s
  | plumbLoRead => exact execPlumbLoRead_still s
  | q0CfgWrite value => exact execQ0CfgWrite_still value s
  | lpCtrlWrite port value => exact execLpCtrlWrite_still port value s
  | registerWrite addr size value => exact execRegisterWrite_still addr size value s
  | inputPowerUp millivolts => exact execInputPowerUp_still millivolts s
  | inputBrownOut millivolts => exact execInputBrownOut_still millivolts s
  | inputLockout millivolts => exact execInputLockout_still millivolts s (hp.resolve_right (fun k => (k millivolts).1 rfl))
  | inputOvervoltage millivolts => exact execInputOvervoltage_still millivolts s (hp.resolve_right (fun k => (k millivolts).2 rfl))
  | perstAssert => exact execPerstAssert_still s
  | perstDeassert slotId => exact execPerstDeassert_still slotId s
  | cableInsert connector => exact execCableInsert_still connector s
  | cableRemove connector => exact execCableRemove_still connector s
  | smbusStuck scl sda => exact execSmbusStuck_still scl sda s
  | smbusResume => exact execSmbusResume_still s
  | smbusAlertResponse => exact execSmbusAlertResponse_still s
  | mctpControlMessage binding eid => exact execMctpControlMessage_still binding eid s
  | pldmFwTransfer component image version sigsOk => exact execPldmFwTransfer_still component image version sigsOk s
  | pldmApply component => exact execPldmApply_still component s
  | pldmActivateFirmware sess => exact execPldmActivateFirmware_still sess s
  | pldmSensorRead sensor => exact execPldmSensorRead_still sensor s
  | pldmFruRead => exact execPldmFruRead_still s
  | sensorRefresh millivolts watts temps inlet outlet => exact execSensorRefresh_still millivolts watts temps inlet outlet s
  | d2dLinkTrainingComplete link ok => exact execD2dLinkTrainingComplete_still link ok s
  | clusterScrubComplete cluster => exact execClusterScrubComplete_still cluster s
  | safetyOverrideEnd loop => exact execSafetyOverrideEnd_still loop s
  | brownOutRecovery millivolts => exact execBrownOutRecovery_still millivolts s
  | overvoltageRecovery millivolts => exact execOvervoltageRecovery_still millivolts s
  | crystalReturn => exact execCrystalReturn_still s
  | laneSlotStart lane => exact execLaneSlotStart_still lane s
  | platformManagementRequest sess entry => exact execPlatformManagementRequest_still sess entry s
  | spdmGetVersion sess => exact execSpdmGetVersion_still sess s
  | spdmGetCapabilities sess => exact execSpdmGetCapabilities_still sess s
  | spdmNegotiateAlgorithms sess asym hash dhe aead => exact execSpdmNegotiateAlgorithms_still sess asym hash dhe aead s
  | spdmGetDigests sess => exact execSpdmGetDigests_still sess s
  | spdmGetCertificate sess => exact execSpdmGetCertificate_still sess s
  | spdmChallenge sess => exact execSpdmChallenge_still sess s
  | spdmHeartbeat sess => exact execSpdmHeartbeat_still sess s
  | spdmKeyUpdate sess => exact execSpdmKeyUpdate_still sess s
  | spdmEndSession sess => exact execSpdmEndSession_still sess s

/-! ## Life-cycle programming -/

@[simp] theorem logIt_programming (s : State) (src code part ctx i0 i1 : Nat) : (logIt s src code part ctx i0 i1).sp.programming = s.sp.programming := by
  simp [logIt, logAdd]
@[simp] theorem loadSlot_programming (s : State) (slot cls : Nat) (key : BitVec 256) (part ses owner expiry limit : Nat) :
    (loadSlot s slot cls key part ses owner expiry limit).sp.programming = s.sp.programming := by
  unfold loadSlot; simp only [setSlot_sp]; split <;> rfl
@[simp] theorem keyPhase_programming (s : State) (l d p : Nat) : (keyPhase s l d p).sp.programming = s.sp.programming := by
  unfold keyPhase setLinkDir; simp [draw]
theorem foldl_programming {α : Type} (f : State → α → State) (h : ∀ s x, (f s x).sp.programming = s.sp.programming) (l : List α) (s : State) :
    (l.foldl f s).sp.programming = s.sp.programming := by
  induction l generalizing s with
  | nil => rfl
  | cons x l ih => rw [List.foldl_cons, ih, h]
@[simp] theorem startLinks_programming (s : State) : (startLinks s).sp.programming = s.sp.programming := by
  unfold startLinks; exact foldl_programming _ (fun s x => by simp) _ _
@[simp] theorem trainPort_programming (s : State) (p : Nat) : (trainPort s p).sp.programming = s.sp.programming := by
  unfold trainPort movePort modPort countLinkExc
  split
  · split
    · rfl
    · dsimp only; rw [levelEvent_sp, pulseEvent_sp]; split <;> rfl
  · rfl
@[simp] theorem powerUp_programming (s : State) : (powerUp s).sp.programming = s.sp.programming := by
  unfold powerUp forAll; dsimp only
  rw [foldl_programming _ (fun s x => by simp)]
  dsimp only
  rw [foldl_programming _ (fun s x => by simp), startLinks_programming, foldl_programming _ (fun s x => by simp)]
@[simp] theorem tryPowerUp_programming (s : State) : (tryPowerUp s).sp.programming = s.sp.programming := by
  unfold tryPowerUp; (repeat' split) <;> simp [halt]
@[simp] theorem markMove_sp (s : State) (w l : Nat) : (markMove s w l).1.sp = s.sp := rfl
@[simp] theorem updateThrottle_sp (s : State) : (updateThrottle s).sp = s.sp := by unfold updateThrottle; dsimp only; (repeat' split) <;> rfl
@[simp] theorem relevel_sp (s : State) : (relevel s).sp = s.sp := by
  unfold relevel; dsimp only; split <;> split <;> simp
@[simp] theorem moduleReset_programming (s : State) : (moduleReset s).sp.programming = s.sp.programming := by
  simp [moduleReset, resetSp]

/-- Programming that has been settled is over. -/
theorem settleProgramming_over (s : State) : (settleProgramming s).sp.programming = none := by
  unfold settleProgramming
  split
  · assumption
  · unfold endProgramming; (repeat' split) <;> simp [halt, destroyRoot]
theorem settleProgramming_lcWord (s : State) : (settleProgramming s).sp.lcWord = lcSettled s.sp := by
  have h : still (settleProgramming s) = still s := by simp
  simp only [still, Prod.mk.injEq] at h
  rw [← h.2.2]; simp [lcSettled, settleProgramming_over]

/-- What a request in order leaves is what it leaves at once, from the state as it is or with no answer given. -/
theorem inOrder_still_cases (s : State) (sess : Nat) (v : Spdm) (f : State → State) :
    still (inOrder s sess v f) = still (f s) ∨ still (inOrder s sess v f) = still (f { s with sp := { s.sp with answer := none } }) := by
  unfold inOrder
  split
  · right; dsimp only; split <;> simp
  · exact .inl rfl

/-- Where the word to be is `w`: what it is after an authorised transition, or as before. -/
def Advanced (s : State) (x : Nat × List Instr × DWord) : Prop :=
  x = still s ∨ ∃ target, transition (lcState (lcSettled s.sp)) target = true ∧ x = (s.ns, s.pending, lcSettled s.sp ||| lcCode target)

theorem advance_still (s u : State) (target : Nat) (b : Bytes) (hs : still u = still s) (hw : u.sp.lcWord = lcSettled s.sp) :
    Advanced s (still (advance u target b)) := by
  unfold advance
  split
  · exact .inl (by simp [hs])
  · rename_i hc
    split
    · exact .inl (by simp [hs])
    · refine .inr ⟨target, ?_, ?_⟩
      · simp only [Bool.or_eq_true, Bool.not_eq_true', not_or, Bool.not_eq_false] at hc; rw [← hw]; exact hc.1
      · simp only [still, Prod.mk.injEq] at hs ⊢
        refine ⟨hs.1, hs.2.1, ?_⟩
        show u.sp.lcWord ||| lcCode target = _
        rw [hw]

/-- LC_ADVANCE begins to program a state that Table 15.3 lets the present one reach, or leaves the word to be as it is; module time and
the waiting commands stay. -/
theorem execLcAdvance_next {sess : Nat} {by' : Advance} {s t : State} (h : execLcAdvance sess by' s = .next t) : Advanced s (still t) := by
  have hk : still (settleProgramming s) = still s := by simp
  have main : ∀ v u, still u = still s → u.sp.lcWord = lcSettled s.sp → Advanced s (still
      (match by' with
        | .token t => if tokenOk u t 1 then advance (spendNonce u t) (le t.bytes 5 1) t.bytes else answerSp (spendNonce u t) .policyDenied [] []
        | .target n =>
          if isPlatform u v && lcState u.sp.lcWord == 3 && (n == 4 || n == 5) then advance u n [] else answerSp u .policyDenied [] [])) := by
    intro v u hs hw
    cases by' with
    | token t =>
      have hn : (spendNonce u t).sp.lcWord = u.sp.lcWord := by unfold spendNonce useNonce; split <;> rfl
      dsimp only
      split
      · exact advance_still s _ _ _ (by simp [hs]) (hn.trans hw)
      · exact .inl (by simp [hs])
    | target n =>
      dsimp only
      split
      · exact advance_still s _ _ _ hs hw
      · exact .inl (by simp [hs])
  unfold execLcAdvance request at h
  split at h
  · injection h with h; exact .inl (by rw [h])
  · dsimp only at h
    split at h
    · injection h with h; exact .inl (by rw [← h]; simp)
    · split at h
      · injection h with h; exact .inl (by rw [← h]; simp)
      · rename_i v _
        injection h with h
        rw [← h]
        have deny : ∀ u, still u = still s → Advanced s (still (answerSp u .policyDenied [] [])) := fun u hs => .inl (by simp [hs])
        have busy : ∀ u, still u = still s → Advanced s (still (answerSp u .busy [] [])) := fun u hs => .inl (by simp [hs])
        rcases inOrder_still_cases (settleProgramming s) sess v _ with e | e <;> rw [e]
        all_goals
          split
          · exact deny _ (by simp)
          · split
            · exact busy _ (by simp)
            · split
              · exact deny _ (by simp)
              · exact main v _ (by simp) (settleProgramming_lcWord s)

@[simp] theorem tick_pending (s : State) : (tick s).pending = s.pending := rfl
@[simp] theorem tick_ns (s : State) : (tick s).ns = s.ns + b2n s.half := rfl

/-- What an idle step does to module time, the waiting commands and the life-cycle word. -/
theorem idle_still (s : State) : still (idle s) = (s.ns + b2n s.half, s.pending, lcSettled s.sp) := by
  have h : still (tick s) = (s.ns + b2n s.half, s.pending, lcSettled s.sp) := rfl
  unfold idle; split <;> simp [h]
@[simp] theorem idle_ns (s : State) : (idle s).ns = s.ns + b2n s.half := congrArg Prod.fst (idle_still s)
@[simp] theorem idle_pending (s : State) : (idle s).pending = s.pending := congrArg (fun x => x.2.1) (idle_still s)
@[simp] theorem idle_lcSettled (s : State) : lcSettled (idle s).sp = lcSettled s.sp := congrArg (fun x => x.2.2) (idle_still s)

end Sys2Proof.Machine
end

