-- ==== Sys2Proof/WellFormed.lean ====
section
/-! DEFINITION. Well-formed commands: every number that names a part of the module lies in the range that the spec gives such
numbers. A meaning is total all the same: a number out of range names no part, and the command has no effect. -/

namespace Sys2Proof

/-- What a number of a command names. -/
inductive OpKind where
  /-- A core number, 16 local cores of 64 clusters (R10). -/
  | core
  /-- A cluster number (Table 19.3). -/
  | cluster
  /-- A task index of a plan (Table 6.1). -/
  | task
  /-- A queue ID (R166); 16,384 names the record of the platform's requests. -/
  | queue
  /-- A DMA queue of a core (Table 4.5). -/
  | dmaQueue
  /-- A crew barrier (Table 4.4). -/
  | barrier
  /-- A crew signal counter (Table 4.4). -/
  | counter
  /-- A DMA token of a core (Table 4.1). -/
  | token
  /-- A prologue entry of a task (Table 6.2). -/
  | prologue
  /-- A partition (Table 7.3). -/
  | partition
  /-- A context; 4,096 names the module itself (Table 7.5). -/
  | context
  /-- A session identifier (Table 7.5). -/
  | session
  /-- A device address (R182). -/
  | address
  /-- A granule of either tier (R205). -/
  | granule
  /-- A memory controller (Table 19.3): 0 to 7, 16 to 23. -/
  | controller
  /-- A inline key index (Table 9.1). -/
  | key
  /-- A key slot (R357). -/
  | slot
  /-- A die-to-die link (R229). -/
  | link
  /-- A direction of a link (R229). -/
  | direction
  /-- A Lath port (R236). -/
  | port
  /-- A frame sequence of a port (R238). -/
  | frameSeq
  /-- A logical node (Table 10.4). -/
  | node
  /-- A transaction ID (Table 10.4). -/
  | xid
  /-- A window (Table 10.4). -/
  | window
  /-- A Grout group (Table 11.2). -/
  | group
  /-- A instance tag (Table 11.2). -/
  | tag
  /-- A position of a group member (R282). -/
  | position
  /-- A virtual channel (Table 10.4). -/
  | vc
  /-- A payload bytes of a packet (Table 10.4). -/
  | payload
  /-- A health monitor (Table 13.1). -/
  | monitor
  /-- A block of the CLKGATE page (Table 17.2). -/
  | block
  /-- A power domain (R416). -/
  | domain
  /-- A clock domain (R413): 64 clusters and one for each die. -/
  | clock
  /-- A die: 0 to 3 CD0 to CD3, 4 HD (Table 19.6). -/
  | die
  /-- A safety loop (Table 17.9). -/
  | loop
  /-- A scheduled lane (R265). -/
  | lane
  /-- A cable connector (R482). -/
  | connector
  /-- A SLOT_ID straps (Table 20.1). -/
  | slotId
  /-- A MCTP endpoint ID. -/
  | eid
  deriving DecidableEq, Repr

/-- The first number that names no such part. -/
def OpKind.bound : OpKind → Nat
  | .core => 1024
  | .cluster => 64
  | .task => 16384
  | .queue => 16385
  | .dmaQueue => 2
  | .barrier => 8
  | .counter => 16
  | .token => 64
  | .prologue => 8
  | .partition => 32
  | .context => 4097
  | .session => 65536
  | .address => 2 ^ 48
  | .granule => 2 ^ 23 + 15728640
  | .controller => 24
  | .key => 256
  | .slot => 256
  | .link => 8
  | .direction => 2
  | .port => 32
  | .frameSeq => 4096
  | .node => 65536
  | .xid => 65536
  | .window => 4096
  | .group => 4096
  | .tag => 65536
  | .position => 65536
  | .vc => 5
  | .payload => 4097
  | .monitor => 11
  | .block => 123
  | .domain => 96
  | .clock => 69
  | .die => 5
  | .loop => 7
  | .lane => 16
  | .connector => 4
  | .slotId => 64
  | .eid => 256

/-- A number of a command, with what it names. -/
structure Operand where
  kind  : OpKind
  value : Nat
  deriving DecidableEq, Repr

/-- The number names a part of the module. -/
def Operand.ok (o : Operand) : Bool := decide (o.value < o.kind.bound)

/-- The numbers of a packet that arrives. -/
def Rx.operands (rx : Rx) : List Operand :=
  [⟨.port, rx.port⟩, ⟨.vc, rx.pkt.vc⟩, ⟨.direction, rx.pkt.dir⟩, ⟨.node, rx.pkt.srcNode⟩, ⟨.node, rx.pkt.dstNode⟩, ⟨.key, rx.pkt.keyIdx⟩,
    ⟨.window, rx.pkt.window⟩, ⟨.payload, rx.pkt.len⟩, ⟨.xid, rx.pkt.xid⟩]
/-- The number of a resource. -/
def Resource.operands : Resource → List Operand
  | .clusters p => [⟨.partition, p⟩]
  | .grout => []
  | .trowel => []
  | .barrier => []
/-- The number of a clock source. -/
def ClockSource.operands : ClockSource → List Operand
  | .refclk => []
  | .crystal => []
  | .mainPll d => [⟨.die, d⟩]
  | .backupPll d => [⟨.die, d⟩]

/-- The numbers of a command. -/
def Instr.operands : Instr → List Operand
  | .bundleIssue core => [⟨.core, core⟩]
  | .waitTokRelease core => [⟨.core, core⟩]
  | .waitSigRelease core => [⟨.core, core⟩]
  | .waitArrRelease core => [⟨.core, core⟩]
  | .crewSyncRelease queue task barrier cluster => [⟨.queue, queue⟩, ⟨.task, task⟩, ⟨.barrier, barrier⟩, ⟨.cluster, cluster⟩]
  | .endRelease core => [⟨.core, core⟩]
  | .taskScrubComplete core => [⟨.core, core⟩]
  | .signalIncrement sender target counter => [⟨.core, sender⟩, ⟨.core, target⟩, ⟨.counter, counter⟩]
  | .meshPutLand target => [⟨.core, target⟩]
  | .dmaOperationStart core queue => [⟨.core, core⟩, ⟨.dmaQueue, queue⟩]
  | .dmaOperationComplete core token => [⟨.core, core⟩, ⟨.token, token⟩]
  | .gangStart core => [⟨.core, core⟩]
  | .gangComplete core => [⟨.core, core⟩]
  | .stageStart core => [⟨.core, core⟩]
  | .stageComplete core => [⟨.core, core⟩]
  | .tilePassSwap core => [⟨.core, core⟩]
  | .tileComplete core => [⟨.core, core⟩]
  | .cFillStart core => [⟨.core, core⟩]
  | .cFillComplete core => [⟨.core, core⟩]
  | .drainStart core => [⟨.core, core⟩]
  | .drainComplete core => [⟨.core, core⟩]
  | .taskStopComplete queue task => [⟨.queue, queue⟩, ⟨.task, task⟩]
  | .planLoad queue => [⟨.queue, queue⟩]
  | .arbitrationDecision resource => resource.operands
  | .skimAdmission partition => [⟨.partition, partition⟩]
  | .prologueLoadIssue queue task entry cluster => [⟨.queue, queue⟩, ⟨.task, task⟩, ⟨.prologue, entry⟩, ⟨.cluster, cluster⟩]
  | .aheadDispatch queue task cluster => [⟨.queue, queue⟩, ⟨.task, task⟩, ⟨.cluster, cluster⟩]
  | .skimRangeZero cluster _ => [⟨.cluster, cluster⟩]
  | .watchdogExpiry queue task => [⟨.queue, queue⟩, ⟨.task, task⟩]
  | .signalLimitExpiry queue task => [⟨.queue, queue⟩, ⟨.task, task⟩]
  | .submissionFetch queue _ _ _ => [⟨.queue, queue⟩]
  | .commandCompletion queue => [⟨.queue, queue⟩]
  | .sqTailDoorbell queue _ => [⟨.queue, queue⟩]
  | .cqHeadDoorbell queue _ => [⟨.queue, queue⟩]
  | .primeBitsSet queue => [⟨.queue, queue⟩]
  | .unmapAccessTimeout queue => [⟨.queue, queue⟩]
  | .clusterRemovalTimeout cluster => [⟨.cluster, cluster⟩]
  | .queueDestroyTimeout queue => [⟨.queue, queue⟩]
  | .lineRead req _ _ => [⟨.address, req.addr⟩, ⟨.key, req.key⟩]
  | .lineWrite req _ _ _ => [⟨.address, req.addr⟩, ⟨.key, req.key⟩]
  | .zeroFillComplete granule => [⟨.granule, granule⟩]
  | .patrolScrubRead _ _ => []
  | .memoryRefresh controller _ _ => [⟨.controller, controller⟩]
  | .sandingRetry key => [⟨.key, key⟩]
  | .sandingLineStep key controller _ _ => [⟨.key, key⟩, ⟨.controller, controller⟩]
  | .d2dFrameSend link dir _ => [⟨.link, link⟩, ⟨.direction, dir⟩]
  | .d2dFrameReceive link dir _ => [⟨.link, link⟩, ⟨.direction, dir⟩]
  | .linkKeyInstall link dir => [⟨.link, link⟩, ⟨.direction, dir⟩]
  | .linkKeyTimeout link dir => [⟨.link, link⟩, ⟨.direction, dir⟩]
  | .portTrainingComplete port _ => [⟨.port, port⟩]
  | .linkFrameReceive port seq _ _ _ _ => [⟨.port, port⟩, ⟨.frameSeq, seq⟩]
  | .linkNakReceive port seq => [⟨.port, port⟩, ⟨.frameSeq, seq⟩]
  | .linkAckReceive port seq _ => [⟨.port, port⟩, ⟨.frameSeq, seq⟩]
  | .store rx => rx.operands
  | .put rx => rx.operands
  | .load rx => rx.operands
  | .get rx => rx.operands
  | .fetchAdd rx => rx.operands
  | .compareSwap rx => rx.operands
  | .leaseAcquire rx => rx.operands
  | .leaseRelease rx => rx.operands
  | .resp rx => rx.operands
  | .respTimeout node xid => [⟨.node, node⟩, ⟨.xid, xid⟩]
  | .completionRecordExpiry node xid => [⟨.node, node⟩, ⟨.xid, xid⟩]
  | .epochHoldTimeout node xid => [⟨.node, node⟩, ⟨.xid, xid⟩]
  | .plumbSyncTimer => []
  | .syncReq rx => rx.operands
  | .syncResp rx => rx.operands
  | .plumbLockLoss => []
  | .ppsInEdge => []
  | .ppsOutPulse => []
  | .slotSlip rx => rx.operands
  | .scheduledLaneReturn => []
  | .epochUpdate rx _ => rx.operands
  | .epochAck rx => rx.operands
  | .epochAckTimeout => []
  | .lathKeyRetire key => [⟨.key, key⟩]
  | .lathPairWaitTimeout core token => [⟨.core, core⟩, ⟨.token, token⟩]
  | .reduceData rx => rx.operands
  | .bcastData rx => rx.operands
  | .credit rx => rx.operands
  | .hold rx => rx.operands
  | .abort rx => rx.operands
  | .holdTimer partition group tag receiver => [⟨.partition, partition⟩, ⟨.group, group⟩, ⟨.tag, tag⟩, ⟨.position, receiver⟩]
  | .slotLeaseExpiry partition group tag sender => [⟨.partition, partition⟩, ⟨.group, group⟩, ⟨.tag, tag⟩, ⟨.position, sender⟩]
  | .trowelChunkRetire => []
  | .healthWindowExpiry monitor => [⟨.monitor, monitor⟩]
  | .ckptCapture _ session _ => [⟨.session, session⟩]
  | .ckptRestore _ session context _ _ => [⟨.session, session⟩, ⟨.context, context⟩]
  | .ckptVerify _ session context _ _ => [⟨.session, session⟩, ⟨.context, context⟩]
  | .sessionOpen _ _ _ partition _ => [⟨.partition, partition⟩]
  | .sessionApprove _ session _ _ _ _ => [⟨.session, session⟩]
  | .sessionJoin _ session _ => [⟨.session, session⟩]
  | .sessionEnd _ session => [⟨.session, session⟩]
  | .keyImport _ session slot _ _ => [⟨.session, session⟩, ⟨.slot, slot⟩]
  | .keyCtxBind _ partition session key _ => [⟨.partition, partition⟩, ⟨.session, session⟩, ⟨.key, key⟩]
  | .keyCtxErase _ key _ => [⟨.key, key⟩]
  | .keyRollInstall _ session _ _ => [⟨.session, session⟩]
  | .keyRollRetire _ session _ => [⟨.session, session⟩]
  | .sandStart _ key => [⟨.key, key⟩]
  | .windowOpen _ window _ => [⟨.window, window⟩]
  | .windowClose _ window => [⟨.window, window⟩]
  | .groupOpen _ partition _ => [⟨.partition, partition⟩]
  | .groupClose _ partition group => [⟨.partition, partition⟩, ⟨.group, group⟩]
  | .epochRequest _ _ => []
  | .domainForm _ node _ => [⟨.node, node⟩]
  | .domainJoin _ node _ _ => [⟨.node, node⟩]
  | .releasePrepare _ session _ context _ _ key => [⟨.session, session⟩, ⟨.context, context⟩, ⟨.key, key⟩]
  | .releaseKeyGet _ session _ => [⟨.session, session⟩]
  | .slotErase _ slot _ => [⟨.slot, slot⟩]
  | .slotZeroize slot => [⟨.slot, slot⟩]
  | .slotRemask => []
  | .measLogRead _ partition _ => [⟨.partition, partition⟩]
  | .pqOffer _ _ => []
  | .pqSign _ _ => []
  | .pqCountersign _ => []
  | .levelPair _ partition _ _ _ key _ _ => [⟨.partition, partition⟩, ⟨.key, key⟩]
  | .spLogRead _ _ => []
  | .spdmKeyExchange _ _ _ _ _ => []
  | .spdmFinish _ _ => []
  | .spdmGetMeasurements _ _ => []
  | .spdmUnsupportedRequest _ _ => []
  | .entropyStartup _ => []
  | .entropyTestFailure => []
  | .drbgReseed _ => []
  | .rootSecretGenerate => []
  | .lcGet _ => []
  | .lcNonce _ => []
  | .lcAdvance _ _ => []
  | .debugChallenge _ => []
  | .debugUnlock _ _ => []
  | .debugLock _ => []
  | .debugKill _ _ => []
  | .nonceLapse => []
  | .debugDurationExpiry => []
  | .levelPeerSilent partition => [⟨.partition, partition⟩]
  | .clkgateWrite _ _ => []
  | .clkgateTakeEffect block => [⟨.block, block⟩]
  | .domainDrainEnd domain => [⟨.domain, domain⟩]
  | .domainWakeComplete domain => [⟨.domain, domain⟩]
  | .clusterClockStop cluster => [⟨.cluster, cluster⟩]
  | .clusterOffDelay cluster => [⟨.cluster, cluster⟩]
  | .clockLadderStep clock => [⟨.clock, clock⟩]
  | .dvfsDecision cluster _ => [⟨.cluster, cluster⟩]
  | .clockLoss source => source.operands
  | .clockRecovery => []
  | .fastCurrentOverride => []
  | .sustainedCurrentStep => []
  | .voltageDroop die => [⟨.die, die⟩]
  | .temperatureThrottleStep => []
  | .temperatureFloor => []
  | .temperatureTrip => []
  | .tripCooldownRelease => []
  | .throttleOutRelease => []
  | .brakeAssertedRepeat => []
  | .brakeInTrigger => []
  | .brakeRelease => []
  | .loanReclaim node => [⟨.node, node⟩]
  | .evrCfgWrite _ => []
  | .evrHeadWrite _ => []
  | .wmStickyWrite _ => []
  | .evtStickyWrite _ _ => []
  | .rcFieldRead _ _ _ => []
  | .plumbLoRead => []
  | .q0CfgWrite _ => []
  | .lpCtrlWrite port _ => [⟨.port, port⟩]
  | .registerWrite _ _ _ => []
  | .inputPowerUp _ => []
  | .inputBrownOut _ => []
  | .inputLockout _ => []
  | .inputOvervoltage _ => []
  | .perstAssert => []
  | .perstDeassert slotId => [⟨.slotId, slotId⟩]
  | .cableInsert connector => [⟨.connector, connector⟩]
  | .cableRemove connector => [⟨.connector, connector⟩]
  | .smbusStuck _ _ => []
  | .smbusResume => []
  | .smbusAlertResponse => []
  | .mctpControlMessage _ eid => [⟨.eid, eid⟩]
  | .pldmFwTransfer _ _ _ _ => []
  | .pldmApply _ => []
  | .pldmActivateFirmware _ => []
  | .pldmSensorRead _ => []
  | .pldmFruRead => []
  | .sensorRefresh _ _ _ _ _ => []
  | .d2dLinkTrainingComplete link _ => [⟨.link, link⟩]
  | .clusterScrubComplete cluster => [⟨.cluster, cluster⟩]
  | .safetyOverrideEnd loop => [⟨.loop, loop⟩]
  | .brownOutRecovery _ => []
  | .overvoltageRecovery _ => []
  | .crystalReturn => []
  | .laneSlotStart lane => [⟨.lane, lane⟩]
  | .platformManagementRequest _ _ => []
  | .spdmGetVersion _ => []
  | .spdmGetCapabilities _ => []
  | .spdmNegotiateAlgorithms _ _ _ _ _ => []
  | .spdmGetDigests _ => []
  | .spdmGetCertificate _ => []
  | .spdmChallenge _ => []
  | .spdmHeartbeat _ => []
  | .spdmKeyUpdate _ => []
  | .spdmEndSession _ => []

/-- Every number of the command names a part of the module. -/
def wellFormed (c : Instr) : Bool := c.operands.all Operand.ok

end Sys2Proof
end

