-- ==== Sys2Proof/Tests/Slice0.lean ====
section
/-! SUPPORT. Tests of the model. First: for each clause of each statement of Certificates/Slice0/Obligations.lean that has hypotheses,
a small state (and operands, at a boundary of their range where they have one) that meets all of them together. Then: numbers of
commands that name no part of the module are refused. Last: worked examples of the spec. -/

namespace Sys2Proof.Tests
open Sys2Proof Sys2Proof.Machine
set_option Elab.async false

/-! ## States to test on -/

/-- A core of number 3 in cluster 0 at cluster cycle 1000. -/
def atCore (c : Core) : State := { cores := [(3, c)], clusters := [(0, { clock := true, cycle := 1000 })] }
/-- A task that runs on core 3 alone. -/
def aTask : Task := { (default : Task) with state := .running, crew := 1, place := [(0, [3])], entered := [0] }
/-- A plan of one task on queue 5. -/
def aPlan (t : Task) : Plan := { (default : Plan) with queue := 5, tasks := [t] }
/-- Core 3 with that task. -/
def atTask (t : Task) (c : Core) : State :=
  { atCore { c with task := some ⟨5, 0⟩ } with
    plans := [(5, aPlan t)] }

/-- Every power domain ON. -/
def allOn : Tab Domain := (List.range 96).map (fun d => (d, { state := .on }))
/-- A module that is ACTIVE and out of reset, with entropy, a root secret, and a served connection 1 of a requester class. -/
def atWork (cls : ReqClass) : State :=
  { pow := { state := .active, perst := false, resetDone := true, domains := allOn }
    sp := { entropyOk := true, drbgReady := true, bankA := BitVec.ofNat 264 (255 * 2 ^ 256)
            spdm := [(1, { cls := cls, finished := true, pqSigned := true })] } }
/-- The first byte of the capacity tier, which the pages of `mapped` map at virtual address 0. -/
def capAt : Nat := 0x010000000000
/-- A granule filled under a key index and generation. -/
def gran (key gen : Nat) : Granule := ⟨key, gen, false, [], 0, 0⟩
/-- The granules of the two page tables of `mapped`. -/
def tableGrans : Tab Granule := [(2048, gran 0 0), (2097152, gran 0 0)]
/-- The module with a context 1 that maps 1 GiB of the capacity tier at address 0 under key index 9, its first granule filled,
and some bytes there. -/
def mapped (bytes : Mem) : State :=
  { atWork .driver with
    contexts := [(1, { live := true, session := 2, ptRoot := 0x1000 })]
    parts := [(0, { live := true, clusters := [0], keyFirst := 1, keyCount := 200 })]
    mem := { ptes := [(0x1000, 0x2001), (0x2000, 0x000901000000001F)], granules := tableGrans ++ [(8388608, gran 9 1)], bytes := bytes }
    sp := { (atWork .driver).sp with
      keyCtxs := [(6, { state := .active, cls := 2, session := 2 }), (7, { state := .active, cls := 2, session := 2 }), (9, { state := .active, gen := 1, session := 2 })] } }

/-! ## Witnesses: cores, engines, tasks -/

theorem test_wit_WaitPoints_1 : let s := atCore { wait := some (.tok true 7 128), committed := true }
    (coreOf s 3).wait = some (.tok (1 = 1) 7 128) ∧ waitHolds s 3 (.tok (1 = 1) 7 128) = true ∧ mayCommit s 3 = true := by decide
theorem test_wit_WaitPoints_1b : let s := atCore { wait := some (.tok false 7 128), committed := true }
    (coreOf s 3).wait = some (.tok (0 = 1) 7 128) ∧ waitHolds s 3 (.tok (0 = 1) 7 128) = true ∧ mayCommit s 3 = true ∧
    firstBad (coreOf s 3) (maskedTokens 7 128) = none := by decide
theorem test_wit_WaitPoints_2 : let s := atCore { wait := some (.tok false 7 128), committed := true, tokens := [(63, .done .pageFault)] }
    (coreOf s 3).wait = some (.tok false 7 128) ∧ waitHolds s 3 (.tok false 7 128) = true ∧ mayCommit s 3 = true ∧
    firstBad (coreOf s 3) (maskedTokens 7 128) = some (63, .pageFault) := by decide
theorem test_wit_WaitPoints_3 : let s := atCore { wait := some (.sig 15 0xFFFFFFFF), committed := true, signals := [(15, 0x7FFFFFFE)] }
    (coreOf s 3).wait = some (.sig 15 0xFFFFFFFF) ∧ waitHolds s 3 (.sig 15 0xFFFFFFFF) = true ∧ mayCommit s 3 = true := by decide
theorem test_wit_WaitPoints_4 : let s := { atTask aTask { wait := some (.arr 1023 1) } with
      clusters := [(0, { partition := some 31 })], fab := { arrivals := [(1023, ⟨31, 1, 1⟩)] } }
    (coreOf s 3).wait = some (.arr 1023 1) ∧ waitHolds s 3 (.arr 1023 1) = true ∧ mayCommit s 3 = true := by decide
theorem test_wit_WaitPoints_5 : let s := atCore { wait := some (.sig 0 1) }
    (coreOf s 3).wait = some (.sig 0 1) ∧ waitHolds s 3 (.sig 0 1) = false := by decide
theorem test_wit_WaitPoints_6 : let t := { aTask with state := .ahead, edges := [{ (default : Edge) with type := 2 }] }
    let s := atTask t { wait := some (.sig 0 0) }
    (coreOf s 3).wait = some (.sig 0 0) ∧ mayCommit s 3 = false := by decide +kernel
theorem test_wit_WaitPoints_7 : heldSealed (atCore { tokens := [(63, .done .pageFault)] }) 3 = [] := by decide +kernel
theorem test_wit_SignalsAndPuts_1 : let g : Signal := { (default : Signal) with sender := 4, target := 3, counter := 15, task := ⟨5, 0⟩, due := 1000 }
    let s := { atTask aTask {} with
      signals := [{ g with due := 2000 }, g] }
    g ∈ s.signals ∧ signalDue s g = true := by decide
theorem test_wit_SignalsAndPuts_2 : let p : MeshPut := ⟨4, 3, 0, 0xBFF00, 1, 1000, 0⟩
    let s := { atCore {} with
      puts := [p] }
    p ∈ s.puts ∧ p.target = 3 ∧ p.land ≤ clusterCycle s 3 := by decide +kernel

/-- Core 3 at a bundle, ready to issue. -/
def atBundle (b : BitVec 128) (c : Core) : State := atTask aTask { c with issuing := true, image := [b], nextIssue := 1000 }
theorem test_wit_BundlesIssue_1 : let s := atBundle 0xD41F {}
    (match issueOf s 3 with
      | some i => canIssue s 3 && i.core.image[i.core.pc]? == some 0xD41F && (bundleCheck s i (slotsOf 0xD41F)).isNone
        && !stalled i (slotsOf 0xD41F) (cycleOf s 3)
      | none => false) = true := by decide +kernel
theorem test_wit_BundlesIssue_2 : let s := atBundle 0 {}
    (match issueOf s 3 with
      | some i => canIssue s 3 && i.core.image[i.core.pc]? == some 0 && i.core.loops.isEmpty
      | none => false) = true := by decide +kernel
/-- Operations that fill the array path: three GANGs. -/
def fullPath : List ArrayOp := List.replicate 3 { (default : ArrayOp) with kind := 4, issue := 1 }
theorem test_wit_BundlesIssue_3 : let b : BitVec 128 := BitVec.ofNat 128 (512 * 2 ^ 62)
    let s := atBundle b { arrayPath := fullPath }
    (match issueOf s 3 with
      | some i => canIssue s 3 && i.core.image[i.core.pc]? == some b && stalled i (slotsOf b) (cycleOf s 3)
      | none => false) = true := by decide +kernel
theorem test_wit_FailedBundles_1 : let s := atBundle 0xA8000 {}
    (match issueOf s 3 with
      | some i => canIssue s 3 && i.core.image[i.core.pc]? == some 0xA8000 && bundleCheck s i (slotsOf 0xA8000) == some .descInvalid
        && !stalled i (slotsOf 0xA8000) (cycleOf s 3)
      | none => false) = true := by decide +kernel
theorem test_wit_FailedBundles_2 : let s := atBundle 0 { pc := 1 }
    (match issueOf s 3 with
      | some i => canIssue s 3 && decide (i.core.image.length ≤ i.core.pc)
      | none => false) = true := by decide +kernel
theorem test_wit_CrewSync_1 : let s := atTask aTask { wait := some (.sync 7), arrived := 996, synced := [(7, 1)] }
    taskOf s ⟨5, 0⟩ = some aTask ∧ (syncReady s ⟨5, 0⟩ aTask 7 0).Nodup ∧ aTask.clusterCount = 1 ∧ 3 ∈ syncReady s ⟨5, 0⟩ aTask 7 0 ∧
    (∀ c ∈ syncReady s ⟨5, 0⟩ aTask 7 0, heldSealed s c = []) := by decide +kernel
theorem test_wit_CrewSync_2 : let t := { aTask with crew := 18, place := [(0, List.range 16), (1, List.range 16)], entered := [0, 1] }
    let s := { atTask t { wait := some (.sync 7), arrived := 996, synced := [(7, 1)] } with
      cores := (List.range 32).map (fun c => (c, { task := some ⟨5, 0⟩, wait := some (.sync 7), arrived := 900, synced := [(7, 1)] })) }
    taskOf s ⟨5, 0⟩ = some t ∧ (syncReady s ⟨5, 0⟩ t 7 0).Nodup ∧ t.clusterCount ≠ 1 ∧ 3 ∈ syncReady s ⟨5, 0⟩ t 7 0 := by decide +kernel
theorem test_wit_Ends_1 : let s := atTask aTask { wait := some .fin }
    (coreOf s 3).wait = some .fin ∧ (coreOf s 3).task = some ⟨5, 0⟩ ∧ waitHolds s 3 .fin = true ∧ mayCommit s 3 = true ∧
    taskOf (releaseWait s 3 1001) ⟨5, 0⟩ = some aTask ∧ crewDone (releaseWait s 3 1001) aTask = true := by decide +kernel
theorem test_wit_Ends_1b : let t := { aTask with crew := 2, place := [(0, [3, 4])] }
    let s := atTask t { wait := some .fin }
    (coreOf s 3).wait = some .fin ∧ (coreOf s 3).task = some ⟨5, 0⟩ ∧ waitHolds s 3 .fin = true ∧ mayCommit s 3 = true ∧
    taskOf (releaseWait s 3 1001) ⟨5, 0⟩ = some t ∧ crewDone (releaseWait s 3 1001) t = false := by decide +kernel
theorem test_wit_Ends_2 : let s := atCore { scrub := some 744 }
    (coreOf s 3).scrub = some 744 ∧ 744 + 256 ≤ clusterCycle s 3 := by decide

/-- A GANG, STAGE or TILE of one output element. -/
def anOp (kind : Nat) : ArrayOp := { (default : ArrayOp) with kind := kind, fill := 2, tile := { (default : TileRec) with m := 1, n := 1, k := 1 } }
theorem test_wit_Gang_1 : let s := atCore { arrayPath := [anOp 4] }
    (coreNow s 3).arrayPath = [anOp 4] ∧ (anOp 4).kind = 4 ∧ (anOp 4).phase = .queued ∧ (coreNow s 3).drainPath.all (fun d => (anOp 4).issue < d.issue) = true ∧
    coreStopped s 3 = false := by decide +kernel
theorem test_wit_Gang_2 : let o := { anOp 4 with phase := .running, start := 984 }
    let s := atCore { arrayPath := [o] }
    (coreNow s 3).arrayPath = [o] ∧ o.kind = 4 ∧ o.phase = .running ∧ o.start + 16 ≤ cycleOf s 3 ∧ coreStopped s 3 = false := by
  decide +kernel
theorem test_wit_Gang_3 : coreStopped (atTask { aTask with stop := some (.aborted, 0) } {}) 3 = true := by decide +kernel
theorem test_wit_Stage_1 : let s := atCore { arrayPath := [anOp 2] }
    stageHead (coreNow s 3) = some (0, anOp 2) ∧ (anOp 2).phase = .queued ∧ coreStopped s 3 = false := by decide +kernel
theorem test_wit_Stage_3 : let o := { anOp 2 with phase := .running, start := 872 }
    let c : Core := { arrayPath := [o] }
    loadJob c = some (o, 0, 872) ∧ c.loaded = false ∧ 872 + 128 ≤ 1000 := by decide +kernel
theorem test_wit_Stage_4 : let o := { anOp 2 with phase := .running, start := 872 }
    stageHead { arrayPath := [o] } = some (0, o) ∧ o.phase = .running := by decide +kernel
theorem test_wit_Stage_2 : let o := { anOp 2 with phase := .running, start := 872 }
    let s := atCore { arrayPath := [o] }
    stageHead (coreNow s 3) = some (0, o) ∧ o.phase = .running ∧ o.start + 128 ≤ cycleOf s 3 ∧ coreStopped s 3 = false := by
  decide +kernel
theorem test_wit_Tile_1 : let o := { anOp 1 with issue := 872 }
    let s := atCore { arrayPath := [o] }
    arrayHead (coreNow s 3) (cycleOf s 3) = some (0, o) ∧ o.kind = 1 ∧ o.pass < passes (coreNow s 3).gang o.tile ∧
    swapReady (coreNow s 3) (cycleOf s 3) o = true ∧ coreStopped s 3 = false := by decide +kernel
theorem test_wit_Tile_3 : let o := { anOp 1 with pass := 1, start := 1000 - (anOp 1).stream }
    let c : Core := { arrayPath := [o], active := some default }
    streaming c = some (0, o) ∧ c.active = some default ∧ o.start + o.stream ≤ 1000 := by decide +kernel
theorem test_wit_Tile_2 : let o := { anOp 1 with pass := 1, summed := 1, start := 1000 - 128 - (anOp 1).stream }
    let s := atCore { arrayPath := [o] }
    (coreNow s 3).arrayPath = [o] ∧ lastSwapped (coreNow s 3).gang o = true ∧
    o.start + o.stream + (gangShape (coreNow s 3).gang).2.2 ≤ cycleOf s 3 ∧ coreStopped s 3 = false := by decide +kernel
/-- A drain or a C fill of one output element. -/
def aDrain (fill running : Bool) (start : Nat) : DrainOp :=
  { (default : DrainOp) with isFill := fill, running := running, start := start, tile := (anOp 1).tile }
theorem test_wit_Drain_1 : let s := atCore { arrayPath := [anOp 1], drainPath := [aDrain true false 0] }
    (coreNow s 3).drainPath = [aDrain true false 0] ∧ fillTile (coreNow s 3) (aDrain true false 0) = some (0, anOp 1) ∧
    (aDrain true false 0).isFill = true ∧ (aDrain true false 0).running = false ∧ drainFreeOf (coreNow s 3) (aDrain true false 0) = true ∧
    coreStopped s 3 = false := by decide +kernel
theorem test_wit_Drain_2 : let d := aDrain true true 995
    let s := atCore { drainPath := [d] }
    (coreNow s 3).drainPath = [d] ∧ d.isFill = true ∧ d.running = true ∧ d.start + drainTime d.tile ≤ cycleOf s 3 ∧
    coreStopped s 3 = false := by decide +kernel
theorem test_wit_Drain_3 : let s := atCore { drainPath := [aDrain false false 0] }
    (coreNow s 3).drainPath = [aDrain false false 0] ∧ (aDrain false false 0).isFill = false ∧ (aDrain false false 0).running = false ∧ drainFreeOf (coreNow s 3) (aDrain false false 0) = true ∧
    coreStopped s 3 = false := by decide +kernel
theorem test_wit_Drain_4 : let d := aDrain false true 995
    let s := atCore { drainPath := [d] }
    (coreNow s 3).drainPath = [d] ∧ d.isFill = false ∧ d.running = true ∧ d.start + drainTime d.tile ≤ cycleOf s 3 ∧
    coreStopped s 3 = false := by decide +kernel

/-- A DMA operation on a token. -/
def aDma (op token : Nat) (started : Bool) : DmaOp := { (default : DmaOp) with op := op, token := token, started := started }
theorem test_wit_Dma_1 : let s := atTask aTask { dma := [aDma 2 27 false] }
    (coreOf s 3).task = some ⟨5, 0⟩ ∧ nextStart (coreOf s 3) 0 = some (aDma 2 27 false) ∧ planOf s 5 = some (aPlan aTask) ∧
    taskOf s ⟨5, 0⟩ = some aTask ∧ aTask.stop = none ∧ fenceOpen (coreOf s 3) (aDma 2 27 false) = true ∧ s.pow.dustSheet = false ∧
    copyReady s ⟨5, 0⟩ aTask 3 (aDma 2 27 false) = true ∧ (aDma 2 27 false).op ≤ 2 ∧ onChannel aTask 3 (aDma 2 27 false) = false := by decide +kernel
/-- A COPY between two places of memory. -/
def memCopy : DmaOp := { aDma 1 27 false with src := { (default : Desc) with space := 1 }, dst := { (default : Desc) with space := 1 } }
theorem test_wit_Dma_1b : let s := atTask aTask { dma := [memCopy] }
    (coreOf s 3).task = some ⟨5, 0⟩ ∧ nextStart (coreOf s 3) 0 = some memCopy ∧ planOf s 5 = some (aPlan aTask) ∧ taskOf s ⟨5, 0⟩ = some aTask ∧
    aTask.stop = none ∧ fenceOpen (coreOf s 3) memCopy = true ∧ s.pow.dustSheet = false ∧ copyReady s ⟨5, 0⟩ aTask 3 memCopy = true ∧
    memCopy.op ≤ 2 ∧ onChannel aTask 3 memCopy = true ∧ freeChan s (clusterNo 3) 0 6 = some 0 ∧ firstForChannel s 3 memCopy = true := by
  decide +kernel
theorem test_wit_Dma_1c : let s := { atTask aTask { dma := [memCopy] } with
      clusters := [(0, { clock := true, cycle := 1000, channels := (List.range 6).map (fun n => (n, .dma 4 n)) })]
      cores := [(3, { task := some ⟨5, 0⟩, dma := [memCopy] }), (4, { dma := (List.range 6).map (fun n => { aDma 1 n true with seq := n }) })] }
    (coreOf s 3).task = some ⟨5, 0⟩ ∧ nextStart (coreOf s 3) 0 = some memCopy ∧ planOf s 5 = some (aPlan aTask) ∧ taskOf s ⟨5, 0⟩ = some aTask ∧
    aTask.stop = none ∧ fenceOpen (coreOf s 3) memCopy = true ∧ s.pow.dustSheet = false ∧ copyReady s ⟨5, 0⟩ aTask 3 memCopy = true ∧
    memCopy.op ≤ 2 ∧ onChannel aTask 3 memCopy = true ∧ freeChan s (clusterNo 3) 0 6 = none := by decide +kernel
theorem test_wit_Dma_2 : let s := atTask aTask { dma := [aDma 3 28 false] }
    (coreOf s 3).task = some ⟨5, 0⟩ ∧ planOf s 5 = some (aPlan aTask) ∧ taskOf s ⟨5, 0⟩ = some aTask ∧ aTask.stop = none ∧
    s.pow.dustSheet = false ∧ nextStart (coreOf s 3) 1 = some (aDma 3 28 false) ∧ fenceOpen (coreOf s 3) (aDma 3 28 false) = true ∧
    copyReady s ⟨5, 0⟩ aTask 3 (aDma 3 28 false) = true ∧ 3 ≤ (aDma 3 28 false).op ∧ (aDma 3 28 false).op = 3 ∧
    maySend s ((pairActive s (aDma 3 28 false).key).getD (aDma 3 28 false).key) = true := by decide +kernel
theorem test_wit_Dma_3 : let s := atTask aTask { dma := [aDma 2 55 true] }
    (coreOf s 3).task = some ⟨5, 0⟩ ∧ opOfToken (coreOf s 3) 55 = some (aDma 2 55 true) ∧ planOf s 5 = some (aPlan aTask) ∧
    taskOf s ⟨5, 0⟩ = some aTask ∧ (aDma 2 55 true).started = true ∧ (aDma 2 55 true).op ≤ 2 ∧ aTask.stop = none ∧
    s.pow.dustSheet = false ∧ dieWaits s (3 / 256) = false := by decide +kernel
theorem test_wit_Dma_5 : let s := { atTask aTask { dma := [{ aDma 3 55 false with key := 9 }] } with
      ns := 1000000000, sp := { keyCtxs := [(9, { rMax := some 4, roll := 4 })] } }
    opOfToken (coreOf s 3) 55 = some { aDma 3 55 false with key := 9 } ∧ maySend s ((pairActive s 9).getD 9) = false ∧
    (aDma 3 55 false).started = false ∧ (aDma 3 55 false).issuedNs + 1000000000 ≤ s.ns := by decide +kernel

theorem test_wit_TaskLimits_1 : let t := { aTask with stop := some (.aborted, 0) }
    let s := atTask t { stopped := some 744 }
    taskOf s ⟨5, 0⟩ = some t ∧ t.stop = some (.aborted, 0) ∧ stopScrubbed s ⟨5, 0⟩ t = true := by decide +kernel
theorem test_wit_TaskLimits_2 : let s := { atTask { aTask with runSince := 1 } {} with
      ns := 1001, plans := [(5, { aPlan { aTask with runSince := 1 } with watchdog := 1 })] }
    planOf s 5 = some { aPlan { aTask with runSince := 1 } with watchdog := 1 } ∧ taskOf s ⟨5, 0⟩ = some { aTask with runSince := 1 } ∧
    aTask.state = .running ∧ aTask.stop = none ∧ 1 ≠ 0 ∧ s.pow.dustSheet = false ∧ 1 + 1 * 1000 ≤ s.ns := by decide +kernel
theorem test_wit_TaskLimits_3b : let t := { (default : Task) with resolved := some 1, edges := [{ (default : Edge) with type := 2 }] }
    let s : State := { ns := 1000001, plans := [(5, { aPlan t with sigLimit := 1 })] }
    planOf s 5 = some { aPlan t with sigLimit := 1 } ∧ taskOf s ⟨5, 0⟩ = some t ∧ t.state = .blocked ∧ t.stop = none ∧ t.notTaken = false ∧
    t.edges.any (fun e => e.type == 2 && e.resolved.isNone) = true ∧ t.resolved = some 1 ∧ s.pow.dustSheet = false ∧ 1 + 1 * 1000000 ≤ s.ns := by
  decide +kernel
theorem test_wit_TaskLimits_3 : let t := { aTask with state := .ahead, resolved := some 1, edges := [{ (default : Edge) with type := 2 }] }
    let s := { atTask t {} with
      ns := 1000001, plans := [(5, { aPlan t with sigLimit := 1 })] }
    planOf s 5 = some { aPlan t with sigLimit := 1 } ∧ taskOf s ⟨5, 0⟩ = some t ∧ t.state = .ahead ∧ t.stop = none ∧ t.notTaken = false ∧
    t.edges.any (fun e => e.type == 2 && e.resolved.isNone) = true ∧ t.resolved = some 1 ∧ s.pow.dustSheet = false ∧ 1 + 1 * 1000000 ≤ s.ns := by decide +kernel
/-- Two queues whose plans wait for the Trowel. -/
def twoWait : State :=
  let t : Task := { (default : Task) with kind := 2, state := .ready }
  { plans := [(5, aPlan t), (16383, { aPlan t with queue := 16383 })], queues := [(16383, { ages := [(33, 16)] })], pow := { domains := allOn } }
theorem test_wit_Arbitration_1 : twoWait.pow.dustSheet = false ∧ (match candidates twoWait .trowel with
    | w :: rest => w.queue == 16383 && rest.all (fun c => c.queue != w.queue) && rest.map (·.queue) == [5]
    | [] => false) = true := by decide +kernel
/-! ## Witnesses: plans, clusters, queues -/

/-- The bytes of a plan of one Trowel task at virtual address 0. -/
def planBytes (magic : Byte) : Mem :=
  [(capAt, magic), (capAt + 1, 0x4C), (capAt + 2, 0x50), (capAt + 3, 0x5A), (capAt + 4, 1), (capAt + 8, 1), (capAt + 28, 64), (capAt + 40, 128),
    (capAt + 64, 2)]
/-- A queue 5 that waits for that plan. -/
def planWaits (magic : Byte) : State :=
  { mapped (planBytes magic) with
    queues := [(5, { valid := true, context := 1, planWait := some (0, 9) })] }
/-- What the reads of queue 5's plan find: the status, whether the partition stays, whether the records keep the rules, and the
status of the write of the status words. -/
def planFound (s : State) : Status × Bool × Bool × Status :=
  let s0 := modQueue s 5 (fun v => { v with planWait := none })
  let r := readPlan s0 1 0 9
  let h := r.2.1
  let tasks := recordsOf r.2.2.1 64 h.tasks
  let edges := recordsOf r.2.2.2.1 16 h.edges
  let pros := recordsOf r.2.2.2.2.1 192 h.pros
  let built := tasks.map (fun b => buildTask b (edges.map decodeEdge) (pros.map decodePro))
  let w := vwrite r.2.2.2.2.2 1 9 (0 + h.statOff) (List.replicate h.tasks (leBytes 4 0x0600)).flatten false
  let good := tasks.all taskOk && edges.all edgeOk && pros.all (fun b => proOk b ((partOf s (ctxOf s 1).partition).skimUnits * 262144))
    && rangesOk tasks h.edges h.pros && (List.range built.length).all (fun i => (built[i]?).all (ownedOk i))
  (r.1, partOf r.2.2.2.2.2 (ctxOf s 1).partition == partOf s (ctxOf s 1).partition, good, w.1)
theorem test_wit_Plans_1 : let s := planWaits 0x31
    (queueOf s 5).planWait = some (0, 9) ∧ (queueOf s 5).context = 1 ∧ planOf s 5 = none ∧ dieWaits s hubDie = false ∧ s.pow.dustSheet = false ∧
    planFound s = (.ok, true, true, .ok) := by decide +kernel
theorem test_wit_Plans_2 : let s := planWaits 0x30
    (queueOf s 5).planWait = some (0, 9) ∧ planOf s 5 = none ∧ dieWaits s hubDie = false ∧ s.pow.dustSheet = false ∧ (planFound s).1 ≠ .ok := by decide +kernel
theorem test_wit_Plans_3 : let s := { planWaits 0x31 with
      mem := { (planWaits 0x31).mem with bytes := planBytes 0x31 ++ [(capAt + 65, 0xFF)] } }
    (queueOf s 5).planWait = some (0, 9) ∧ planOf s 5 = none ∧ dieWaits s hubDie = false ∧ s.pow.dustSheet = false ∧ planFound s = (.ok, true, false, .ok) := by
  decide +kernel
theorem test_wit_Plans_4 : let s := { planWaits 0x31 with
      mem := { (planWaits 0x31).mem with lines := [(capAt + 128, ⟨9, 1, true, [], 0⟩)] } }
    (queueOf s 5).planWait = some (0, 9) ∧ planOf s 5 = none ∧ dieWaits s hubDie = false ∧ s.pow.dustSheet = false ∧ planFound s = (.ok, true, true, .tagMismatch) := by
  decide +kernel
theorem test_wit_Plans_6 : let s := { planWaits 0x31 with
      pow := { (planWaits 0x31).pow with dustSheet := true } }
    (queueOf s 5).planWait = some (0, 9) ∧ planOf s 5 = none ∧ s.pow.dustSheet = true := by decide +kernel
theorem test_wit_Plans_5 : let s := { planWaits 0x31 with
      fab := { d2d := [(3, { state := .training })] } }
    (queueOf s 5).planWait = some (0, 9) ∧ planOf s 5 = none ∧ dieWaits s hubDie = true := by decide +kernel

/-- A task that may run ahead, on queue 5 of partition 0 with cluster 0. -/
def maySkim (t : Task) (skim : List (Nat × Nat × TaskRef × Bool)) : State :=
  { plans := [(5, aPlan t)], clusters := [(0, { clock := true, skim := skim, reserved := some ⟨5, 0⟩ })]
    contexts := [(0, { tensors := 1, table := [(0, default)] })]
    parts := [(0, { live := true, clusters := [0] })], pow := { domains := allOn } }
theorem test_wit_Skim_1 : let t : Task := { (default : Task) with skim := true, crew := 1, edges := [{ (default : Edge) with type := 2 }] }
    let s := maySkim t []
    s.pow.dustSheet = false ∧ ((allTasks s).filter (fun t => t.2.state == .ahead)).length = 0 ∧ levelFull s 0 = false ∧ nextAhead s 0 = some ⟨5, 0⟩ ∧
    taskOf s ⟨5, 0⟩ = some t := by decide +kernel
theorem test_wit_Skim_2 : let e : Prologue := { (default : Prologue) with source := { (default : Desc) with space := 2 } }
    let t : Task := { (default : Task) with state := .ahead, place := [(0, [])], admitted := true, pros := List.replicate 8 e }
    let s := maySkim t []
    s.pow.dustSheet = false ∧ planOf s 5 = some (aPlan t) ∧ taskOf s ⟨5, 0⟩ = some t ∧ t.pros[7]? = some e ∧ t.final = false ∧ t.stop = none ∧
    t.place.any (fun x => x.1 == 0) = true ∧ (t.admitted = true ∨ t.entered.contains 0 = true) ∧ (loadTargets t 7).contains 0 = true ∧ t.loads.any (fun l => l.1 == 7 && l.2.1 == 0) = false ∧
    awake s 0 = true ∧ (clusterOf s 0).skim.any (fun _ => true) = false ∧
    descRow2 (loadSource e (t.rankOf 0)) (ctxOf s 0).tensors (tensorAt s 0 (loadSource e (t.rankOf 0))) = true := by decide +kernel
theorem test_wit_Skim_3 : let s := maySkim { aTask with state := .ahead } []
    planOf s 5 = some (aPlan { aTask with state := .ahead }) ∧ Task.final { aTask with state := .ahead } = false ∧ s.pow.dustSheet = false ∧
    taskOf s ⟨5, 0⟩ = some { aTask with state := .ahead } ∧ (clusterOf s 0).reserved = some ⟨5, 0⟩ ∧ (aPlan aTask).halted = none ∧
    (clusterOf s 0).removing = none ∧ levelFull s 0 = false := by decide +kernel
theorem test_wit_Skim_4 : (clusterOf (maySkim aTask [(0x7C0000, 0x800000, ⟨5, 0⟩, true)]) 0).skim = [(0x7C0000, 0x800000, ⟨5, 0⟩, true)] := by
  decide +kernel
theorem test_wit_Removed_1 : let s : State := { ns := 2000001, clusters := [(63, { removing := some 1 })] }
    (clusterOf s 63).removing = some 1 ∧ 1 + 2000000 ≤ s.ns := by decide
theorem test_wit_Removed_2 : let s : State := { clusters := [(63, { removing := some 1, scrub := some 2 })] }
    (clusterOf s 63).scrub = some 2 ∧ (clusterOf s 63).removing.isSome = true := by decide
theorem test_wit_Removed_3 : let s : State := { clusters := [(0, { scrub := some 2 })] }
    (clusterOf s 0).scrub = some 2 ∧ (clusterOf s 0).removing = none := by decide

/-- The module with one queue. -/
def withQueue (n : Nat) (q : Queue) : State :=
  { atWork .driver with
    queues := [(n, q)] }
theorem test_wit_Doorbells_1 : let s := withQueue 16383 { valid := true, sqLog2 := 16 }
    hubServes s 16383 = true ∧ (queueOf s 16383).valid = true ∧ 65535 < 2 ^ (queueOf s 16383).sqLog2 ∧ doorbellDead s 16383 = false ∧
    (loadQueue s 16383).1 = true := by decide +kernel
theorem test_wit_Doorbells_2 : let s := withQueue 0 { valid := true, cqTail := 1, cqHead := 15 }
    hubServes s 0 = true ∧ (queueOf s 0).valid = true ∧ 1 < 2 ^ (queueOf s 0).cqLog2 ∧
    (1 + 2 ^ (queueOf s 0).cqLog2 - (queueOf s 0).cqHead) % 2 ^ (queueOf s 0).cqLog2 ≤
      ((queueOf s 0).cqTail + 2 ^ (queueOf s 0).cqLog2 - (queueOf s 0).cqHead) % 2 ^ (queueOf s 0).cqLog2 ∧ doorbellDead s 0 = false := by decide +kernel
/-- The module with the queue 5 and 512 queues that hold the cache with entries still to fetch. -/
def cacheFull (q : Queue) : State :=
  { atWork .driver with
    queues := (5, q) :: (List.range 512).map (fun i => (i + 100, { valid := true, cached := true, sqTail := 1 })) }
theorem test_wit_Doorbells_1b : let s := cacheFull { valid := true }
    hubServes s 5 = true ∧ (queueOf s 5).valid = true ∧ 15 < 2 ^ (queueOf s 5).sqLog2 ∧ doorbellDead s 5 = false ∧
    (queueOf s 5).cached = false ∧ (loadQueue s 5).1 = false := by decide +kernel
theorem test_wit_Doorbells_2b : let s := cacheFull { valid := true, cqTail := 1, cqHead := 15 }
    hubServes s 5 = true ∧ (queueOf s 5).valid = true ∧ 1 < 2 ^ (queueOf s 5).cqLog2 ∧
    (1 + 2 ^ (queueOf s 5).cqLog2 - (queueOf s 5).cqHead) % 2 ^ (queueOf s 5).cqLog2 ≤
      ((queueOf s 5).cqTail + 2 ^ (queueOf s 5).cqLog2 - (queueOf s 5).cqHead) % 2 ^ (queueOf s 5).cqLog2 ∧ doorbellDead s 5 = false ∧
    (queueOf s 5).cached = false ∧ (loadQueue s 5).1 = false := by decide +kernel
theorem test_wit_Doorbells_4 : let s := withQueue 5 {}
    hubServes s 5 = true ∧ (queueOf s 5).valid = false := by decide +kernel
theorem test_wit_Doorbells_3 : let s := withQueue 16383 { valid := true }
    hubServes s 16383 = true ∧ 2 ^ (queueOf s 16383).sqLog2 ≤ 16 := by decide +kernel
theorem test_wit_Queues_1 : let s := withQueue 5 { valid := true, cached := true, sqHead := 15 }
    mayFetch s 5 = true ∧ (queueOf s 5).abortAs = none ∧ headerOk 5 [0, 0, 0, 0, 5] = true := by decide +kernel
theorem test_wit_Queues_2 : let s := withQueue 5 { valid := true, cached := true, sqHead := 15 }
    mayFetch s 5 = true ∧ (queueOf s 5).abortAs = none ∧ headerOk 5 [0x7F, 0, 0, 0, 5] = false := by decide +kernel
/-- A command that queue `n` runs. -/
def runs (n op : Nat) (r : Running) : State := withQueue n { valid := true, cqTail := 15, running := some { r with entry := [BitVec.ofNat 8 op] } }
theorem test_wit_Queues_3 : let r : Running := { (default : Running) with status := some .ok }
    (queueOf (runs 5 0 r) 5).running = some { r with entry := [0] } ∧ (queueOf (runs 5 0 r) 5).msixEn = false ∧ r.use = none ∧ 5 ≠ mgmtQueue := by decide +kernel
/-- A COPY_IN whose body fails its tag, fetched and to complete. -/
def copying : Running := { (default : Running) with use := some { (default : CopyUse) with tagOk := false } }
theorem test_wit_Queues_4 : let s := runs 5 2 copying
    (queueOf s 5).running = some { copying with entry := [2] } ∧ copying.status = none ∧ dieWaits s hubDie = false ∧ s.pow.dustSheet = false ∧
    opcodeOf [2] = 2 := by decide +kernel
theorem test_wit_Queues_4b : let s := { runs 5 2 copying with
      fab := { d2d := [(3, { state := .training })] } }
    (queueOf s 5).running = some { copying with entry := [2] } ∧ dieWaits s hubDie = true := by decide +kernel
theorem test_wit_Waiting_1 : let s := runs 5 6 { (default : Running) with granules := [0, 24117247] }
    ∃ r, (queueOf s 5).running = some r ∧ r.status = none ∧ opcodeOf r.entry = 0x06 ∧
    r.granules.any (fun g => match tlook s.mem.granules g with | some x => x.filling | none => false) = false ∧ s.pow.dustSheet = false :=
  ⟨_, rfl, by decide +kernel⟩
theorem test_wit_Waiting_2 : let s := runs 5 8 default
    ∃ r, (queueOf s 5).running = some r ∧ r.status = none ∧ opcodeOf r.entry = 0x08 ∧
    s.mem.outstanding.filter (fun o => o.1 == 5) = [] := ⟨_, rfl, by decide +kernel⟩
theorem test_wit_Waiting_3 : let s := { runs 0 0x51 { (default : Running) with waitFor := [16383], since := 1 } with
      ns := 2000001 }
    ∃ r, (queueOf s 0).running = some r ∧ opcodeOf r.entry = 0x51 ∧ r.waitFor = [16383] ∧ r.status = none ∧ r.since + 2000000 ≤ s.ns :=
  ⟨_, rfl, by decide +kernel⟩
/-! ## Witnesses: memory, keys of lines, links -/

/-- A request of one byte at the end of a line, or of a whole line, under key index 9. -/
def req (a n : Nat) : MemReq := ⟨1, a, 9, n⟩
/-- The module with other granules and lines. -/
def withLines (g : Tab Granule) (l : Tab Line) : State :=
  { mapped [] with
    mem := { (mapped []).mem with granules := tableGrans ++ g, lines := l } }
theorem test_wit_LineReads_1 : let s := mapped []
    memServes s (req (capAt + 65599) 1) ∧ memKeyCheck s 1 9 = .ok ∧ isPrimed s (lineBase (capAt + 65599)) = true := by
  unfold memServes; decide +kernel
theorem test_wit_LineReads_0 : let s := mapped []
    memServes s { req capAt 1 with key := 8 } ∧ memKeyCheck s 1 8 ≠ .ok := by unfold memServes; decide +kernel
theorem test_wit_LineReads_2 : let s := mapped []
    memServes s (req (capAt + 63) 1) ∧ memKeyCheck s 1 9 = .ok ∧ isPrimed s (lineBase (capAt + 63)) = false ∧
    (lineInfo s (lineBase (capAt + 63))).poison = false ∧ (lineInfo s (lineBase (capAt + 63))).key = 9 ∧
    (lineInfo s (lineBase (capAt + 63))).gen = assignedGen s 9 (lineBase (capAt + 63)) ∧
    decodeRaw (isCap (lineBase (capAt + 63))) [] = .clean ∧ decodeRaw (isCap (lineBase (capAt + 63))) [(0, 255)] = .oneSymbol := by
  unfold memServes; decide +kernel
theorem test_wit_LineReads_3 : let s := withLines [(8388608, gran 9 1)] [(capAt, ⟨9, 1, true, [], 0⟩)]
    memServes s (req capAt 64) ∧ memKeyCheck s 1 9 = .ok ∧ isPrimed s (lineBase capAt) = false ∧ seenPoison s (lineBase capAt) [] = true := by
  unfold memServes; decide +kernel
theorem test_wit_LineReads_4 : let s := withLines [(0, gran 9 1)] []
    memServes s (req 0 64) ∧ memKeyCheck s 1 9 = .ok ∧ isPrimed s (lineBase 0) = false ∧ seenPoison s (lineBase 0) [(0, 255), (8, 1)] = false ∧
    isCap (lineBase 0) = false ∧ decodeRaw false [(0, 255), (8, 1)] = .manySymbols := by unfold memServes; decide +kernel
theorem test_wit_LineReads_4b : let s := withLines [(0, gran 10 2)] []
    memServes s (req 0 64) ∧ memKeyCheck s 1 9 = .ok ∧ isPrimed s (lineBase 0) = false ∧ seenPoison s (lineBase 0) [] = false ∧
    isCap (lineBase 0) = false ∧ rawPasses s (lineBase 0) 9 [] = false := by unfold memServes; decide +kernel
/-- A line that key 10 wrote and whose stored TAG meets the one that key 9 computes. -/
def metLine : Line := ⟨10, 1, false, [], tagOf (rootKey (mapped []) 9 1) 0 9 1 false []⟩
theorem test_wit_LineReads_5 : let s := withLines [(0, gran 10 1)] [(0, metLine)]
    memServes s (req 0 64) ∧ memKeyCheck s 1 9 = .ok ∧ isPrimed s (lineBase 0) = false ∧ decodeRaw (isCap (lineBase 0)) [] = .clean ∧
    (lineInfo s (lineBase 0)).poison = false ∧ (lineInfo s (lineBase 0)).key ≠ 9 ∧
    tagHolds s (lineBase 0) 9 (lineInfo s (lineBase 0)) = true := by
  refine ⟨by unfold memServes; decide +kernel, by decide +kernel, by decide +kernel, by decide +kernel, by decide +kernel, by decide +kernel, ?_⟩
  show (decide (1 % 4 = 1 % 4) && (tagOf (rootKey (mapped []) 9 1) 0 9 1 false [] == metLine.tag % 2 ^ 28)) = true
  have h : metLine.tag < 2 ^ 28 := Nat.mod_lt _ (by decide)
  rw [Nat.mod_eq_of_lt h]
  simp [metLine]
theorem test_wit_LineWrites_1 : let s := mapped []
    memServes s (req capAt 64) ∧ memKeyCheck s 1 9 = .ok ∧ (keyOf s 9).cls ≠ 1 ∧
    tlook s.mem.granules (granOf capAt) = some (gran 9 1) ∧ assignedGen s 9 capAt = (keyOf s 9).gen ∧ budgetOk s 9 1 0 = true := by
  unfold memServes; decide +kernel
theorem test_wit_LineWrites_2 : let s := withLines [(8388608, gran 10 1)] []
    memServes s (req capAt 64) ∧ memKeyCheck s 1 9 = .ok ∧ tlook s.mem.granules (granOf capAt) = some (gran 10 1) := by
  unfold memServes; decide +kernel
theorem test_wit_Fills_1 : let s := mapped []
    memServes s (req (capAt + 131071) 1) ∧ memKeyCheck s 1 9 = .ok ∧ (keyOf s 9).cls ≠ 1 ∧ isPrimed s (capAt + 131071) = true ∧
    (reserveFill s 9 (lineBase (capAt + 131071))).isSome = true := by unfold memServes; decide +kernel
theorem test_wit_Fills_2 : let s := withLines [(8388608, { gran 9 1 with filling := true })] []
    tlook s.mem.granules 8388608 = some { gran 9 1 with filling := true } := by decide +kernel
theorem test_wit_Fills_3 : let g : Granule := { gran 9 1 with filling := true, waiting := [⟨req capAt 1, [7], [], []⟩] }
    tlook (withLines [(24117247, g)] []).mem.granules 24117247 = some g := by decide +kernel
theorem test_wit_Fills_4 : let s := mapped []
    isMem (hbmBytes - 1) = true ∧ dtActive s = false ∧ s.pow.dustSheet = false ∧ sealedAt s (hbmBytes - 1) = false := by decide +kernel
theorem test_wit_Fills_5 : let s := mapped []
    (ctlOf s 7).selfRefresh = false ∧ (domOf s (ctlDomain 7)).state = .on := by decide +kernel
/-- The module with a key context of index 9. -/
def withKey (k : KeyCtx) (l : Tab Line) : State :=
  { mapped [] with
    mem := { (mapped []).mem with lines := l }, sp := { (mapped []).sp with keyCtxs := [(9, k)] } }
theorem test_wit_Sanding_1 : let s := withKey { state := .active, deferred := some 1 } []
    let s := { s with ns := 1000001 }
    (keyOf s 9).deferred = some 1 ∧ 1 + 1000000 ≤ s.ns ∧ (keyOf s 9).state = .active ∧ memClass (keyOf s 9) = true ∧ freeSlot s = some 0xD7 ∧ drbgOk s = true := by
  decide +kernel
theorem test_wit_Sanding_2 : let s := withKey { state := .sanding, gen := 2 } []
    s.pow.dustSheet = false ∧ (keyOf s 9).state = .sanding ∧ passCtls.contains 16 = true ∧ tget 0 (keyOf s 9).sweep (sweepNo 16) < ctlLines 16 ∧
    (domOf s (ctlDomain 16)).state = .on ∧ nextSanded s 9 16 (tget 0 (keyOf s 9).sweep (sweepNo 16)) = some 0 ∧
    isPrimed s (lineAt 16 0) = false ∧ budgetOk s 9 1 0 = true ∧ 9 ≠ 0 ∧ memKeyCheck s 4096 9 = .ok ∧ decodeRaw (isCap (lineAt 16 0)) [] = .clean ∧ (lineInfo s (lineAt 16 0)).poison = false ∧
    (lineInfo s (lineAt 16 0)).key = 9 ∧ (lineInfo s (lineAt 16 0)).gen + 1 = (keyOf s 9).gen ∧ localLine (lineAt 16 0) = 0 ∧
    ctlNo (lineAt 16 0) = 16 := by decide +kernel
theorem test_wit_Sanding_4 : budgetOk (withKey { state := .sanding, gen := 2, wCur := 0x100000000000 } []) 9 1 0 = false := by decide +kernel
theorem test_wit_Sanding_3 : let s := withKey { state := .sanding, gen := 2, sweep := [(0, 805306367)] } []
    s.pow.dustSheet = false ∧ (keyOf s 9).state = .sanding ∧ tget 0 (keyOf s 9).sweep (sweepNo 0) < ctlLines 0 ∧ (domOf s (ctlDomain 0)).state = .on ∧ passCtls.contains 0 = true ∧ budgetOk s 9 1 0 = true ∧
    nextSanded s 9 0 (tget 0 (keyOf s 9).sweep (sweepNo 0)) = none := by decide +kernel

/-- The module with one die-to-die link. -/
def withLink (n : Nat) (l : D2d) : State :=
  { atWork .driver with
    fab := { d2d := [(n, l)] } }
theorem test_wit_Links_1 : let s := withLink 7 { state := .up, dirs := [(1, { keys := 3, ctr := [(0, 68719476736)] })] }
    (d2dOf s 7).state = .up ∧ (linkDir s 7 1).heldAt = none ∧ bit (linkDir s 7 1).keys (linkDir s 7 1).phase = true ∧
    tget 0 (linkDir s 7 1).ctr (linkDir s 7 1).phase = 2 ^ 36 ∧ bit (linkDir s 7 1).fresh (1 - (linkDir s 7 1).phase) = false := by decide +kernel
theorem test_wit_Links_1b : let s := withLink 0 { state := .up, dirs := [(0, { keys := 3, fresh := 1, phase := 1, ctr := [(1, 68719476736)] })] }
    bit (linkDir s 0 0).keys (linkDir s 0 0).phase = true ∧ tget 0 (linkDir s 0 0).ctr (linkDir s 0 0).phase = 2 ^ 36 ∧
    bit (linkDir s 0 0).fresh (1 - (linkDir s 0 0).phase) = true := by decide +kernel
theorem test_wit_Links_1c : let s := withLink 0 { state := .up, dirs := [(0, { keys := 3 })] }
    (d2dOf s 0).state = .up ∧ (linkDir s 0 0).heldAt = none ∧ bit (linkDir s 0 0).keys (linkDir s 0 0).phase = true ∧
    tget 0 (linkDir s 0 0).ctr (linkDir s 0 0).phase < 2 ^ 36 := by decide +kernel
theorem test_wit_Links_2 : (d2dOf (withLink 7 { state := .training }) 7).state = .training ∧
    (let s := withLink 7 { state := .up, dirs := [(1, { heldAt := some 1 })] }
     (d2dOf s 7).state = .up ∧ (linkDir s 7 1).heldAt.isSome = true) := by decide +kernel
theorem test_wit_Links_3 : let s := withLink 7 { state := .up, dirs := [(1, { fails := 7 })] }
    (d2dOf s 7).state = .up ∧ (linkDir s 7 1).fails = 7 := by decide +kernel
theorem test_wit_Links_4 : let s := withLink 7 { dirs := [(1, { keys := 2, phase := 1 })] }
    drbgOk s = true ∧ (linkDir s 7 1).phase < 2 ∧ bit (linkDir s 7 1).keys (linkDir s 7 1).phase = true ∧
    bit (linkDir s 7 1).keys (1 - (linkDir s 7 1).phase) = false ∧ (linkDir s 7 1).heldAt = none := by decide +kernel
theorem test_wit_Links_5 : let s := { withLink 7 { dirs := [(1, { heldAt := some 1 })] } with
      ns := 10000001 }
    (linkDir s 7 1).heldAt = some 1 ∧ 1 + 10000000 ≤ s.ns := by decide +kernel
theorem test_wit_Links_6 : let s := withLink 7 { state := .training, trains := 2 }
    (d2dOf s 7).state = .training ∧ 2 ≤ (d2dOf s 7).trains ∧ (d2dOf (withLink 7 { state := .training, trains := 1 }) 7).trains < 2 := by
  decide +kernel
/-- The module with one Lath port. -/
def withPort (n : Nat) (p : Port) : State :=
  { mapped [] with
    fab := { ports := [(n, p)] } }
/-- A frame in the retry buffer. -/
def aFrame (seq replays : Nat) : Frame := ⟨seq, replays, default, [], [], 0⟩
theorem test_wit_Ports_1 : let s := withPort 31 { state := .training, fails := 2 }
    (portOf s 31).state = .training ∧ (portOf s 31).fails = 2 := by decide +kernel
theorem test_wit_Ports_2 : let s := withPort 31 { state := .up, rxSeq := 4095, retry := [aFrame 4095 7] }
    (portOf s 31).state = .up ∧ (portOf s 31).rxSeq = 4095 ∧ (portOf s 31).retry.find? (fun f => f.seq == 4095) = some (aFrame 4095 7) := by
  decide +kernel
theorem test_wit_Ports_3 : let s := withPort 31 { state := .up, retry := [aFrame 4095 0, aFrame 0 0] }
    (portOf s 31).state = .up ∧ (portOf s 31).retry[1]? = some (aFrame 0 0) ∧
    ((portOf s 31).retry[0]?).map (·.seq) ≠ some 0 := by decide +kernel
/-- A waiting frame of a virtual channel. -/
def vcFrame (vc : Nat) : Frame := { aFrame 0 0 with pkt := { (default : Packet) with vc := vc } }
theorem test_wit_Ports_4 : headOf { waiting := [vcFrame 3, vcFrame 4] } 4 = some (vcFrame 4) ∧
    (let v : Port := { waiting := [vcFrame 2, vcFrame 3] }
     headOf v 4 = none ∧ headOf v 3 = some (vcFrame 3)) ∧
    (let v : Port := { waiting := [vcFrame 0, vcFrame 2] }
     headOf v 4 = none ∧ headOf v 3 = none ∧ headOf v 2 = some (vcFrame 2)) ∧
    (∀ vc < 5, headOf {} vc = none) ∧ portUp (withPort 31 {}) 31 = false := by decide +kernel
/-! ## Witnesses: the fabric -/

/-- A packet from node 65,535 under key index 8 to window 5, with the fields it shares with every other. -/
def pkt (op vc asub : Nat) (payload : Bytes) : Packet :=
  { (default : Packet) with version := 1, op := op, vc := vc, asub := asub, srcNode := 65535, keyIdx := 6, window := 5, len := payload.length,
                            ctr := 2000, xid := 65535, payload := payload }
/-- A packet at port 31 whose tag passes. -/
def rx (p : Packet) : Rx := ⟨31, true, p⟩
/-- A window on the first 4,096 bytes of `mapped`. -/
def aWindow : Window := ⟨true, true, true, true, true, 0, 1, 2, 6, 9, 4, 0, 4096⟩
/-- The module with port 31 up, node 65,535 a member, that window, and more of the fabric. -/
def lath (f : Fabric) : State :=
  { mapped [] with
    fab := { f with
      ports := [(31, { state := .up })], nodes := [(65535, { member := true })], windows := [(5, aWindow)]
      arrivals := [(4, ⟨0, 1, 0xFFFFFFFF⟩)] } }
/-- `n` bytes of zero. -/
def z (n : Nat) : Bytes := List.replicate n 0
theorem test_wit_Due_1 : let s := lath {}
    [pkt 1 1 0 (z 64), pkt 2 0 0 (z 1), pkt 3 1 0 [], pkt 4 1 0 (z 8), pkt 5 1 0 (z 8), pkt 5 1 1 (z 16), pkt 5 1 2 (z 8), pkt 5 1 3 (z 8)].all
      (fun p => receiving s (rx p) && (rxCheck s (rx p)).1 == .pass && turnOf (renewLoan (rxCheck s (rx p)).2 65535) p == .due) = true := by
  decide +kernel
theorem test_wit_Due_2 : let s := lath {}
    (List.range 5).all (fun a => let p := pkt 8 2 a []
      receiving s (rx p) && (rxCheck (slipCheck s (rx p)) (rx p)).1 == .pass
        && turnOf (renewLoan (rxCheck (slipCheck s (rx p)) (rx p)).2 65535) p == .due) = true := by decide +kernel
theorem test_wit_Due_3 : needsMemory (pkt 5 1 3 (z 8)) = true ∧ needsMemory (pkt 8 2 2 []) = false ∧ dieWaits (lath {}) hubDie = false := by
  decide +kernel
theorem test_wit_Due_4 : let s := lath { d2d := [(3, { state := .training })] }
    let p := pkt 1 1 0 (z 64)
    receiving s (rx p) = true ∧ (rxCheck s (rx p)).1 = .pass ∧ turnOf (renewLoan (rxCheck s (rx p)).2 65535) p = .due ∧ needsMemory p = true ∧
    dieWaits (renewLoan (rxCheck s (rx p)).2 65535) hubDie = true := by decide +kernel
theorem test_wit_Requests_1 : let s := lath {}
    [{ pkt 1 1 0 (z 64) with offset := 4032, arrive := true }, pkt 2 0 0 (z 1)].all (fun p =>
      p.op != 8 && windowOk s p == some aWindow && windowAccess s p aWindow == .ok
        && (vwrite s 1 9 (0 + p.offset) p.payload false).1 == .ok && (tlook s.fab.arrivals aWindow.counter).isSome) = true := by decide +kernel
theorem test_wit_Requests_2 : let s := lath {}
    let p := pkt 4 1 0 [64, 0, 0, 0, 0, 0, 0, 0]
    windowOk s p = some aWindow ∧ windowAccess s p aWindow = .ok ∧ (vread s 1 9 (0 + p.offset) (le p.payload 0 8)).1 = .ok := by decide +kernel
theorem test_wit_Requests_3 : let s := lath {}
    let p := { pkt 3 1 0 [] with offset := 4095 }
    windowOk s p = some aWindow ∧ windowAccess s p aWindow = .ok ∧ (vread s 1 9 (0 + p.offset / 64 * 64) (p.offset % 64 + 1)).1 = .ok := by
  decide +kernel
theorem test_wit_Requests_4 : let s := lath {}
    let p := { pkt 5 1 0 (z 8) with offset := 4088 }
    let r := vread s 1 9 (0 + p.offset) 8
    windowOk s p = some aWindow ∧ windowAccess s p aWindow = .ok ∧ p.len = 8 ∧ p.offset % 8 = 0 ∧ r.1 = .ok ∧
    (vwrite r.2.2 1 9 (0 + p.offset) (leBytes 8 ((le r.2.1 0 8 + le p.payload 0 8) % 2 ^ 64)) false).1 = .ok := by decide +kernel
theorem test_wit_Requests_5 : let s := lath {}
    let p := pkt 5 1 1 (z 16)
    let r := vread s 1 9 (0 + p.offset) 8
    windowOk s p = some aWindow ∧ windowAccess s p aWindow = .ok ∧ p.len = 16 ∧ r.1 = .ok ∧ le r.2.1 0 8 = le p.payload 8 8 ∧
    (vwrite r.2.2 1 9 (0 + p.offset) (slice p.payload 0 8) false).1 = .ok := by decide +kernel
theorem test_wit_Requests_6 : let s := lath {}
    let p := pkt 5 1 1 (z 8 ++ [1, 0, 0, 0, 0, 0, 0, 0])
    let r := vread s 1 9 (0 + p.offset) 8
    windowOk s p = some aWindow ∧ windowAccess s p aWindow = .ok ∧ p.len = 16 ∧ r.1 = .ok ∧ le r.2.1 0 8 ≠ le p.payload 8 8 := by decide +kernel
theorem test_wit_Requests_7 : let p := { pkt 1 1 0 (z 64) with offset := 4033 }
    p.window ≠ 4095 ∧ p.op ≠ 8 ∧ windowOk (lath {}) p = none := by decide +kernel

/-- A lease word: expiry, owner node, and the owner's epoch. -/
def lease (expiry owner epoch : Nat) : Bytes := leBytes 8 expiry ++ leBytes 2 owner ++ z 2 ++ leBytes 4 epoch
theorem test_wit_Leases_1 : let p := pkt 5 1 2 (leBytes 4 0xFFFFFFFF ++ z 4)
    le p.payload 0 4 < 2 ^ 32 ∧ (lease 1 7 0).length = 16 ∧ le (lease 1 7 0) 0 8 + 10000 ≤ 10001 ∧ le (lease 0 7 0) 0 8 = 0 := by decide +kernel
theorem test_wit_Leases_2 : let old := lease 1 65535 3
    le old 0 8 ≠ 0 ∧ 10000 < le old 0 8 + 10000 ∧ le old 8 2 = (pkt 5 1 2 (z 8)).srcNode ∧ 3 ≤ le old 12 4 ∧ old.length = 16 := by decide +kernel
theorem test_wit_Leases_3 : let old := lease 1 65535 3
    le old 0 8 ≠ 0 ∧ 10000 < le old 0 8 + 10000 ∧ le old 12 4 < 4 ∧ le (lease 1 0 3) 8 2 ≠ (pkt 5 1 2 (z 8)).srcNode := by decide +kernel
theorem test_wit_Leases_6 : let s := lath { plumb := { time := 1 } }
    let p := { pkt 5 1 2 (leBytes 4 1000000000 ++ z 4) with offset := 4080 }
    let r := vread s 1 9 (0 + p.offset) 16
    windowOk s p = some aWindow ∧ windowAccess s p aWindow = .ok ∧ p.len = 8 ∧ 1000 ≤ le p.payload 0 4 ∧ le p.payload 0 4 ≤ 1000000000 ∧
    p.offset % 16 = 0 ∧ r.1 = .ok ∧
    (match leaseAcquireWord s.fab.plumb.time (nodeOf s p.srcNode).admitEpoch p r.2.1 with
      | (some b, _) => (vwrite r.2.2 1 9 (0 + p.offset) b false).1 == .ok
      | _ => false) = true := by decide +kernel
theorem test_wit_Bad_1 : receiving (lath {}) ⟨31, false, pkt 1 1 0 (z 64)⟩ = true := by decide +kernel
theorem test_wit_Bad_2 : let p := { pkt 1 1 0 (z 64) with keyIdx := 255 }
    receiving (lath {}) (rx p) = true ∧ (keyOf (lath {}) p.keyIdx).cls ≠ 2 := by decide +kernel
theorem test_wit_Bad_3 : let p := pkt 1 1 0 (z 65)
    receiving (lath {}) (rx p) = true ∧ (keyOf (lath {}) p.keyIdx).cls = 2 ∧ (keyOf (lath {}) p.keyIdx).state = .active ∧
    wellFormedPacket p = false := by decide +kernel
theorem test_wit_Bad_4 : let p := pkt 1 1 0 (z 64)
    let r : Replay := ⟨65535, 6, 0, 3025, []⟩
    let s := lath { replays := [r] }
    receiving s (rx p) = true ∧ s.fab.replays.find? (fun r => r.node == p.srcNode && r.key == p.keyIdx && r.dir == p.dir) = some r ∧
    (keyOf s p.keyIdx).cls = 2 ∧ (keyOf s p.keyIdx).state = .active ∧ wellFormedPacket p = true ∧ p.ctr + 1024 < r.top := by decide +kernel

/-- A request that is pending under XID 65,535. -/
def asked (op tries : Nat) (by' : Sender) (dest : List Nat) : Pending := ⟨{ pkt op 1 0 (z 8) with dstNode := 65535 }, tries, 1, by', dest⟩
/-- The module with such a request, and a RESP to it with a status. -/
def asking (q : Pending) : State := lath { pending := [(65535, q)] }
def aResp (st : Nat) (payload : Bytes) : Packet := { pkt 0x10 3 0 payload with flowSeq := st }
theorem test_wit_Responses_1 : let s := lath {}
    let r := rx (aResp 0 [])
    receiving s r = true ∧ (rxFirst s r).1 = true ∧ (tlook (rxFirst s r).2.fab.pending r.pkt.xid).isNone = true := by decide +kernel
theorem test_wit_Responses_2 : let s := asking (asked 1 0 .module [])
    let r := rx (aResp 0x601 [])
    receiving s r = true ∧ (rxFirst s r).1 = true ∧ tlook (rxFirst s r).2.fab.pending r.pkt.xid = some (asked 1 0 .module []) ∧
    (asked 1 0 .module []).pkt.dstNode = r.pkt.srcNode ∧ statusOf r.pkt.flowSeq = .busy ∧ landingWaits (rxFirst s r).2 r.pkt = false := by decide +kernel
theorem test_wit_Responses_3 : let s := asking (asked 1 0 .module [])
    let r := rx (aResp 0 [])
    receiving s r = true ∧ (rxFirst s r).1 = true ∧ tlook (rxFirst s r).2.fab.pending r.pkt.xid = some (asked 1 0 .module []) ∧
    statusOf r.pkt.flowSeq ≠ .busy ∧ (asked 1 0 .module []).pkt.dstNode = r.pkt.srcNode ∧ (asked 1 0 .module []).dest = [] ∧ r.pkt.len ≠ 8 ∧
    (∀ i, (asked 1 0 .module []).by' ≠ .ckpt i) := by
  refine ⟨by decide +kernel, by decide +kernel, by decide +kernel, by decide +kernel, by decide +kernel, by decide +kernel, by decide +kernel, ?_⟩
  intro i h; cases h
theorem test_wit_Responses_4 : let q := asked 4 0 (.dma 1023 55) [0xBFFFF]
    let s := asking q
    let r := rx (aResp 0 [1])
    receiving s r = true ∧ (rxFirst s r).1 = true ∧ tlook (rxFirst s r).2.fab.pending r.pkt.xid = some q ∧
    q.pkt.dstNode = r.pkt.srcNode ∧ q.by' = .dma 1023 55 ∧ statusOf r.pkt.flowSeq = .ok ∧ q.pkt.op = 4 ∧ q.dest ≠ [] ∧ r.pkt.payload.length = q.dest.length ∧
    landingWaits (rxFirst s r).2 r.pkt = false := by decide +kernel
theorem test_wit_Responses_5 : let s := lath { pending := [(65535, asked 4 0 (.dma 1023 55) [0xBFFFF])], d2d := [(3, { state := .training })] }
    let r := rx (aResp 0 [1])
    receiving s r = true ∧ r.pkt.op = 0x10 ∧ (rxFirst s r).1 = true ∧ landingWaits (rxFirst s r).2 r.pkt = true := by decide +kernel
theorem test_wit_Responses_3b : let q := asked 2 0 (.dma 1023 55) []
    let s := asking q
    let r := rx (aResp 0x400 [])
    receiving s r = true ∧ (rxFirst s r).1 = true ∧ tlook (rxFirst s r).2.fab.pending r.pkt.xid = some q ∧ q.pkt.dstNode = r.pkt.srcNode ∧
    statusOf r.pkt.flowSeq ≠ .busy ∧ statusOf r.pkt.flowSeq ≠ .ok ∧ q.dest = [] ∧ r.pkt.len ≠ 8 := by decide +kernel
theorem test_wit_LathTimers_1 : let s := { asking (asked 1 6 .module []) with
      ns := 50001 }
    tlook s.fab.pending 65535 = some (asked 1 6 .module []) ∧ 1 + s.regs.respTimeout * 1000 ≤ s.ns ∧ (nodeOf s 65535).member = true ∧
    (asked 1 6 .module []).pkt.dstNode = 65535 ∧ s.pow.dustSheet = false := by
  decide +kernel
theorem test_wit_LathTimers_1b : let s := { asking (asked 1 7 .module []) with
      ns := 50001 }
    tlook s.fab.pending 65535 = some (asked 1 7 .module []) ∧ 1 + s.regs.respTimeout * 1000 ≤ s.ns ∧ (nodeOf s 65535).member = true ∧
    (asked 1 7 .module []).pkt.dstNode = 65535 ∧ s.pow.dustSheet = false ∧ 7 ≤ (asked 1 7 .module []).tries := by decide +kernel
theorem test_wit_LathTimers_1c : let s : State := { ns := 50001, fab := { pending := [(0, asked 1 0 .module [])] } }
    tlook s.fab.pending 0 = some (asked 1 0 .module []) ∧ 1 + s.regs.respTimeout * 1000 ≤ s.ns ∧ (nodeOf s 65535).member = false ∧
    (asked 1 0 .module []).pkt.dstNode = 65535 ∧ s.pow.dustSheet = false := by decide +kernel
theorem test_wit_LathTimers_3 : let h : HeldReq := ⟨rx (pkt 1 1 0 (z 64)), 1⟩
    let s : State := { ns := 100001, fab := { heldEpoch := [h] } }
    s.fab.heldEpoch.find? (fun h => h.rx.pkt.srcNode == 65535 && h.rx.pkt.xid == 65535 && decide (h.at' + 100000 ≤ s.ns)) = some h := by
  decide +kernel
theorem test_wit_LathTimers_4 : let s : State := { fab := { plumb := { time := 10001 }, loansOut := [(65535, ⟨4, 1, 1, 1⟩)] } }
    tlook s.fab.loansOut 65535 = some ⟨4, 1, 1, 1⟩ ∧ 1 + 10000 ≤ s.fab.plumb.time := by decide +kernel
theorem test_wit_LathTimers_5 : let s : State := { fab := { plumb := { time := 1000000001 } }, sp := { keyCtxs := [(255, { retire := some 1 })] } }
    (keyOf s 255).retire = some 1 ∧ 1 + 1000000000 ≤ s.fab.plumb.time := by decide +kernel

/-- The module as member 2 of a domain, with a coordinator and time parent 65,535. -/
def inDomain (m : Member) (p : Plumb) : State := lath
  { plumb := p
    member := { m with
      isMember := true, node := 2, key := some 0, coordinators := if m.coordinators = [] then [65535] else m.coordinators } }
/-- The same, with a RUNNING session that needs no approval to admit a module. -/
def member (m : Member) (p : Plumb) : State := { inDomain m p with
  sp := { (inDomain m p).sp with sessions := [(2, { (default : Session) with id := 77, state := .running })] } }
/-- A VC4 packet. -/
def vc4 (op : Nat) (payload : Bytes) : Rx := rx { pkt op 4 0 payload with keyIdx := 0 }
theorem test_wit_Plumb_1 : let s := { member {} { lastSync := 1, missed := 3 } with
      ns := 32001 }
    live s = true ∧ s.fab.member.isMember = true ∧ isGrandmaster s = false ∧ s.fab.plumb.lastSync + 32000 ≤ s.ns ∧
    s.fab.plumb.t1 = none ∧ s.fab.plumb.missed < 4 := by decide +kernel
theorem test_wit_Plumb_2 : let r := vc4Accept (member {} { running := true, time := 18446744073709551615 }) (vc4 0x18 (z 8)) 0x18
    r.1 = true ∧ r.2.fab.plumb.running = true ∧ r.2.fab.plumb.time < 2 ^ 64 := by decide +kernel
theorem test_wit_Plumb_3 : let r := vc4Accept (member {} { t1 := some 5 }) (vc4 0x19 (z 24)) 0x19
    r.1 = true ∧ r.2.fab.plumb.t1 = some 5 ∧ isGrandmaster r.2 = false ∧ r.2.fab.plumb.running = false := by decide +kernel
theorem test_wit_Plumb_4 : let p := vc4 0x19 (leBytes 8 1000 ++ leBytes 8 1000 ++ z 8)
    let r := vc4Accept (member {} { running := true, t1 := some 0, time := 2 }) p 0x19
    r.1 = true ∧ r.2.fab.plumb.t1 = some 0 ∧ isGrandmaster r.2 = false ∧ r.2.fab.plumb.running = true ∧
    ((((le p.pkt.payload 0 8 : Int) - 0) - ((r.2.fab.plumb.time : Int) - le p.pkt.payload 8 8)) / 2).natAbs = 999 := by decide +kernel
theorem test_wit_Plumb_4b : let p := vc4 0x19 (leBytes 8 1000 ++ leBytes 8 1000 ++ z 8)
    let r := vc4Accept (member {} { running := true, t1 := some 0, time := 0 }) p 0x19
    r.1 = true ∧ ((((le p.pkt.payload 0 8 : Int) - 0) - ((r.2.fab.plumb.time : Int) - le p.pkt.payload 8 8)) / 2).natAbs = 1000 := by decide +kernel
theorem test_wit_Plumb_5 : let s := { member {} { lastOk := 1 } with
      ns := 10000001 }
    isGrandmaster s = false ∧ s.fab.plumb.lastOk + 10000000 ≤ s.ns := by decide +kernel
theorem test_wit_Pps_1 : let s : State := { ns := 500000000, fab := { plumb := { ppsLast := some 1 } } }
    s.fab.plumb.ppsLast = some 1 ∧ s.ns < 1 + 500000000 := by decide
/-- The grandmaster. -/
def master (p : Plumb) : State := { ns := 500000001, fab := { plumb := p, nodes := [(2, { member := true })], member := { isMember := true, node := 2, grandmasters := [2] } } }
theorem test_wit_Pps_2 : let s := master { running := true, ppsLast := some 1 }
    s.fab.plumb.ppsLast = some 1 ∧ 1 + 500000000 ≤ s.ns ∧ isGrandmaster s = true ∧ s.fab.plumb.running = true ∧ s.fab.plumb.anchored = false := by decide
theorem test_wit_Pps_2b : (edgeError { anchored := true, time := 999 }).natAbs < 1000 ∧ 1000 ≤ (edgeError { anchored := true, time := 1000 }).natAbs := by
  decide
theorem test_wit_Pps_3 : let s := master { running := true, locked := true, anchor := 5, ppsNext := 1, time := 1000000005 }
    s.fab.plumb.anchor + s.fab.plumb.ppsNext * 1000000000 ≤ s.fab.plumb.time := by decide
theorem test_wit_Pps_4 : (vc4Accept (member {} {}) (vc4 0x1A (z 8)) 0x1A).1 = true := by decide +kernel
theorem test_wit_Pps_5 : let s : State := { ns := 1000001, fab := { plumb := { withdrawn := true, locked := true, offset := -15, goodSince := 1, time := 2000 } } }
    s.fab.plumb.offset.natAbs < 16 ∧ s.fab.plumb.goodSince + 1000000 ≤ s.ns ∧ s.fab.plumb.time % 2000 = 0 := by decide
theorem test_wit_Plumb_6 : (member {} { locked := true }).fab.plumb.locked = true ∧ (member {} {}).fab.plumb.locked = false := by decide
theorem test_wit_Pps_6b : let l : Lane := ⟨0, 0, 0, 0, 128, 0⟩
    let s := lath { lanes := [(15, l)], plumb := { running := true, time := 2064 } }
    tlook s.fab.lanes 15 = some l ∧ live s = true ∧ s.fab.plumb.running = true ∧ s.fab.plumb.withdrawn = false ∧
    l.start + 64 ≤ s.fab.plumb.time % 2000 ∧ s.fab.plumb.time % 2000 + 64 ≤ l.start + l.length ∧ s.fab.plumb.locked = false := by decide +kernel
theorem test_wit_Pps_7 : bit (roomyPorts (lath {}) 0x80000000 [(31, 100)] (pkt 8 2 2 [])) 31 = true := by decide +kernel
theorem test_wit_Pps_6 : let g : Grout := { (default : Grout) with tag := 65535 }
    let l : Lane := ⟨0, 0, 0, 0, 128, 0⟩
    let s := lath { lanes := [(15, l)], grouts := [g], plumb := { running := true, locked := true, time := 2064 } }
    tlook s.fab.lanes 15 = some l ∧ live s = true ∧ l.start + 64 ≤ s.fab.plumb.time % 2000 ∧ s.fab.plumb.time % 2000 + 64 ≤ l.start + l.length ∧
    s.fab.plumb.withdrawn = false ∧ s.fab.plumb.locked = true ∧
    (laneAborts s l.partition l.group l.portMask ((upPorts s l.portMask).map (fun q =>
      (q, (l.start + l.length - 64 - s.fab.plumb.time % 2000) * 100)))).2.fab.grouts.filter
        (fun g => g.partition == l.partition && g.group == l.group) = [g] := by
  decide +kernel
/-! ## Witnesses: domains, timed units, sessions -/

/-- A membership record that names one node. -/
def record (epoch node : Nat) : MembRecord :=
  ⟨epoch, [⟨node, 0, true, epoch, 0, 0, some ⟨77, 0, epoch, 0, [], none⟩⟩], [node], [node], []⟩
theorem test_wit_Epochs_1 : let r := vc4Accept (member {} {}) (vc4 0x1B (z 16)) 0x1B
    r.1 = true ∧ (record 2 7).epoch ≠ r.2.fab.member.epoch + 1 := by decide +kernel
theorem test_wit_Epochs_2 : let r := vc4Accept (member {} {}) (vc4 0x1B (z 4096)) 0x1B
    r.1 = true ∧ r.2.fab.member.isMember = true ∧ firstLive r.2 r.2.fab.member.coordinators = some 65535 ∧
    (record 1 7).epoch = r.2.fab.member.epoch + 1 ∧ tooMany r.2 (mapAfter r.2.fab.nodes (record 1 7).nodes) = false ∧
    (record 1 7).nodes.all (entryOk r.2 1) = true := by decide +kernel
/-- The same record without its admission record. -/
def unadmitted : MembRecord := { record 1 7 with nodes := (record 1 7).nodes.map (fun c => { c with admission := none }) }
theorem test_wit_Epochs_2b : let r := vc4Accept (member {} {}) (vc4 0x1B (z 4096)) 0x1B
    r.1 = true ∧ r.2.fab.member.isMember = true ∧ firstLive r.2 r.2.fab.member.coordinators = some 65535 ∧
    unadmitted.epoch = r.2.fab.member.epoch + 1 ∧ unadmitted.nodes.all (entryOk r.2 1) = false := by decide +kernel
theorem test_wit_Epochs_2c : let m := member {} {}
    let s := { m with sp := { m.sp with slots := [(250, { cls := 7, state := .loaded, limit := 5, uses := 5 })] } }
    let r := vc4Accept s (vc4 0x1B (z 4096)) 0x1B
    r.1 = true ∧ (record 1 7).nodes.all (entryOk r.2 1) = true ∧ (useSlot r.2 (0xFA + r.2.fab.member.coordinators.idxOf 65535) 7 0).1 = .keyExhausted ∧
    (useSlot (vc4Accept m (vc4 0x1B (z 4096)) 0x1B).2 250 7 0).1 ≠ .keyExhausted := by decide +kernel
theorem test_wit_Epochs_3 : ((record 1 7).nodes.map (·.node)).Nodup ∧ 8 ∉ (record 1 7).nodes.map (·.node) := by decide
/-- The coordinator, whose update of epoch 0 is outstanding since 1 ns. -/
def coordinator : State := { member { coordinators := [65535], sentAt := some 1 } {} with
  ns := 1000001, fab := { (member {} {}).fab with
    member := { isMember := true, node := 65535, key := some 0, coordinators := [65535], sentAt := some 1 } } }
theorem test_wit_Epochs_4 : let r := vc4Accept coordinator (vc4 0x1C (z 8)) 0x1C
    r.1 = true ∧ isCoordinator r.2 = true ∧ r.2.fab.member.sentAt.isSome = true ∧ le (z 8) 4 4 = r.2.fab.member.epoch ∧ le (z 8) 0 4 = 0 ∧
    65535 ∉ r.2.fab.member.acks := by decide +kernel
theorem test_wit_Epochs_5 : coordinator.fab.member.sentAt = some 1 ∧ 1 + 1000000 ≤ coordinator.ns := by decide +kernel
theorem test_wit_Epochs_6 : (vc4Accept (member {} {}) ⟨31, false, (vc4 0x1B (z 16)).pkt⟩ 0x1B).1 = false := by decide +kernel

/-- A served, finished and signed connection 1 of a class. -/
def conn (c : ReqClass) : Spdm := { cls := c, finished := true, pqSigned := true }
theorem test_wit_Vendor (c : ReqClass) : Vendor (atWork c) 1 (conn c) := by
  refine ⟨⟨rfl, ?_, rfl⟩, rfl, rfl, rfl, rfl, rfl⟩
  show (lcState 0xFFFFFFFFF#64 == 5 || lcState 0xFFFFFFFFF#64 == 7) = false
  decide
theorem test_wit_Domains_1 : let s := { coordinator with
      fab := { coordinator.fab with member := { coordinator.fab.member with sentAt := none } } }
    Vendor s 1 (conn .driver) ∧ isIssuer s (conn .driver) = true ∧ isCoordinator s = true ∧ (record 1 7).epoch = s.fab.member.epoch + 1 ∧
    tooMany s (mapAfter s.fab.nodes (record 1 7).nodes) = false ∧ (record 1 7).nodes.all (entryOk s 1) = true ∧
    s.fab.member.asked = none ∧ drbgOk s = true ∧ s.fab.member.sentAt = none := by unfold Vendor SpServes; decide +kernel
theorem test_wit_Domains_1b : Vendor coordinator 1 (conn .driver) ∧ coordinator.fab.member.sentAt = some 1 := by
  unfold Vendor SpServes; decide +kernel
theorem test_wit_Domains_2 : let s := atWork .driver
    let r := record 1 65535
    Vendor s 1 (conn .driver) ∧ isIssuer s (conn .driver) = true ∧ r.grandmasters.contains 65535 = true ∧ r.coordinators.contains 65535 = true ∧
    r.nodes.any (fun c => c.node == 65535 && c.member) = true ∧ outsideDomain s = true ∧ tooMany s (mapAfter [] r.nodes) = false ∧
    drbgOk s = true := by unfold Vendor SpServes; decide +kernel
theorem test_wit_Domains_3 : let s := atWork (.peer 5)
    let r := record 4294967295 65535
    Vendor s 1 (conn (.peer 5)) ∧ isPeer (conn (.peer 5)) = true ∧ outsideDomain s = true ∧ tooMany s (mapAfter [] r.nodes) = false ∧
    r.nodes.any (fun c => c.node == 65535 && c.member && c.phys == s.fab.member.phys && c.admitEpoch == r.epoch) = true := by
  unfold Vendor SpServes; decide +kernel

theorem test_wit_Timed_1 : let g : Grout := { (default : Grout) with tag := 65535, targets := [⟨65535, [], 0, some 1⟩] }
    let g := { g with count := 4096 }
    let gr : Group := { (default : Group) with slotHold := 100 }
    let s := { lath { grouts := [g], groups := [(0, gr)], plumb := { locked := true } } with
      ns := 25001 }
    groutOf s 0 0 65535 = some g ∧ groupOf s 0 0 = some gr ∧ g.targets.find? (fun t => t.pos == 65535) = some ⟨65535, [], 0, some 1⟩ ∧
    1 + gr.slotHold * 250 ≤ s.ns ∧ s.fab.plumb.locked = true ∧
    g.outbox.any (fun p => p.asub == 3 && posOf gr p.dstNode == 65535) = false := by decide +kernel
theorem test_wit_Timed_2 : let r : RxStream := { (default : RxStream) with pos := 65535, lease := some (65535, 0, 1) }
    let g : Grout := { (default : Grout) with count := 4096, streams := [r] }
    let s := lath { grouts := [g], plumb := { time := 10002 } }
    groutOf s 0 0 0 = some g ∧ g.streams.find? (fun r => r.pos == 65535) = some r ∧ r.expects g = true ∧ r.lease = some (65535, 0, 1) ∧ 1 + 10000 < s.fab.plumb.time := by decide +kernel
theorem test_wit_Timed_3 : let s := lath { trowel := some { (default : Trowel) with op := 3 } }
    s.fab.trowel = some { (default : Trowel) with op := 3 } ∧ (default : Trowel).sealing = false ∧ s.pow.dustSheet = false ∧
    dieWaits s hubDie = false := by decide +kernel
theorem test_wit_Timed_4 : let s : State := { ns := monWindow 10 }
    (monOf s 10).since + monWindow 10 ≤ s.ns := by decide +kernel
theorem test_wit_Timed_5 : let r : LevelRecord := default
    let l : Level := { (default : Level) with own := [r], heard := 1 }
    let s : State := { ns := 10000001, parts := [(31, { level := some l })] }
    (partOf s 31).level = some l ∧ l.own = [r] ∧ (silentEntry s 31 l).isSome = true ∧ l.heard + 10000000 ≤ s.ns := by decide +kernel
theorem test_wit_Timed_5b : let r : LevelRecord := default
    let l : Level := { (default : Level) with theirs := [r], heard := 1 }
    let s : State := { ns := 10000001, parts := [(31, { level := some l })] }
    (partOf s 31).level = some l ∧ l.own = [] ∧ l.theirs = [r] ∧ (silentEntry s 31 l).isSome = true ∧ l.heard + 10000000 ≤ s.ns := by decide +kernel

/-- The manifest of a session: eight owners, the first with identity 5; one memory role and one Lath role. -/
def aManifest : Manifest :=
  { (default : Manifest) with
    owners := 8, kMembers := 1, maxMembers := 2, ownerIds := [5, 6], fw := [0], grades := 1, authority := 1
    roles := [⟨0, 0, 0⟩, ⟨2, 0, 6⟩], rules := [⟨0, 0, 0, 1, 1, 1⟩] }
/-- A session of that manifest in partition 0. -/
def aSession (st : SesState) (founder : Bool) : Session :=
  { (default : Session) with id := 77, state := st, founder := founder, manifest := aManifest, ss := if founder then some 1 else none }
/-- The module of `mapped` with session 2 and a connection of a class. -/
def inSession (c : ReqClass) (x : Session) : State :=
  { mapped [] with
    sp := { (mapped []).sp with spdm := [(1, conn c)], sessions := [(2, x)] } }
theorem test_wit_Sessions_2 : let x := aSession .pending true
    let s := inSession (.owner 5) x
    Vendor s 1 (conn (.owner 5)) ∧ sesOf s 2 = some x ∧ x.state ≠ .ended ∧ 7 < x.manifest.owners ∧ x.manifest.kMembers ≤ 1 ∧
    x.founder = true ∧ x.state = .pending ∧ (rootBank s).isSome = true := by
  unfold Vendor SpServes; decide +kernel
theorem test_wit_Sessions_4 : let x := aSession .pending false
    let s := inSession (.peer 9) x
    Vendor s 1 (conn (.peer 9)) ∧ sesOf s 2 = some x ∧ x.state = .pending ∧ isPeer (conn (.peer 9)) = true ∧ x.founder = false ∧
    ({ (default : Report) with sessionId := 77 } : Report).sessionId = x.id ∧ drbgOk s = true ∧
    (rootBank s).isSome = true := by unfold Vendor SpServes; decide +kernel
theorem test_wit_Sessions_5 : let x := aSession .running true
    let s := inSession (.owner 6) x
    Vendor s 1 (conn (.owner 6)) ∧ sesOf s 2 = some x ∧ x.state ≠ .ended ∧ ownsSession s (conn (.owner 6)) 2 = true ∧ (rootBank s).isSome = true ∧
    (partOf s x.partition).log.length + measOwed s x.partition < 65536 := by
  unfold Vendor SpServes; decide +kernel
theorem test_wit_Sessions_5b : let s : State := { parts := [(0, { log := List.replicate 65536 default })] }
    65536 ≤ (partOf s 0).log.length + measOwed s 0 := by
  intro s
  have h : (partOf s 0).log.length = 65536 := List.length_replicate
  exact h ▸ Nat.le_add_right _ _
theorem test_wit_Sessions_6 : let s : State := { sp := { nextSession := 65536 } }
    65536 ≤ s.sp.nextSession ∧ localId s ≠ 0 := by
  refine ⟨Nat.le_refl _, ?_⟩
  unfold localId
  rw [if_neg (by decide)]
  cases h : ((List.range 65535).map (· + 1)).find? (fun i => (sesOf { sp := { nextSession := 65536 } } i).isNone) with
  | none => exact absurd rfl (List.find?_eq_none.1 h 1 (by simp))
  | some i =>
    obtain ⟨j, _, rfl⟩ := List.mem_map.1 (List.mem_of_find?_eq_some h)
    exact Nat.succ_ne_zero j
theorem test_wit_Releases_1 : let x := aSession .running true
    let s := inSession (.owner 5) x
    Vendor s 1 (conn (.owner 5)) ∧ sesOf s 2 = some x ∧ ownerIndex (conn (.owner 5)) x.manifest = some x.manifest.operator ∧
    x.manifest.rules[0]? = some ⟨0, 0, 0, 1, 1, 1⟩ ∧ x.state = .running ∧ (ctxOf s 1).session = 2 ∧ (ctxOf s 1).live = true ∧
    commandKeyOk s 1 9 = true ∧ (keyOf s 9).role = 0 ∧ 4096 ≤ 1 * 4096 ∧ (x.tickets.filter (fun t => !t.complete)).length < 16 ∧
    drbgOk s = true ∧ freeSlot s = some 0xD7 ∧ (vread s 1 9 0 4096).1 = .ok := by unfold Vendor SpServes; decide +kernel
theorem test_wit_Releases_2 : let t : Ticket := { (default : Ticket) with id := 3, complete := true }
    let x := { aSession .running true with tickets := [t] }
    let s := inSession (.owner 5) x
    let r := (x.manifest.rules[t.rule]?).getD ⟨0, 0, 0, 0, 0, 0⟩
    Vendor s 1 (conn (.owner 5)) ∧ isOwner (conn (.owner 5)) = true ∧ sesOf s 2 = some x ∧ x.tickets.find? (fun t => t.id == 3) = some t ∧
    x.state ≠ .ended ∧ ownerIndex (conn (.owner 5)) x.manifest = some (recipient x.manifest r) ∧ t.complete = true ∧ r.dest = 0 := by
  unfold Vendor SpServes; decide +kernel
theorem test_wit_Releases_2b : let t : Ticket := { (default : Ticket) with id := 3 }
    let x := { aSession .running true with tickets := [t] }
    x.tickets.find? (fun t => t.id == 3) = some t ∧ t.complete = false := by decide +kernel
theorem test_wit_Releases_3 : let s := inSession .driver (aSession .running true)
    Vendor s 1 (conn .driver) ∧ isIssuer s (conn .driver) = true ∧ (partOf s 0).live = true ∧ 65534 ≠ 0xFFFF ∧ 2 ^ 48 ≤ 281474976710656 := by
  unfold Vendor SpServes; decide +kernel
theorem test_wit_Releases_5 : let x := { aSession .running true with members := [(65534, 0)] }
    let s := inSession .driver x
    Vendor s 1 (conn .driver) ∧ isIssuer s (conn .driver) = true ∧ (partOf s 0).live = true ∧
    s.sp.sessions.any (fun x => x.2.partition == 0 && x.2.state == .running && x.2.members.any (fun m => m.1 == 65534)) = true ∧
    (keyOf s 9).cls = 0 ∧ (keyOf s 9).state ≠ .free ∧ keyInRange s 0 9 = true := by unfold Vendor SpServes; decide +kernel
/-! ## Witnesses: windows, groups, slots, key contexts, checkpoints -/

theorem test_wit_Sessions_3 : let x := aSession .running true
    let r : Report := ⟨true, 0, 0, 1, 0, true, 65534, 0, 6, 77⟩
    let s := { inSession (.peer 6) x with
      fab := { member := { admitted := [(65534, 0, 0, 6)] } } }
    Vendor s 1 (conn (.peer 6)) ∧ sesOf s 2 = some x ∧ x.state = .running ∧ reportOk x r = true ∧ admitted s x r = true ∧
    (r.node, r.identity) ∉ x.members ∧ x.members.length < x.manifest.maxMembers ∧
    (rootBank s).isSome = true := by unfold Vendor SpServes; decide +kernel
/-- A window entry: every right, partition 0, context 1, session 2, keys 6 and 9, counter 4, base 0, 64 GiB. -/
def windowBytes : Bytes := leBytes 4 0x3F ++ leBytes 4 0x20001 ++ leBytes 4 0x00040906 ++ z 12 ++ leBytes 8 0x1000000000 ++ z 32
theorem test_wit_Windows_1 : let s := inSession .driver (aSession .running true)
    let w := { aWindow with size := 0x1000000000 }
    Vendor s 1 (conn .driver) ∧ isIssuer s (conn .driver) = true ∧ decodeWindow windowBytes = some w ∧ (ctxOf s w.context).live = true ∧
    (ctxOf s w.context).partition = w.partition ∧ (ctxOf s w.context).session = w.session ∧ w.lkey % 2 = 0 ∧
    isLathOf s w.session w.lkey = true ∧ isLathOf s w.session (w.lkey + 1) = true ∧ keyInRange s w.partition w.mkey = true ∧
    (keyOf s w.mkey).cls = 0 ∧ (tlook s.fab.arrivals w.counter).isNone = true ∧ (tlook s.fab.windows 4094).isNone = true := by
  unfold Vendor SpServes; decide +kernel
theorem test_wit_Windows_2 : Vendor (lath {}) 1 (conn .driver) ∧ isIssuer (lath {}) (conn .driver) = true ∧
    tlook (lath {}).fab.windows 5 = some aWindow := by unfold Vendor SpServes; decide +kernel
/-- The operands of a GROUP_OPEN: group 4,095, context 1, one member, list and staging area at address 0 under key 9, hold 100. -/
def groupBytes : Bytes := leBytes 4 4095 ++ leBytes 4 1 ++ leBytes 4 1 ++ [6, 9, 1, 0] ++ z 24 ++ leBytes 4 100 ++ z 4
theorem test_wit_Groups_1 : let s := inSession .driver (aSession .running true)
    Vendor s 1 (conn .driver) ∧ isIssuer s (conn .driver) = true ∧ groupFieldsOk groupBytes = true ∧ (ctxOf s 1).live = true ∧
    (ctxOf s 1).partition = 0 ∧ (keyOf s 9).cls = 0 ∧ (keyOf s 9).state ≠ .free ∧ (keyOf s 9).partition = 0 ∧
    (∀ acc ∈ [Acc.read, Acc.write], vcheck s 1 9 0 2 acc = .ok ∧ vcheck s 1 9 0 0 acc = .ok) ∧
    (vread s 1 9 0 2).1 = .ok ∧ le (vread s 1 9 0 2).2.1 0 2 = 0 ∧ [0].contains s.fab.member.node = true ∧
    isLathOf s (ctxOf s 1).session 6 = true ∧ isLathOf s (ctxOf s 1).session 7 = true ∧ (groupOf s 0 4095).isNone = true ∧
    bits (le groupBytes 12 4) 28 16 * log2up 1 * 131072 ≤ le groupBytes 32 8 ∧ bits (le groupBytes 40 4) 24 20 = 0 ∧
    ((s.fab.groups.filter (fun g => g.1 / 4096 == 0)).map (fun g => g.2.members.length)).foldl (· + ·) 0 + 1 ≤ 1048576 := by
  unfold Vendor SpServes; decide +kernel
theorem test_wit_Groups_2 : let s := lath { groups := [(4095, default)], grouts := [{ (default : Grout) with group := 4095 }] }
    Vendor s 1 (conn .driver) ∧ isIssuer s (conn .driver) = true ∧ (groupOf s 0 4095).isSome = true ∧ groupBusy s 0 4095 = true := by
  unfold Vendor SpServes; decide +kernel
theorem test_wit_Groups_2b : let s := lath { groups := [(4095, default)] }
    Vendor s 1 (conn .driver) ∧ isIssuer s (conn .driver) = true ∧ (groupOf s 0 4095).isSome = true ∧ groupBusy s 0 4095 = false := by
  unfold Vendor SpServes; decide +kernel

/-- The module in session 2, with other slots and key contexts. -/
def withKeys (c : ReqClass) (slots : Tab Slot) (keys : Tab KeyCtx) : State :=
  { inSession c (aSession .running true) with
    sp := { (inSession c (aSession .running true)).sp with slots := slots, keyCtxs := keys } }
theorem test_wit_Slots_1 : let s := withKeys (.owner 6) [] []
    Vendor s 1 (conn (.owner 6)) ∧ isOwner (conn (.owner 6)) = true ∧ sesOf s 2 = some (aSession .running true) ∧
    ownerIndex (conn (.owner 6)) aManifest = some 1 ∧ (aSession .running true).state ≠ .ended ∧ (slotOf s 0xD7).state = .empty ∧
    drbgOk s = true := by unfold Vendor SpServes; decide +kernel
theorem test_wit_Slots_2 : let s := withKeys (.owner 6) [(0xD7, { state := .loaded, cls := 3, session := 2, owner := 1 })] []
    Vendor s 1 (conn (.owner 6)) ∧ isOwner (conn (.owner 6)) = true ∧ sesOf s (slotOf s 0xD7).session = some (aSession .running true) ∧
    ownerIndex (conn (.owner 6)) aManifest = some (slotOf s 0xD7).owner ∧ (slotOf s 0xD7).cls = 3 ∧ (slotOf s 0xD7).state = .loaded := by
  unfold Vendor SpServes; decide +kernel
theorem test_wit_Slots_3 : let s : State := { sp := { slots := [(255, { state := .erasing })] } }
    (slotOf s 255).state = .erasing ∧ (slotOf s 255).bound = 0 := by decide +kernel
theorem test_wit_Slots_4 : spRuns (atWork .driver) = true ∧ drbgOk (atWork .driver) = true := by decide +kernel
theorem test_wit_Keys_1 : let s := withKeys .driver [] []
    Vendor s 1 (conn .driver) ∧ isIssuer s (conn .driver) = true ∧ sesOf s 2 = some (aSession .running true) ∧
    aManifest.roles[0]? = some ⟨0, 0, 0⟩ ∧ (aSession .running true).state ≠ .ended ∧
    (aSession .running true).partition = 0 ∧ keyInRange s 0 200 = true ∧ (keyOf s 200).state = .free ∧ drbgOk s = true ∧ freeSlot s = some 0xD7 := by
  unfold Vendor SpServes; decide +kernel
theorem test_wit_Keys_2 : let s := withKeys .driver [] []
    Vendor s 1 (conn .driver) ∧ isIssuer s (conn .driver) = true ∧ sesOf s 2 = some (aSession .running true) ∧
    aManifest.roles[1]? = some ⟨2, 0, 6⟩ ∧ (aSession .running true).state ≠ .ended ∧ (aSession .running true).partition = 0 ∧
    keyInRange s 0 6 = true ∧ keyInRange s 0 7 = true ∧ (keyOf s 6).state = .free ∧ (keyOf s 7).state = .free ∧ drbgOk s = true ∧
    (aSession .running true).ss = some 1 ∧ 2 ≤ emptySlots s := by unfold Vendor SpServes; decide +kernel
theorem test_wit_Keys_2b : let s := withKeys .driver [] []
    (freeSlot s).isSome = true ∧ sesOf s 2 = some (aSession .running true) := by decide +kernel
theorem test_wit_Keys_3 : let s := withKeys .driver [] [(255, { state := .active })]
    Vendor s 1 (conn .driver) ∧ isIssuer s (conn .driver) = true ∧ (keyOf s 255).state ≠ .free := by unfold Vendor SpServes; decide +kernel
theorem test_wit_Keys_4 : let s := withKeys .driver [] [(7, { state := .active, cls := 2, session := 2, roll := 3 })]
    Vendor s 1 (conn .driver) ∧ isIssuer s (conn .driver) = true ∧ sesOf s 2 = some (aSession .running true) ∧
    lathRole (aSession .running true) 1 = some ⟨2, 0, 6⟩ ∧ (aSession .running true).ss = some 1 ∧ (aSession .running true).state ≠ .ended ∧
    pairActive s 6 = some 7 ∧ (keyOf s 7).session = 2 ∧ (keyOf s 6).state = .free ∧ (freeSlot s).isSome = true ∧ drbgOk s = true := by
  unfold Vendor SpServes; decide +kernel
theorem test_wit_Keys_4b : let k : KeyCtx := { state := .active, cls := 2, session := 2 }
    let s := withKeys .driver [] [(6, k), (7, { k with roll := 1 })]
    Vendor s 1 (conn .driver) ∧ isIssuer s (conn .driver) = true ∧ sesOf s 2 = some (aSession .running true) ∧
    lathRole (aSession .running true) 1 = some ⟨2, 0, 6⟩ ∧ (aSession .running true).ss = some 1 ∧ (aSession .running true).state ≠ .ended ∧
    pairActive s 6 = some 7 ∧ (keyOf s 7).session = 2 ∧ (keyOf s 6).state = .active := by unfold Vendor SpServes; decide +kernel
theorem test_wit_Keys_5 : let s := withKeys (.owner 5) [] [(255, { state := .active, cls := 1, session := 2 })]
    Vendor s 1 (conn (.owner 5)) ∧ ownsSession s (conn (.owner 5)) (keyOf s 255).session = true ∧ (keyOf s 255).state = .active ∧
    memClass (keyOf s 255) = true := by unfold Vendor SpServes; decide +kernel

/-- A region entry: 64 KiB at address 0 under key 9, its list at 0x10000. -/
def regionBytes : Bytes := z 6 ++ [9, 0] ++ leBytes 8 65536 ++ leBytes 8 65536 ++ z 8
/-- The operands of a FULL capture of that region under slot 16, to memory. -/
def captureBytes : Bytes := leBytes 4 1 ++ [0, 16] ++ z 10 ++ leBytes 8 (2 ^ 64 - 1) ++ z 16 ++ leBytes 8 (2 ^ 40) ++ regionBytes
/-- The session with its checkpoint key in slot 16. -/
def ckptState : State := withKeys .driver [(16, { cls := 5, state := .loaded, session := 2, limit := 100 })] (mapped []).sp.keyCtxs
theorem capture_fields : captureFieldsOk ckptState (aSession .running true) captureBytes = true := by decide +kernel
/-- Every line of a range translates: the range can be accessed. -/
theorem vcheck_of_all (s : State) (ctx key va n : Nat) (acc : Acc)
    (h : (linesOf va n).all (fun v => (translate s hubAgent ctx v key acc).1 == .ok) = true) : vcheck s ctx key va n acc = .ok := by
  have aux : ∀ l : List Nat, l.all (fun v => (translate s hubAgent ctx v key acc).1 == .ok) = true →
      (l.map (fun v => (translate s hubAgent ctx v key acc).1)).foldl (fun a b => if a = .ok then b else a) Status.ok = .ok := by
    intro l
    induction l with
    | nil => intro _; rfl
    | cons v l ih =>
      intro hl
      rw [List.all_cons, Bool.and_eq_true, beq_iff_eq] at hl
      rw [List.map_cons, List.foldl_cons, if_pos rfl, hl.1]
      exact ih hl.2
  exact aux _ h
/-- The region can be read and written. -/
theorem region_access (acc : Acc) : vcheck ckptState 1 9 0 65536 acc = .ok :=
  vcheck_of_all _ _ _ _ _ _ (by cases acc <;> decide +kernel)
theorem ckpt_region : captureRegions captureBytes = [⟨0, 9, 65536, 65536, 0⟩] := by decide +kernel
theorem capture_allowed : captureAllowed ckptState 2 captureBytes = true := by
  have hc : capContext captureBytes = 1 := by decide +kernel
  unfold captureAllowed
  simp only [ckpt_region, hc, List.all_cons, List.all_nil, region_access, Bool.and_eq_true]
  repeat' apply And.intro
  all_goals decide +kernel
theorem test_wit_Ckpt_1 : let x := aSession .running true
    Vendor ckptState 1 (conn .driver) ∧ isIssuer ckptState (conn .driver) = true ∧ sesOf ckptState 2 = some x ∧ x.state ≠ .ended ∧
    x.ckptBusy = false ∧ captureFieldsOk ckptState x captureBytes = true ∧ captureAllowed ckptState 2 captureBytes = true ∧
    diffBaseOk x captureBytes = true ∧ drbgOk ckptState = true ∧ (rootBank ckptState).isSome = true ∧
    (slotOf ckptState (capSlot captureBytes)).uses < (slotOf ckptState (capSlot captureBytes)).limit ∧ capStepVa captureBytes = 0 :=
  ⟨by unfold Vendor SpServes; decide +kernel, by decide +kernel, rfl, by decide +kernel, rfl, capture_fields, capture_allowed, by decide +kernel,
    by decide +kernel, by decide +kernel, by decide +kernel, by decide +kernel⟩
/-- The session of number `n` as it stands at `x`. -/
def ckptAt (n : Nat) (x : Session) : State := { ckptState with
  sp := { ckptState.sp with sessions := [(n, x)] } }
theorem test_wit_Ckpt_1b : let x := { aSession .running true with ckptBusy := true }
    Vendor (ckptAt 2 x) 1 (conn .driver) ∧ isIssuer (ckptAt 2 x) (conn .driver) = true ∧ sesOf (ckptAt 2 x) 2 = some x ∧ x.state ≠ .ended ∧
    x.ckptBusy = true := by unfold Vendor SpServes; decide +kernel
theorem test_wit_Ckpt_1c : let x := aSession .running true
    captureFieldsOk ckptState x [] = false ∧ sesOf (ckptAt 3 x) 3 = some x ∧ Vendor (ckptAt 3 x) 1 (conn .driver) ∧
    isIssuer (ckptAt 3 x) (conn .driver) = true ∧ captureFieldsOk (ckptAt 3 x) x captureBytes = true ∧
    captureAllowed (ckptAt 3 x) 3 captureBytes = false := by unfold Vendor SpServes; decide +kernel
/-- The operands of a DIFF of that region over a capture of number 5. -/
def diffBytes : Bytes := leBytes 4 0x1001 ++ [0, 16] ++ z 10 ++ leBytes 8 5 ++ z 16 ++ leBytes 8 (2 ^ 40) ++ regionBytes
theorem test_wit_Ckpt_1d : let x := aSession .running true
    captureFieldsOk ckptState x diffBytes = true ∧ captureAllowed ckptState 2 diffBytes = true ∧ diffBaseOk x diffBytes = false := by
  have hr : captureRegions diffBytes = [⟨0, 9, 65536, 65536, 0⟩] := by decide +kernel
  have hc : capContext diffBytes = 1 := by decide +kernel
  refine ⟨by decide +kernel, ?_, by decide +kernel⟩
  unfold captureAllowed
  simp only [hr, hc, List.all_cons, List.all_nil, region_access, Bool.and_eq_true]
  repeat' apply And.intro
  all_goals decide +kernel
/-- A capture under way. -/
def aCapture : Capture := { operands := captureBytes, aad := z 16, ck := 0, step := 0, picks := [[0]], cleared := [8388608] }
theorem test_wit_Ckpt_2 : let x := { aSession .running true with ckptBusy := true, capture := some aCapture }
    sesOf (ckptAt 2 x) 2 = some x ∧ x.capture = some aCapture := by decide +kernel
theorem test_wit_Ckpt_3 : let c := { aCapture with final := some (default, 100, 0) }
    let x := { aSession .running true with ckptBusy := true, capture := some c }
    let s := ckptAt 2 x
    sesOf s 2 = some x ∧ x.capture = some c ∧ c.link.failed = none ∧ c.link.idle = true ∧ c.final = some (default, 100, 0) ∧
    s.pow.dustSheet = false ∧ dieWaits s hubDie = false := by decide +kernel
/-- An image in host memory signed by member 5. -/
def aSource : CkptSource := ⟨0, 0, 0, 0, [], true, 5⟩
/-- The session with that member. -/
def restSession : Session := { aSession .running true with members := [(0, 5)] }
theorem test_wit_Ckpt_4 : let s := ckptAt 2 restSession
    Vendor s 1 (conn .driver) ∧ isIssuer s (conn .driver) = true ∧ sesOf s 2 = some restSession ∧ restSession.state ≠ .ended ∧
    restSession.ckptBusy = false ∧ restoreOperandsOk [] aSource = false ∧ restoreOperandsOk regionBytes aSource = true ∧ boundContext s 2 1 = true ∧
    placeKeyOk s 2 aSource.source aSource.key = true ∧ boundContext s 2 0 = false := by unfold Vendor SpServes; decide +kernel
/-- A restore whose manifest has not been read. -/
def aRestore : Restore := { verify := false, context := 1, targets := regionBytes, source := aSource }
/-- The module with a restore under way. -/
def restAt (r : Restore) : State := ckptAt 2 { restSession with ckptBusy := true, restore := some r }
/-- The manifest of a FULL (0) or DIFF (1) image of session 2 with one region of one granule, its key wrapped as zeros. -/
def aManifestOf (kind : Nat) : Bytes :=
  leBytes 4 0x5A434B31 ++ leBytes 4 (1 + kind * 65536) ++ leBytes 2 2 ++ z 22 ++ leBytes 8 (2 ^ 64 - 1) ++ z 16 ++ leBytes 8 77 ++ z 200 ++
    leBytes 4 1 ++ z 4852
theorem restore_fields : restoreFieldsOk (restAt aRestore) 1 regionBytes (aManifestOf 0) = true ∧
    restoreFieldsOk (restAt aRestore) 1 regionBytes (aManifestOf 1) = true := by decide +kernel
theorem restore_allowed (kind : Nat) (h : kind = 0 ∨ kind = 1) :
    restoreAllowed (restAt aRestore) 2 { restSession with ckptBusy := true, restore := some aRestore } 1 regionBytes aSource (aManifestOf kind) = some 16 := by
  have ht : targetsOf regionBytes = [⟨0, 9, 65536, 65536, 0⟩] := by decide +kernel
  have hv : vcheck (restAt aRestore) 1 9 0 65536 .write = .ok := vcheck_of_all _ _ _ _ _ _ (by decide +kernel)
  have hs : wrapSlot (restAt aRestore) 2 = some 16 := by decide +kernel
  unfold restoreAllowed
  rw [hs, ht]
  simp only [List.all_cons, List.all_nil, hv]
  rcases h with rfl | rfl <;> exact if_pos (by decide +kernel)
theorem test_wit_Ckpt_5 : let v := { restSession with ckptBusy := true, restore := some aRestore }
    let s := restAt aRestore
    sesOf s 2 = some v ∧ v.capture = none ∧ v.restore = some aRestore ∧ aRestore.manifest = [] ∧ restoreFieldsOk s 1 regionBytes [] = false ∧
    restoreFieldsOk s 1 regionBytes (aManifestOf 0) = true ∧ restoreFieldsOk s 1 regionBytes (aManifestOf 1) = true ∧
    restoreAllowed s 2 v 1 regionBytes aSource (aManifestOf 0) = some 16 ∧ restoreAllowed s 2 v 1 regionBytes aSource (aManifestOf 1) = some 16 ∧
    (slotOf s 16).state = .loaded ∧ (slotOf s 16).cls = 5 ∧ (slotOf s 16).session = 2 ∧ (slotOf s 16).uses < (slotOf s 16).limit ∧
    restoreBaseOk v 1 regionBytes (aManifestOf 0) = true ∧ restoreBaseOk v 1 regionBytes (aManifestOf 1) = false ∧
    (aesUnwrap (slotKey (slotOf s 16)) (slice (aManifestOf 0) 0x40 40) = none ∨
      ∃ ck, aesUnwrap (slotKey (slotOf s 16)) (slice (aManifestOf 0) 0x40 40) = some ck) := by
  refine ⟨rfl, rfl, rfl, rfl, by decide +kernel, restore_fields.1, restore_fields.2, restore_allowed 0 (.inl rfl), restore_allowed 1 (.inr rfl),
    by decide +kernel, by decide +kernel, by decide +kernel, by decide +kernel, by decide +kernel, by decide +kernel, ?_⟩
  cases aesUnwrap (slotKey (slotOf (restAt aRestore) 16)) (slice (aManifestOf 0) 0x40 40) with
  | none => exact .inl rfl
  | some ck => exact .inr ⟨ck, rfl⟩
theorem test_wit_Ckpt_5b : let r := { aRestore with source := { aSource with sigsOk := false } }
    let v := { restSession with ckptBusy := true, restore := some r }
    sesOf (restAt r) 2 = some v ∧ restoreFieldsOk (restAt r) 1 regionBytes (aManifestOf 0) = true ∧
    restoreAllowed (restAt r) 2 v 1 regionBytes r.source (aManifestOf 0) = none :=
  ⟨rfl, by decide +kernel, if_neg (by decide)⟩
/-- An object of 64 bytes of ciphertext, and what it opens to. -/
def anObject : Bytes := z 64 ++ blockBytes (gcmTag 0 (objectIv 0 0 0) (objectAad (aManifestOf 0)) (z 64)) ++ z 48
def aPlain : Bytes := xorBytes (z 64) (gcmStream 0 (objectIv 0 0 0) 64)
/-- A restore whose Lath source has returned that object for granule 0 of its first region. -/
def granuleRestore (verify : Bool) (entries : List Digest) : Restore :=
  { aRestore with
    verify := verify, manifest := aManifestOf 0, slot := 16, begun := true, entries := entries, todo := [0]
    source := { aSource with source := 1, key := 6 }, link := { got := [(0, anObject)] } }
theorem object_parts (g : Bytes) (h : g.length = 16) :
    (z 64 ++ g ++ z 48).take ((z 64 ++ g ++ z 48).length - 64) = z 64 ∧ slice (z 64 ++ g ++ z 48) ((z 64 ++ g ++ z 48).length - 64) 16 = g := by
  have hl : (z 64 ++ g ++ z 48).length - 64 = 64 := by simp [z, h]
  rw [hl]
  constructor
  · rw [List.append_assoc, List.take_left' (by simp [z])]
  · refine List.ext_getElem (by simp [slice, h]) fun i h1 h2 => ?_
    simp only [slice, List.getElem_map, List.getElem_range, byteAt, List.getD_eq_getElem?_getD]
    rw [List.getElem?_append_left (by simp [z]; omega), List.getElem?_append_right (by simp [z])]
    simp [z, h2]
theorem object_opens : openObject 0 0 0 0 (objectAad (aManifestOf 0)) anObject = some aPlain := by
  obtain ⟨h1, h2⟩ := object_parts (blockBytes (gcmTag 0 (objectIv 0 0 0) (objectAad (aManifestOf 0)) (z 64)))
    (by rw [blockBytes, List.length_reverse, leBytes_length])
  unfold openObject anObject
  rw [h1, h2]
  exact if_pos rfl
theorem object_source (verify : Bool) (entries : List Digest) :
    (sourceBytes (restAt (granuleRestore verify entries)) 2 (granuleRestore verify entries) 0 65600).1 = some (.ok, anObject) := by
  have hp : ∀ s, (readPackets s ((pairActive s 6).getD 6) 0 65600).map (·.offset) = (List.range 17).map (4096 * ·) := by
    intro s
    rw [readPackets, List.map_map]
    show (cutPackets 0 65600).map (fun p => (0 + p.1) % 2 ^ 36) = _
    decide +kernel
  have hf : ∀ (ps : List Packet) (f : Nat → Bytes), ps.flatMap (fun p => f p.offset) = (ps.map (·.offset)).flatMap f := by
    intro ps f; rw [List.flatMap_map]
  unfold sourceBytes
  simp only [granuleRestore, aSource, CkptLink.idle, List.isEmpty_nil, Bool.and_self, Bool.not_true, Bool.false_eq_true, if_false, List.isEmpty_cons,
    Nat.add_zero]
  rw [hf _ (fun o => ((List.find? (fun x => x.1 == o) [((0 : Nat), anObject)]).map (·.2)).getD []), hp]
  generalize anObject = o
  simp [List.range_succ]
theorem test_wit_Ckpt_6 : let r := granuleRestore false []
    (sourceBytes (restAt r) 2 r r.off 65600).1 = some (.ok, anObject) ∧
    openObject r.ck r.region 0 0 (objectAad r.manifest) anObject = some aPlain ∧ r.entries[0]? ≠ some (Config.sha384 aPlain) :=
  ⟨object_source _ _, object_opens, by intro h; cases h⟩
theorem test_wit_Ckpt_7 : let r := granuleRestore false [Config.sha384 aPlain]
    let w := (sourceBytes (restAt r) 2 r r.off 65600).2
    (sourceBytes (restAt r) 2 r r.off 65600).1 = some (.ok, anObject) ∧
    openObject r.ck r.region 0 0 (objectAad r.manifest) anObject = some aPlain ∧ r.entries[0]? = some (Config.sha384 aPlain) ∧ r.verify = false ∧
    (vwrite w r.context 9 0 aPlain ((keyOf w 9).cls == 1)).1 = .ok :=
  ⟨object_source _ _, object_opens, rfl, rfl, by decide +kernel⟩
theorem test_wit_Ckpt_8 : let r := granuleRestore true [Config.sha384 aPlain]
    (sourceBytes (restAt r) 2 r r.off 65600).1 = some (.ok, anObject) ∧
    openObject r.ck r.region 0 0 (objectAad r.manifest) anObject = some aPlain ∧ r.entries[0]? = some (Config.sha384 aPlain) ∧ r.verify = true :=
  ⟨object_source _ _, object_opens, rfl, rfl⟩
theorem test_wit_Ckpt_9 (verify : Bool) : let r := { aRestore with verify := verify, manifest := aManifestOf 0 }
    let v := { restSession with ckptBusy := true, restore := some r }
    sesOf (restAt r) 2 = some v ∧ v.capture = none ∧ v.restore = some r ∧ r.manifest ≠ [] ∧ manifestKind r.manifest ≠ 2 ∧
    (targetsOf r.targets)[r.region]? = some ⟨0, 9, 65536, 65536, 0⟩ ∧ r.source.source = 0 := by
  intro r v
  refine ⟨rfl, rfl, rfl, ?_, ?_, ?_, rfl⟩
  · show aManifestOf 0 ≠ []
    decide +kernel
  · show manifestKind (aManifestOf 0) ≠ 2
    decide +kernel
  · show (targetsOf regionBytes)[0]? = _
    decide +kernel
/-! ## Witnesses: life cycle, entropy, SPDM -/

/-- A little-endian field of a byte string that was laid out there. -/
theorem leVal_leBytes (n v : Nat) : leVal (leBytes n v) = v % 256 ^ n := by
  induction n generalizing v with
  | zero => simp [leBytes, leVal, Nat.mod_one]
  | succ n ih =>
    simp only [leBytes, leVal, ih, BitVec.toNat_ofNat]
    rw [show (2 : Nat) ^ 8 = 256 from rfl, Nat.pow_succ', Nat.mod_mul]
theorem leBytes_length (n v : Nat) : (leBytes n v).length = n := by
  induction n generalizing v with
  | zero => rfl
  | succ n ih => simp [leBytes, ih]
/-- A life-cycle token of this module under nonce 0: kind, target, scope, duration. -/
def aToken (kind target scope dur : Nat) : AuthToken :=
  ⟨leBytes 4 0x5A4C4331 ++ [BitVec.ofNat 8 kind, BitVec.ofNat 8 target, BitVec.ofNat 8 scope, 0] ++ leBytes 4 dur ++ z 4 ++
    leBytes 16 Config.serial.toNat ++ z 4947, true⟩
/-- A module without a root secret in a life-cycle state, under nonce 0 of LC_NONCE or DEBUG_CHALLENGE, with a served connection. -/
def lcModule (word : DWord) (debug : Bool := false) : State :=
  { sp := { entropyOk := true, drbgReady := true, lcWord := word, nonce := some 0, nonceDebug := debug, spdm := [(1, conn .driver)] } }
theorem aToken_serial (k t sc d : Nat) : le (aToken k t sc d).bytes 16 16 = Config.serial.toNat := by
  show leVal (leBytes 16 Config.serial.toNat) = _
  rw [leVal_leBytes]; exact Nat.mod_eq_of_lt Config.serial.isLt
theorem aToken_length (k t sc d : Nat) : (aToken k t sc d).bytes.length = 4979 := by
  simp only [aToken, z, List.length_append, leBytes_length, List.length_replicate, List.length_cons, List.length_nil]
/-- The other checks of a token. -/
def tokenRest (s : State) (t : AuthToken) (kind : Nat) : Bool :=
  let b := t.bytes
  t.sigsOk && le b 0 4 == 0x5A4C4331 && le b 4 1 == kind && le b 7 1 == 0 && le b 0x0C 4 == 0 && bits (le b 0x70 4) 31 3 == 0
    && le b 0x74 4 == 0 && le b 0xB0 80 == 0 && le b 0x80 48 == 0 && (rootBank s).isNone && le b 0x50 32 == 0
    && (kind != 2 || (decide (1 ≤ le b 8 4) && decide (le b 8 4 ≤ 86400)))
theorem tokenOk_of_rest (s : State) (k t sc d : Nat) (hn : s.sp.nonce = some 0) (hd : s.sp.nonceDebug = (k == 2)) (h : tokenRest s (aToken k t sc d) k = true) :
    tokenOk s (aToken k t sc d) k = true := by
  simp only [tokenRest, Bool.and_eq_true, beq_iff_eq] at h
  simp only [tokenOk, presents, aToken_serial, aToken_length, hn, hd]
  simp_all
theorem test_wit_Vendor_lc (word : DWord) (debug : Bool) (h : lcState word ≠ 5 ∧ lcState word ≠ 7) : Vendor (lcModule word debug) 1 (conn .driver) := by
  refine ⟨⟨rfl, ?_, rfl⟩, rfl, rfl, rfl, rfl, rfl⟩
  simp [lcHalted, lcModule, h]
theorem test_wit_LifeCycleBits_2 : let s := lcModule 0
    Vendor s 1 (conn .driver) ∧ transition (lcState s.sp.lcWord) (le (aToken 1 0 0 0).bytes 5 1) = false ∧
    transition (lcState s.sp.lcWord) 5 = false :=
  ⟨test_wit_Vendor_lc 0 _ (by decide), by decide +kernel⟩
theorem test_wit_LifeCycle_1 : let s := lcModule 1
    spRuns s = true ∧ lcHalted s = true ∧ s.sp.programming = none := by decide +kernel
theorem test_wit_LifeCycle_2 : drbgOk (lcModule 0) = true := by decide
theorem test_wit_LifeCycle_3 : let s := lcModule 0
    let t := aToken 1 1 0 0
    Vendor s 1 (conn .driver) ∧ tokenOk s t 1 = true ∧ 1 = le t.bytes 5 1 ∧ transition (lcState s.sp.lcWord) 1 = true ∧
    lcCondition (useNonce s) 1 t.bytes = true ∧ mayProgram s = true :=
  ⟨test_wit_Vendor_lc 0 _ (by decide), tokenOk_of_rest _ _ _ _ _ rfl rfl (by decide +kernel), by decide +kernel⟩
theorem test_wit_LifeCycle_5 : let s := lcModule 0
    let t := aToken 9 0 0 0
    presents s t = true ∧ tokenOk s t 1 = false ∧ tokenOk s t 2 = false ∧ tokenOk s t 3 = false := by decide +kernel
/-- State 1 being programmed, at a time, with the bits of a word that stand. -/
def programs (word : DWord) (ns : Nat) : State := { ns := ns, sp := { lcWord := word, programming := some (1, 5) } }
theorem test_wit_LifeCycle_6 : (programs 0 10004).ns < 5 + 10000 ∧ 5 + 10000 ≤ (programs 0 10005).ns ∧ nextBit (programs 1 10005) 1 = some 1 ∧
    nextBit (programs (lcCode 1) 10005) 1 = none := by decide +kernel
theorem test_wit_LifeCycle_4 : let s := { lcModule 0 with
      ns := 600000000001, sp := { (lcModule 0).sp with nonceAt := 1 } }
    s.sp.nonce.isSome = true ∧ s.sp.nonceAt + 600000000000 ≤ s.ns := by decide
theorem test_wit_Debug_1 : let s := lcModule 0xFFFFFF#64 true
    let t := aToken 2 0 2 86400
    Vendor s 1 (conn .driver) ∧ tokenOk s t 2 = true ∧ le t.bytes 6 1 = 2 ∧ killed s = false ∧ lcState s.sp.lcWord = 2 :=
  ⟨test_wit_Vendor_lc _ _ (by decide), tokenOk_of_rest _ _ _ _ _ rfl rfl (by decide +kernel), by decide +kernel⟩
theorem test_wit_Debug_1b : let s := lcModule 0xFFFFFFFFF#64
    lcState s.sp.lcWord = 3 ∧ s.sp.sessions.all (fun x => x.2.state == .ended) = true := by decide
theorem test_wit_Debug_2 : let s := { atWork .platform with
      sp := { (atWork .platform).sp with debugOpen := some (1, 0, 86400, some 1) } }
    Vendor s 1 (conn .platform) ∧ s.sp.debugOpen = some (1, 0, 86400, some 1) := by
  unfold Vendor SpServes; decide +kernel
theorem test_wit_Debug_3 : Vendor (lcModule 0) 1 (conn .driver) ∧ tokenOk (lcModule 0) (aToken 3 0 0 0) 3 = true :=
  ⟨test_wit_Vendor_lc 0 _ (by decide), tokenOk_of_rest _ _ _ _ _ rfl rfl (by decide +kernel)⟩
theorem test_wit_Debug_4 : let s : State := { ns := 86400000000001, sp := { debugOpen := some (2, 1, 86400, none) } }
    s.sp.debugOpen = some (2, 1, 86400, none) ∧ 1 + 86400 * 1000000000 ≤ s.ns := by decide
theorem test_wit_Debug_5 : let s := lcModule 0xFFF#64
    let u := { s with sp := { s.sp with testAccess := true } }
    debugPortOpen s = true ∧ lcState s.sp.lcWord = 1 ∧ debugPortOpen u = true ∧ lcState u.sp.lcWord = 1 ∧ u.sp.testAccess = true ∧
    debugPortOpen (lcModule 0xFFFFFF#64) = false := by decide +kernel
theorem test_wit_Entropy_1 : let s : State := { sp := { startFails := 2 } }
    s.pow.state ≠ .off ∧ s.sp.stopped = false ∧ s.sp.entropyOk = false ∧ (List.range 1024).length = 1024 ∧
    samplesOk (List.range 1024) = true ∧ samplesOk (List.replicate 81 7) = false := by decide +kernel
theorem test_wit_Entropy_2 : (lcModule 0).sp.entropyOk = true ∧ samplesOk (List.replicate 1024 255) = false ∧
    (List.replicate 512 7).length = 512 ∧ 434 ≤ (List.replicate 512 7).count ((List.replicate 512 7).headD 0) := by decide +kernel
theorem test_wit_Entropy_3 : let s : State := { sp := { entropyOk := true, drbgReady := true, generates := 65536 } }
    s.sp.entropyOk = true ∧ s.sp.stopped = false ∧ 65536 ≤ s.sp.generates := by decide
theorem test_wit_Entropy_4 : let s := lcModule 0xFFFFFF#64
    lcState s.sp.lcWord = 2 ∧ (rootBank s).isNone = true ∧ spRuns s = true ∧ drbgOk s = true ∧ s.sp.bankA = 0 := by decide
theorem test_wit_Spdm_1 : SpServes (atWork .driver) ∧ (rootBank (atWork .driver)).isSome = true ∧ (block (atWork .driver) 0x7F).isSome = true ∧
    (block (atWork .driver) 0x80).isNone = true ∧ bit (⟨0x80, 0⟩ : AsymOffer).base 7 = true ∧ bit 0x02 1 = true ∧ bit 0x10 4 = true ∧
    bit (⟨0x02, 0x01, 0⟩ : AeadOffer).aead 1 = true ∧ bit (⟨0x02, 0x01, 0⟩ : AeadOffer).schedule 0 = true ∧ bit (⟨0x7F, 0⟩ : AsymOffer).base 7 = false ∧
    (atWork .driver).sp.fwWait = false := by
  unfold SpServes; decide +kernel
theorem test_wit_Spdm_2 : SpServes (atWork .driver) ∧ (atWork .driver).sp.fwWait = false ∧ drbgOk (atWork .driver) = true := by unfold SpServes; decide +kernel
theorem test_wit_Spdm_3 : let s := { atWork .driver with
      sp := { (atWork .driver).sp with spdm := [], offers := [(1, 1, 9, [])] } }
    SpServes s ∧ s.sp.fwWait = false ∧ (rootBank s).isSome = true ∧ s.sp.spdm.length < 64 ∧ drbgOk s = true ∧
    s.sp.offers.find? (fun o => o.1 == 1 && o.2.1 == 1 && o.2.2.1 == 9) = some (1, 1, 9, []) ∧
    (tlook s.sp.spdm 1).isNone = true ∧ classOf s 3 5 = some .driver := by unfold SpServes; decide +kernel
theorem test_wit_Spdm_4 : let s := { atWork .driver with
      sp := { (atWork .driver).sp with spdm := [(1, { cls := .driver })] } }
    SpServes s ∧ tlook s.sp.spdm 1 = some { cls := .driver } ∧ ({ cls := .driver } : Spdm).finished = false ∧ s.sp.fwWait = false := by unfold SpServes; decide +kernel
theorem test_wit_Spdm_5 : SpServes (atWork .driver) ∧ tlook (atWork .driver).sp.spdm 1 = some (conn .driver) ∧
    (conn .driver).finished = true ∧ (atWork .driver).sp.fwWait = false := by unfold SpServes; decide +kernel
theorem test_wit_Spdm_7 : let s := { atWork .driver with
      sp := { (atWork .driver).sp with fwWait := true } }
    SpServes s ∧ s.sp.fwWait = true := by unfold SpServes; decide +kernel
theorem test_wit_Spdm_6 : let s := { atWork .driver with
      sp := { (atWork .driver).sp with measured := [(1, [7])] } }
    Vendor s 1 (conn .driver) ∧ (rootBank s).isSome = true ∧ tlook s.sp.measured 1 = some [7] := by unfold Vendor SpServes; decide +kernel
/-! ## Witnesses: clocks, power, platform, registers -/

/-- A powered module of LOCAL authority with a platform connection 1. -/
def localModule : State := { atWork .platform with
  sp := { (atWork .platform).sp with authority := 0 } }
theorem test_wit_Gates_1 : hostServed localModule = true ∧ localModule.sp.authority = 0 := by decide +kernel
theorem test_wit_Gates_2 : let s := { atWork .driver with
      pow := { (atWork .driver).pow with cgHub := 7 } }
    hostServed s = true ∧ s.sp.authority = 1 ∧ gateBit s 120 = true ∧ gateBit s 121 = true ∧ gateBit s 122 = true ∧ (6 : Word).toNat % 8 = 6 := by
  decide +kernel
theorem test_wit_Gates_3 : let s : State := { pow := { cgPend := [120] } }
    s.pow.cgPend.contains 120 = true := by decide
/-- A module with one power domain. -/
def withDomain (n : Nat) (d : Domain) : State := { pow := { domains := [(n, d)] } }
theorem test_wit_Gates_4 : let s := withDomain 91 { state := .draining, target := .retain }
    (domOf s 91).state = .draining ∧ s.pow.dustSheet = false ∧ domainBusy s 91 = false := by decide +kernel
theorem test_wit_Gates_5 : let s := withDomain 88 { state := .waking, target := .on }
    (domOf s 88).state = .waking ∧ (domOf s 88).target = .on ∧ s.pow.dustSheet = false := by decide
theorem test_wit_Gates_6 : let s : State := { ns := 2001, clusters := [(63, { clock := true, idleAt := some 1 })] }
    (clusterOf s 63).idleAt = some 1 ∧ (clusterOf s 63).clock = true ∧ isIdle s 63 = true ∧ 1 + 2000 ≤ s.ns ∧ dtActive s = false ∧ s.pow.dustSheet = false := by decide +kernel
theorem test_wit_Gates_7 : let s : State := { ns := 1001, clusters := [(63, { partition := some 31, stoppedAt := some 1 })],
                                              parts := [(31, { offDelay := 1 })], pow := { domains := allOn } }
    (clusterOf s 63).partition = some 31 ∧ (clusterOf s 63).stoppedAt = some 1 ∧ (clusterOf s 63).clock = false ∧ isIdle s 63 = true ∧
    (partOf s 31).offDelay ≠ 0 ∧ 1 + (partOf s 31).offDelay * 1000 ≤ s.ns ∧ (domOf s 63).state = .on ∧ dtActive s = false ∧ s.pow.dustSheet = false := by decide +kernel
/-- Cluster 63 in a frequency move, at a time. -/
def moving (ns : Nat) : State := { ns := ns, clusters := [(63, { clock := true, n := 16 })], pow := { clocks := [(63, { moving := true })], domains := allOn } }
theorem test_wit_Clocks_1 : (clockOf (moving 160) 63).moving = true ∧ (clusterOf (moving 160) 63).clock = true ∧
    (moving 160).pow.dustSheet = false ∧
    (clockOf (moving 160) 63).heldAt + stepHold (clusterOf (moving 160) 63).n ≤ (moving 160).ns := by decide +kernel
theorem test_wit_Clocks_2 : (moving 159).ns < (clockOf (moving 159) 63).heldAt + stepHold (clusterOf (moving 159) 63).n := by decide +kernel
theorem test_wit_Clocks_5 : let s : State := { ns := 160, pow := { clocks := [(64, { moving := true, step := 16 })] } }
    s.pow.dustSheet = false ∧ (clockOf s 64).moving = true ∧ (clockOf s 64).heldAt + stepHold (clockOf s 64).step ≤ s.ns := by decide +kernel
theorem test_wit_Clocks_6 : sheetable (atWork .driver) = true ∧ sheetable { pow := { state := .standby, resetDone := true } } = true := by decide +kernel
theorem test_wit_Clocks_3 : enabled (moving 0) 63 = true ∧ (domOf (moving 0) 63).state = .on ∧ (clockOf (moving 0) 63).want = (clockOf (moving 0) 63).backup ∧
    (clockOf (moving 0) 63).ladder = false ∧ (moving 0).pow.dustSheet = false := by decide +kernel
theorem test_wit_Clocks_4 : powered (atWork .driver) = true ∧ (atWork .driver).pow.dustSheet = false := by decide +kernel
theorem test_wit_Clocks_8 : let s : State := { pow := { refclkOk := false } }
    s.pow.dustSheet = false ∧ s.pow.refclkOk = false := by decide
theorem test_wit_Clocks_7 : let s : State := { ns := 1000001, pow := { dustSheet := true, dustAt := 1 } }
    s.pow.dustSheet = true ∧ s.pow.dustAt + 1000000 ≤ s.ns := by decide
/-- A module whose power state is otherwise as given, at 1,000,001 ns. -/
def late (p : Power) : State := { ns := 1000001, pow := p }
theorem test_wit_Loops_2 : let s := late { overrides := [3], lowAt := [(3, 1)] }
    s.pow.overrides.contains 3 = true ∧ tget 0 s.pow.lowAt 3 + 1000000 ≤ s.ns := by decide
theorem test_wit_Loops_7 : (late { overrides := [0] }).pow.overrides.contains 0 = true ∧ (late { overrides := [2] }).pow.overrides.contains 2 = true ∧
    (late { overrides := [4] }).pow.overrides.contains 4 = true ∧ (clusterOf (moving 0) 63).clock = true := by decide +kernel
theorem test_wit_Loops_3 : State.reset.pow.state ≠ .off ∧ State.reset.pow.brake = false := by decide
theorem test_wit_Loops_4 : let s : State := { ns := 1000000001, pow := { brake := true, brakeAt := 1, brakePosts := 1 } }
    s.pow.brake = true ∧ s.pow.brakeAt + s.pow.brakePosts * 1000000000 ≤ s.ns := by decide
theorem test_wit_Loops_5 : let s := late { brake := true, brakeTrig := 1 }
    s.pow.brake = true ∧ s.pow.brakeTrig + 1000000 ≤ s.ns := by decide
theorem test_wit_Loops_6 : let s := late { throttle := true, throttleAt := 1, throttleClear := some 900001 }
    s.pow.throttle = true ∧ throttleNow s = false ∧ s.pow.throttleClear = some 900001 ∧ 900001 + 100000 ≤ s.ns ∧ s.pow.throttleAt + 1000000 ≤ s.ns := by
  decide +kernel
theorem test_wit_Power_1 : let s : State := { pow := { state := .off, mv := 62001 } }
    s.pow.state = .off ∧ 62000 < s.pow.mv ∧ State.reset.pow.state ≠ .off ∧ (late { brownOut := true }).pow.brownOut = true := by decide
theorem test_wit_Power_5 : let s := { atWork .driver with
      pow := { state := .island, perst := false } }
    s.pow.perst = false ∧ s.pow.state = .island ∧ s.pow.resetDone = false ∧ lcHalted s = false ∧ resetHeld s = false ∧ drbgOk s = true ∧
    s.sp.programming = none ∧ State.reset.pow.perst = true := by decide
theorem test_wit_Power_6 : (late { state := .standby }).pow.state = .standby ∧ (late { cooling := true }).pow.cooling = true := by decide
theorem test_wit_Platform_1 : State.reset.pow.state ≠ .off ∧ State.reset.pow.smbusUp = true ∧ mctpServed State.reset = true ∧
    (atWork .driver).pow.perst = false := by decide +kernel
theorem test_wit_Platform_3 : SpServes State.reset := by unfold SpServes; decide +kernel
theorem test_wit_Platform_4 : componentTarget 2 = some 1 ∧ (let s : State := { sp := { transfer := some (1, 5, 7) } }
    s.sp.transfer = some (1, 5, 7)) := by decide
theorem test_wit_Platform_5 : let s := { localModule with
      sp := { localModule.sp with staged := [(0, (5, 7))] } }
    SpServes s ∧ platformSession s 1 = true ∧ s.sp.staged.isEmpty = false ∧ s.sp.fwWait = false ∧
    (queueOf s mgmtQueue).running = none ∧ keyOpInFlight s = false := by unfold SpServes; decide +kernel
theorem test_wit_Platform_8 : SpServes localModule ∧ platformSession localModule 1 = true ∧ localOp (opcodeOf [0x43]) = true ∧
    localModule.sp.fwWait = false ∧ (queueOf localModule mgmtQueue).running = none ∧ hostServed localModule = true := by
  unfold SpServes; decide +kernel
theorem test_wit_Aligned : 0x188100 < debugBase ∧ msixAt 0x17FFFE = none ∧ 0x17FFFE % 4 ≠ 0 ∧ msixAt 0x188100 = none := by decide
theorem test_wit_Regs_1 : let s := atWork .driver
    blkAt 3 = some .sched ∧ readable s .sched = true ∧ msixAt (4096 * 3 + 0x48) = none ∧ (rcMod s .sched 3 0x48 (fun _ _ _ => 0)).isSome = true := by
  decide +kernel
theorem test_wit_Regs_2 : readable (late { perst := false, state := .halted }) .device = true := by decide +kernel
theorem test_wit_Regs_3 : let s := atWork .driver
    blkAt 0x17F0 = some (.core 1023) ∧ readable s (.core 1023) = true := by decide +kernel
theorem test_wit_Regs_4 : let s := { atWork .driver with
      regs := { evrSel := 31, rings := [(31, { tail := 1, head := 15 })] } }
    readable s .event = true ∧ s.regs.evrSel < moduleRing ∧ (ringOf s 31).en = false ∧ bit (1 : Word).toNat 0 = true ∧ (ringOf s 31).ovf = false ∧
    bits (1 : Word).toNat 15 0 < 2 ^ (ringOf s 31).log2 ∧
    (bits (1 : Word).toNat 15 0 + 2 ^ (ringOf s 31).log2 - (ringOf s 31).head) % 2 ^ (ringOf s 31).log2 ≤ ringUsed (ringOf s 31) := by decide +kernel
theorem test_wit_Regs_5 : let s := atWork .driver
    readable s .device = true ∧ (queueOf s 0).valid = false ∧ bit (0x80000000 : Word).toNat 31 = true := by decide +kernel
theorem test_wit_Regs_6 : let s := { atWork .driver with
      fab := { ports := [(31, { state := .up })] } }
    readable s (.port 31) = true ∧ s.sp.authority = 1 ∧ bit (0 : Word).toNat 0 = false ∧ (portOf s 31).state = .up := by decide +kernel
theorem test_wit_NonFinite : [0x3F800000, 0x7F800000].any fp32NonFinite = true ∧ fmtBits 6 ≤ 8 ∧
    ((lanes 32 64 (BitVec.ofNat 2048 0x7FC00000)).take 32).any fp32NonFinite = true ∧
    ((lanes 32 64 (BitVec.ofNat 2048 (0xFF800000 * 2 ^ 2016))).drop 32).any fp32NonFinite = true := by decide +kernel
/-! ## Witnesses with digests -/

theorem digest_round (d : Digest) : bytesDigest (digestBytes d) = d := by
  have h : (digestBytes d).take 48 = digestBytes d := rfl
  rw [bytesDigest, h, digestBytes, leVal_leBytes]
  apply BitVec.eq_of_toNat_eq
  have e : (256 : Nat) ^ 48 = 2 ^ 384 := by rw [show (256 : Nat) = 2 ^ 8 from rfl, ← Nat.pow_mul]
  rw [BitVec.toNat_ofNat, e, Nat.mod_mod]
  exact Nat.mod_eq_of_lt d.isLt
/-- The fields of a manifest of one owner, one memory role and one program, for this module as it stands after reset. -/
def openHead : Bytes :=
  leBytes 4 0x5A534D31 ++ leBytes 4 1 ++ leBytes 4 0x311 ++ leBytes 4 0x10001 ++ z 4 ++ leBytes 4 1 ++ z 40 ++ digestBytes Config.endorseRoot ++
    digestBytes (fwDigest 0 0)
/-- That manifest: every byte past those fields is 0. -/
def openManifest : Bytes := openHead ++ z 7712
/-- A served driver, and partition 31 live. -/
def openState : State := { atWork .driver with
  parts := [(31, { live := true })] }
theorem openHead_length : openHead.length = 160 := by
  simp only [openHead, z, digestBytes, List.length_append, leBytes_length, List.length_replicate]
theorem openManifest_tail (i : Nat) (h : 160 ≤ i) : byteAt openManifest i = 0 := by
  unfold byteAt openManifest
  rw [List.getD_append_right _ _ _ _ (by rw [openHead_length]; exact h), z, List.getD_eq_getElem?_getD, List.getElem?_replicate]
  split <;> rfl
theorem openManifest_head (i : Nat) (h : i < 160) : byteAt openManifest i = byteAt openHead i := by
  unfold byteAt openManifest
  rw [List.getD_append _ _ _ _ (by rw [openHead_length]; exact h)]
/-- A manifest with nothing past its first 160 bytes. -/
def Headed (b : Bytes) : Prop := ∀ i, 160 ≤ i → byteAt b i = 0
theorem headed_le (b : Bytes) (hb : Headed b) (o n : Nat) (h : 160 ≤ o) : le b o n = 0 := by
  have e : (List.range n).map (fun i => byteAt b (o + i)) = List.replicate n 0 := by
    rw [List.eq_replicate_iff]
    refine ⟨by simp, fun x hx => ?_⟩
    obtain ⟨i, _, rfl⟩ := List.mem_map.1 hx
    exact hb _ (by omega)
  unfold le
  rw [e]
  clear e
  induction n with
  | zero => rfl
  | succ n ih => rw [List.replicate_succ, leVal, ih]; rfl
theorem headed_sum (b : Bytes) (hb : Headed b) (o n : Nat) (h : 160 ≤ o) :
    ((List.range n).map (fun i => (byteAt b (o + i)).toNat)).foldl (· + ·) 0 = 0 := by
  have e : (List.range n).map (fun i => (byteAt b (o + i)).toNat) = List.replicate n 0 := by
    rw [List.eq_replicate_iff]
    refine ⟨by simp, fun x hx => ?_⟩
    obtain ⟨i, _, rfl⟩ := List.mem_map.1 hx
    rw [hb _ (by omega)]; rfl
  rw [e]
  clear e
  induction n with
  | zero => rfl
  | succ n ih => rw [List.replicate_succ, List.foldl_cons]; exact ih
theorem headed_rsvd (b : Bytes) (hb : Headed b) (h4 : le b 4 4 = 1) (h8 : le b 8 4 = 0x311) (hc : le b 0x0C 2 = 1) (he : le b 0x0E 2 = 1)
    (h10 : le b 0x10 2 = 0) (h12 : le b 0x12 2 = 0) (h14 : le b 0x14 4 = 1)
    (h40 : ((List.range 24).map (fun i => (byteAt b (0x28 + i)).toNat)).foldl (· + ·) 0 = 0) : (decodeManifest b).rsvd = 0 := by
  have s0 := headed_sum b hb
  have s1 : ∀ i n, ((List.range n).map (fun j => (byteAt b (0x230 + 64 * i + j)).toNat)).foldl (· + ·) 0 = 0 := fun i n => s0 _ _ (by omega)
  have s2 : ∀ i n, ((List.range n).map (fun j => (byteAt b (0x200 + 64 * i + j)).toNat)).foldl (· + ·) 0 = 0 := fun i n => s0 _ _ (by omega)
  have r0 : le b (0x400 + 8 * 0) 8 = 0 := headed_le b hb _ _ (by decide)
  simp only [decodeManifest, h4, h8, hc, he, h10, h12, h14, h40, s1, s2, ite_self]
  rw [s0 (0x400 + 8 * 1) _ (by decide), s0 (0x600 + 16 * 0) _ (by decide), s0 (0xA00 + 8 * 0) _ (by decide), s0 0x130 _ (by decide),
    s0 (0xC00 + 48 * 1) _ (by decide)]
  simp [r0, bits]
theorem headed_fields (b : Bytes) (hb : Headed b) (h0 : le b 0 4 = 0x5A534D31) (h4 : le b 4 4 = 1) (h8 : le b 8 4 = 0x311)
    (hc : le b 0x0C 2 = 1) (he : le b 0x0E 2 = 1) (h10 : le b 0x10 2 = 0) (h12 : le b 0x12 2 = 0) (h14 : le b 0x14 4 = 1) :
    let m := decodeManifest b
    m.magic = 0x5A534D31 ∧ m.version = 1 ∧ m.owners = 1 ∧ m.operator = 0 ∧ m.kMembers = 1 ∧ m.kAdmit = 1 ∧ m.authority = 1 ∧ m.grades = 1 ∧
    m.roles = [⟨0, 0, 0⟩] ∧ m.programs.length = 1 ∧ m.rules = [] ∧ m.declass = [] ∧ m.maxMembers = 1 := by
  have r0 : le b (0x400 + 8 * 0) 8 = 0 := headed_le b hb _ _ (by decide)
  simp only [decodeManifest, h0, h4, h8, hc, he, h10, h12, h14, List.range_one, List.map_cons, List.map_nil, r0, List.range_zero,
    List.length_cons, List.length_nil]
  decide
theorem openManifest_words : le openManifest 0 4 = 0x5A534D31 ∧ le openManifest 4 4 = 1 ∧ le openManifest 8 4 = 0x311 ∧
    le openManifest 0x0C 2 = 1 ∧ le openManifest 0x0E 2 = 1 ∧ le openManifest 0x10 2 = 0 ∧ le openManifest 0x12 2 = 0 ∧
    le openManifest 0x14 4 = 1 := by decide +kernel
theorem openManifest_rsvd : (decodeManifest openManifest).rsvd = 0 := by
  obtain ⟨_, h4, h8, hc, he, h10, h12, h14⟩ := openManifest_words
  exact headed_rsvd _ openManifest_tail h4 h8 hc he h10 h12 h14 (by decide +kernel)
theorem openManifest_endorse : (decodeManifest openManifest).endorse = Config.endorseRoot := by
  have h : slice openManifest 64 48 = digestBytes Config.endorseRoot := rfl
  show bytesDigest (slice openManifest 64 48) = _
  rw [h, digest_round]
theorem openManifest_fw : (decodeManifest openManifest).fw.contains (fwDigest 0 0) = true := by
  have h : slice openManifest 112 48 = digestBytes (fwDigest 0 0) := rfl
  have e : ((decodeManifest openManifest).fw)[0]? = some (fwDigest 0 0) := by
    show some (bytesDigest (slice openManifest 112 48)) = _
    rw [h, digest_round]
  rw [List.contains_iff_mem]
  exact List.mem_of_getElem? e
theorem openManifest_fields : let m := decodeManifest openManifest
    m.magic = 0x5A534D31 ∧ m.version = 1 ∧ m.owners = 1 ∧ m.operator = 0 ∧ m.kMembers = 1 ∧ m.kAdmit = 1 ∧ m.authority = 1 ∧ m.grades = 1 ∧
    m.roles = [⟨0, 0, 0⟩] ∧ m.programs.length = 1 ∧ m.rules = [] ∧ m.declass = [] ∧ m.maxMembers = 1 := by
  obtain ⟨h0, h4, h8, hc, he, h10, h12, h14⟩ := openManifest_words
  exact headed_fields _ openManifest_tail h0 h4 h8 hc he h10 h12 h14
theorem openManifest_ok : manifestOk openManifest (decodeManifest openManifest) = true := by
  obtain ⟨f1, f2, f3, f4, f5, f6, f7, f8, f9, f10, f11, f12, f13⟩ := openManifest_fields
  have hl : openManifest.length = 7872 := by
    rw [openManifest, List.length_append, openHead_length, z, List.length_replicate]
  have hb : bodyLen openManifest = 3136 := by unfold bodyLen; rw [openManifest_words.2.2.2.2.1]; rfl
  simp only [manifestOk, f1, f2, f3, f4, f5, f6, f9, f10, f11, f12, f13, hl, hb, openManifest_rsvd]
  decide
theorem openManifest_allowed : manifestAllowed openState (decodeManifest openManifest) = true := by
  obtain ⟨_, _, _, _, _, _, f7, f8, f9, _, f11, f12, _⟩ := openManifest_fields
  have hw : fwDigest openState.sp.fwSp openState.sp.fwHub = fwDigest 0 0 := rfl
  simp only [manifestAllowed, openManifest_endorse, f7, f8, f9, f11, f12, hw, openManifest_fw, beq_self_eq_true]
  decide +kernel
theorem test_wit_Sessions_1 : Vendor openState 1 (conn .driver) ∧ manifestOk openManifest (decodeManifest openManifest) = true ∧
    (partOf openState 31).live = true ∧ (rootBank openState).isSome = true ∧ manifestAllowed openState (decodeManifest openManifest) = true ∧
    openState.sp.sessions = [] ∧ openState.sp.endedIds = [] ∧ drbgOk openState = true ∧
    ∀ d, (measAdd openState 31 4 0 0 0 (localId openState) 0 d).isSome = true :=
  ⟨by unfold Vendor SpServes; decide +kernel, openManifest_ok, by decide +kernel, by decide +kernel, openManifest_allowed, rfl, rfl, by decide +kernel,
    fun _ => rfl⟩
/-! ## Witnesses: steps of the whole module -/

theorem test_wit_Step_idle : State.reset.pending = [] ∧ ckptSessions State.reset = [] ∧ State.reset.sp.programming = none ∧
    (∀ x ∈ State.reset.sp.spdm, x.2.late = []) ∧ (clusterOf State.reset 63).portF < 2 ^ 32 ∧ State.reset.fab.plumb.running = false ∧ (clusterOf State.reset 63).clock = false := by decide
theorem test_wit_Step_legal : lifeCycleLegal State.reset ∧ step State.reset = .next (tick State.reset) :=
  ⟨by unfold lifeCycleLegal; decide, rfl⟩
theorem test_wit_Step_programs : (lcModule 0).sp.programming = none ∧ (lcModule 0).pending = [] := by decide
theorem test_wit_Step_command : let s : State := { pending := [.smbusResume, .perstAssert] }
    ∃ t, step s = .next t ∧ t.ns = 0 ∧ t.pending = [.perstAssert] := ⟨_, rfl, rfl, rfl⟩

/-! ## Numbers that name no part of the module are refused -/

theorem test_ill_core : wellFormed (.bundleIssue 1024) = false ∧ wellFormed (.bundleIssue 1023) = true := by decide
theorem test_ill_cluster : wellFormed (.clusterClockStop 64) = false ∧ wellFormed (.clusterClockStop 63) = true := by decide
theorem test_ill_task : wellFormed (.watchdogExpiry 0 16384) = false := by decide
theorem test_ill_queue : wellFormed (.planLoad 16385) = false := by decide
theorem test_ill_dmaQueue : wellFormed (.dmaOperationStart 0 2) = false := by decide
theorem test_ill_barrier : wellFormed (.crewSyncRelease 0 0 8 0) = false := by decide
theorem test_ill_counter : wellFormed (.signalIncrement 0 0 16) = false := by decide
theorem test_ill_token : wellFormed (.dmaOperationComplete 0 64) = false := by decide
theorem test_ill_prologue : wellFormed (.prologueLoadIssue 0 0 8 0) = false := by decide
theorem test_ill_partition : wellFormed (.skimAdmission 32) = false ∧ wellFormed (.arbitrationDecision (.clusters 32)) = false := by decide
theorem test_ill_context : wellFormed (.ckptRestore 0 0 4097 [] default) = false := by decide
theorem test_ill_session : wellFormed (.sessionEnd 0 65536) = false := by decide
theorem test_ill_address : wellFormed (.lineRead ⟨0, 0x1000000000000, 0, 1⟩ [] []) = false := by decide
theorem test_ill_granule : wellFormed (.zeroFillComplete 24117248) = false := by decide
theorem test_ill_controller : wellFormed (.memoryRefresh 24 0 0) = false := by decide
theorem test_ill_key : wellFormed (.sandingRetry 256) = false := by decide
theorem test_ill_slot : wellFormed (.slotZeroize 256) = false := by decide
theorem test_ill_link : wellFormed (.d2dLinkTrainingComplete 8 true) = false := by decide
theorem test_ill_direction : wellFormed (.linkKeyInstall 0 2) = false := by decide
theorem test_ill_port : wellFormed (.portTrainingComplete 32 true) = false := by decide
theorem test_ill_frameSeq : wellFormed (.linkNakReceive 0 4096) = false := by decide
theorem test_ill_node : wellFormed (.respTimeout 65536 0) = false := by decide
theorem test_ill_xid : wellFormed (.respTimeout 0 65536) = false := by decide
theorem test_ill_window : wellFormed (.windowClose 0 4096) = false := by decide
theorem test_ill_group : wellFormed (.groupClose 0 0 4096) = false := by decide
theorem test_ill_tag : wellFormed (.holdTimer 0 0 65536 0) = false := by decide
theorem test_ill_position : wellFormed (.holdTimer 0 0 0 65536) = false := by decide
theorem test_ill_vc : wellFormed (.store (rx (pkt 1 5 0 []))) = false := by decide
theorem test_ill_payload : wellFormed (.put (rx { pkt 2 0 0 [] with len := 4097 })) = false := by decide
theorem test_ill_monitor : wellFormed (.healthWindowExpiry 11) = false := by decide
theorem test_ill_block : wellFormed (.clkgateTakeEffect 123) = false := by decide
theorem test_ill_domain : wellFormed (.domainDrainEnd 96) = false := by decide
theorem test_ill_clock : wellFormed (.clockLadderStep 69) = false := by decide
theorem test_ill_die : wellFormed (.voltageDroop 5) = false ∧ wellFormed (.clockLoss (.mainPll 5)) = false := by decide
theorem test_ill_loop : wellFormed (.safetyOverrideEnd 7) = false := by decide
theorem test_ill_lane : wellFormed (.laneSlotStart 16) = false := by decide
theorem test_ill_connector : wellFormed (.cableInsert 4) = false := by decide
theorem test_ill_slotId : wellFormed (.perstDeassert 64) = false := by decide
theorem test_ill_eid : wellFormed (.mctpControlMessage 0 256) = false := by decide

/-! ## Worked examples of the spec -/

/-- 32 codes: the given ones, then zeros. -/
def block (l : List Nat) : List Nat := l ++ List.replicate (32 - l.length) 0

-- Table 2.3 and the three examples that follow it.
theorem test_block_value : blockDot 3 (block [0x3C, 0xB4, 0x45, 0x08]) 0x81 0 7 (block [0x4, 0x7, 0x9, 0x3]) 0x7C 0 = 0xBFC68000 := by decide +kernel
theorem test_block_accumulate : fp32Add 0x40200000 0xBFC68000 = 0x3F730000 := by decide +kernel
theorem test_block_contract : blockDot 1 (block [0x3F80, 0x34C0, 0x3F80]) 0x7F 0 1 (block [0x3F80, 0x3F80, 0x2F80]) 0x7F 0 = 0x3F800004 := by decide +kernel
theorem test_block_nan : blockDot 3 (block [0x3C, 0x7F]) 0x81 0 7 (block [0x4, 0x7]) 0x7C 0 = 0x7FC00000 := by decide +kernel
-- Table 2.5.
theorem test_fp4_scale : blockScale 7 (block [0x41A00000, 0x41500000, 0xC0100000]) = 0x81 := by decide +kernel
theorem test_fp4_rne : [0x41A00000, 0x41500000, 0xC0100000].map (convScaled 7 0x81 none) = [0x6, 0x5, 0x9] := by decide +kernel
theorem test_fp4_sr : [0x41A00000, 0x41500000, 0xC0100000].map (convScaled 7 0x81 (some 0xD1E20000)) = [0x7, 0x6, 0x9] := by decide +kernel
-- The example of a saturating input, 31.0.
theorem test_fp4_saturates : blockScale 7 (block [0x41F80000]) = 0x81 ∧ convScaled 7 0x81 none 0x41F80000 = 0x7 := by decide +kernel

-- The chapter 03 example: T = 15,104 for M = 128, N = 256, K = 7,424 streamed E4M3 against FP4; DRAIN in 132 cycles.
theorem test_tile_passes : passes 0 { (default : TileRec) with m := 128, n := 256, k := 7424 } = 116 := by decide +kernel
theorem test_drain_time : drainTime { (default : TileRec) with m := 128, n := 256, k := 7424 } = 132 := by decide +kernel

-- Table 5.8 and the element B[3,905, 5,000] of chapter 05.
def upProjection : Lay := ⟨7, true, 1, 0x001240000000, [29696, 7424, 1, 1], [0x1000, 0, 0]⟩
theorem test_layout_footprint : upProjection.footprint = 0x7400000 := by decide +kernel
theorem test_layout_element : upProjection.elemBit [5000, 3905, 0, 0] = 0x001241388820 * 8 + 4 := by decide +kernel
theorem test_layout_scale : upProjection.scaleByte [5000, 3905, 0, 0] = 0x001241388BC2 := by decide +kernel

-- The chapter 08 example: stack 5, die-local offset 0x1_2827_1820 of CD2.
theorem test_hbm_locate : hbmLocate 0x000481388820 = (5, 0x128271820) := by decide +kernel
theorem test_hbm_die_local : canon 0x00C128271820 = some 0x000481388820 := by decide +kernel

-- The lease of chapter 10: renewed at B, refused at B + 1 ms, taken at B + 2.01 ms.
def wantLease (src : Nat) : Packet := { pkt 0x07 0 8 (leBytes 8 2000000 ++ z 8) with srcNode := src, epoch := 41 }
theorem test_lease_renew : (leaseAcquireWord 0x100000000000 0 (wantLease 0x205) (lease 0x100000000000 0x205 41)).1 =
    some (lease 0x00001000001E8480 0x205 0x29) := by decide +kernel
theorem test_lease_held : leaseAcquireWord 0x1000000F4240 0 (wantLease 0x204) (lease 0x00001000001E8480 0x205 0x29) =
    (none, lease 0x00001000001E8480 0x205 0x29) := by decide +kernel
theorem test_lease_taken : (leaseAcquireWord 0x1000001EAB90 0 (wantLease 0x204) (lease 0x00001000001E8480 0x205 0x29)).1 =
    some (lease 0x00001000003D3010 0x204 0x29) := by decide +kernel
theorem test_lease_word : le (lease 0x00001000003D3010 0x204 0x29) 8 8 = 0x0000002900000204 := by decide +kernel

-- The tree of chapter 11: four members, root 3.
theorem test_tree_hosts : [hostOf 3 0 2, hostOf 3 2 2, hostOf 3 0 4] = [1, 3, 3] := by decide +kernel
theorem test_tree_sum : fp32Add (fp32Add 0x3F800000 0x33800000) (fp32Add 0x33800000 0x33800000) = 0x3F800001 := by decide +kernel
theorem test_tree_sender : chainOf 3 0 4 = ([], some 1) := by decide +kernel
theorem test_tree_inner : chainOf 3 1 4 = ([((0, 1), true)], some 3) := by decide +kernel
theorem test_tree_root : chainOf 3 3 4 = ([((2, 3), true), ((0, 2), true)], none) := by decide +kernel

-- The ring of chapter 18: 20 events, then EVR_HEAD = 15.
def ringAt (ovf : Bool) (drop : Nat) : State := { regs := { rings := [(moduleRing, { en := true, tail := 14, ovf := ovf, drop := drop, lost := drop })] } }
theorem test_ring_overflows : ringPost (ringAt false 0) moduleRing 0xA 0 false 0 0 = ringWrite (ringAt true 1) moduleRing 0x000B 0 false 0 0xA := rfl
def fullRing : State :=
  (List.range 5).foldl (fun s _ => ringPost s moduleRing 0x6 0 false 0 0) (ringWriteAs true (ringAt true 1) moduleRing 0x000B 0 false 0 0xA)
theorem test_ring_overflow : let g := ringOf fullRing moduleRing
    (g.tail, g.drop, g.ovf, g.phase) = (15, 6, true, true) := by decide +kernel
theorem test_ring_overflow_record :
    (List.range 32).map (fun i => tget 0 fullRing.regs.hostMem (32 * 14 + i)) = eventBytes {} 0x000B 0 true false moduleRing 0 0xA := by
  decide +kernel

-- The page of chapter 19: HBM stack 5 at 0x0088_1000.
theorem test_page_id : headerReg {} (.ctl 5) 0x881 0 = 0x00100501 := by decide +kernel
theorem test_page_place : blkAt 0x881 = some (.ctl 5) := by decide +kernel
end Sys2Proof.Tests
end

section
/-! SUPPORT. Accesses of BAR0 that reach no register (R6), and the statement about them. -/

namespace Sys2Proof.Machine
open Sys2Proof

/-! ## REGISTER_WRITE and RC_FIELD_READ below the debug port's addresses -/

theorem exec_registerWrite_of_lt_debugBase (addr size : Nat) (v : DWord) (s : State) (hbar : addr < debugBase) :
    exec (.registerWrite addr size v) s = .next (writeBar s addr size v.toNat) := by
  show execRegisterWrite addr size v s = _
  rw [execRegisterWrite, if_neg (Nat.not_le.mpr hbar)]

theorem exec_rcFieldRead_of_lt_debugBase (addr size racing : Nat) (s : State) (hbar : addr < debugBase) :
    exec (.rcFieldRead addr size racing) s = .next (giveRead (readBar s addr size racing)) := by
  show execRcFieldRead addr size racing s = _
  rw [execRcFieldRead, if_neg (Nat.not_le.mpr hbar)]

@[simp] theorem giveRead_zero (s : State) : giveRead (0, s) = { s with regs := { s.regs with readData := 0 } } := rfl

/-! ## Accesses of another size or alignment -/

/-- The model tests the alignment to the access's own size first: an access that passes and is not an aligned word is no word. -/
theorem size_ne_four_of_aligned {addr size : Nat} (hnot : size ≠ 4 ∨ addr % 4 ≠ 0) (haligned : addr % size = 0) : size ≠ 4 := by
  rintro rfl
  exact hnot.elim (absurd rfl) (absurd haligned)

theorem writeBar_of_not_aligned_word {addr size : Nat} (v : Nat) (s : State) (hmsix : msixAt addr = none)
    (hnot : size ≠ 4 ∨ addr % 4 ≠ 0) : writeBar s addr size v = s := by
  by_cases haligned : addr % size = 0
  · simp [writeBar, haligned, hmsix, size_ne_four_of_aligned hnot haligned]
  · simp [writeBar, haligned]

theorem readBar_of_not_aligned_word {addr size : Nat} (racing : Nat) (s : State) (hmsix : msixAt addr = none)
    (hnot : size ≠ 4 ∨ addr % 4 ≠ 0) : readBar s addr size racing = (0, s) := by
  by_cases haligned : addr % size = 0
  · simp [readBar, haligned, hmsix, size_ne_four_of_aligned hnot haligned]
  · simp [readBar, haligned]

/-- Settles O58: below the debug port both commands are accesses of BAR0, and one that is no aligned word ends at the size or the
alignment check. -/
theorem registerAccessesAreAlignedWords : Obligations.RegisterAccessesAreAlignedWords := by
  intro addr size v racing s hbar hmsix hnot
  constructor
  · rw [exec_registerWrite_of_lt_debugBase _ _ _ _ hbar, writeBar_of_not_aligned_word _ _ hmsix hnot]
  · rw [exec_rcFieldRead_of_lt_debugBase _ _ _ _ hbar, readBar_of_not_aligned_word _ _ hmsix hnot, giveRead_zero]

end Sys2Proof.Machine
end

section
/-! SUPPORT. The register that a scaled CVT or CVTSR writes, field by field, and the statement about blocks with a NaN or an
infinity (R40). -/

namespace Sys2Proof.Machine
open Sys2Proof

/-! ## Packed elements -/

theorem packNat_lt (w : Nat) (l : List Nat) : packNat w l < 2 ^ (w * l.length) := by
  induction l with
  | nil => simp [packNat]
  | cons v vs ih =>
    have hv : v % 2 ^ w < 2 ^ w := Nat.mod_lt _ (Nat.two_pow_pos w)
    calc packNat w (v :: vs)
      _ < 2 ^ w * (packNat w vs + 1) := by rw [packNat, Nat.mul_succ]; omega
      _ ≤ 2 ^ w * 2 ^ (w * vs.length) := Nat.mul_le_mul_left _ ih
      _ = 2 ^ (w * (v :: vs).length) := by rw [← pow_add, List.length_cons, Nat.mul_succ, Nat.add_comm]

theorem packNat_append (w : Nat) (l m : List Nat) :
    packNat w (l ++ m) = packNat w l + 2 ^ (w * l.length) * packNat w m := by
  induction l with
  | nil => simp [packNat]
  | cons v vs ih => simp only [List.cons_append, packNat, ih, List.length_cons]; ring

@[simp] theorem packNat_replicate_zero (w n : Nat) : packNat w (List.replicate n 0) = 0 := by
  induction n with
  | zero => rfl
  | succ n ih => simp [List.replicate_succ, packNat, ih]

/-! ## The scale and the codes of a block -/

theorem fp32NonFinite_iff (v : Nat) : fp32NonFinite v = true ↔ v / 2 ^ 23 % 256 = 255 := by
  simp only [fp32NonFinite, decide_eq_true_eq]

theorem blockScale_of_nonFinite {vs : List Nat} (code : Nat) (hbad : vs.any fp32NonFinite = true) : blockScale code vs = 0xFF :=
  if_pos hbad

/-- A scale is a byte. -/
theorem blockScale_lt (code : Nat) (vs : List Nat) : blockScale code vs < 256 := by
  unfold blockScale
  split
  · decide
  · dsimp only
    split <;> omega

@[simp] theorem convScaled_FF (code : Nat) (r : Option Nat) (v : Nat) : convScaled code 0xFF r v = 0 := if_pos rfl

/-! ## The register of a scaled conversion -/

/-- The 32 codes that a scaled conversion writes for the block of lanes `i0` to `i0 + 31` under the scale `sc`. -/
def cvtBlock (code sc : Nat) (rs : Option (List Nat)) (x : BitVec 2048) (i0 : Nat) : List Nat :=
  (List.range 32).map (fun i => convScaled code sc (rs.map (fun l => nth l (i0 + i))) (nth (lanes 32 64 x) (i0 + i)))

@[simp] theorem length_cvtBlock (code sc : Nat) (rs : Option (List Nat)) (x : BitVec 2048) (i0 : Nat) :
    (cvtBlock code sc rs x i0).length = 32 := by
  rw [cvtBlock, List.length_map, List.length_range]

/-- The packed codes of that block. -/
def cvtBits (code sc : Nat) (rs : Option (List Nat)) (x : BitVec 2048) (i0 : Nat) : Nat :=
  packNat (fmtBits code) (cvtBlock code sc rs x i0)

theorem cvtBits_lt (code sc : Nat) (rs : Option (List Nat)) (x : BitVec 2048) (i0 : Nat) :
    cvtBits code sc rs x i0 < 2 ^ (32 * fmtBits code) := by
  simpa only [cvtBits, length_cvtBlock, Nat.mul_comm] using packNat_lt (fmtBits code) (cvtBlock code sc rs x i0)

theorem cvtBlock_FF (code : Nat) (rs : Option (List Nat)) (x : BitVec 2048) (i0 : Nat) :
    cvtBlock code 0xFF rs x i0 = List.replicate 32 0 := by
  simp only [cvtBlock, convScaled_FF, List.map_const', List.length_range]

@[simp] theorem cvtBits_FF (code : Nat) (rs : Option (List Nat)) (x : BitVec 2048) (i0 : Nat) :
    cvtBits code 0xFF rs x i0 = 0 := by
  rw [cvtBits, cvtBlock_FF, packNat_replicate_zero]

/-- Two fields of `n` bits from bit 0, and two scale bytes from bit `k`. -/
def scaledFields (n k a b s0 s1 : Nat) : Nat := a + 2 ^ n * b + (s0 + 256 * s1) * 2 ^ k

/-- The 64 codes of a scaled conversion are its two blocks' codes, one after the other. -/
theorem cvtCodes_eq_append (code s0 s1 : Nat) (rs : Option (List Nat)) (x : BitVec 2048) :
    (List.range (32 + 32)).map (fun i => convScaled code (if i < 32 then s0 else s1) (rs.map (fun l => nth l i))
      (nth (lanes 32 64 x) i)) = cvtBlock code s0 rs x 0 ++ cvtBlock code s1 rs x 32 := by
  rw [List.range_add, List.map_append, List.map_map]
  refine congrArg₂ (· ++ ·) (List.map_congr_left fun i hi => ?_) (List.map_congr_left fun i _ => ?_)
  · rw [if_pos (List.mem_range.mp hi), Nat.zero_add]
  · rw [Function.comp_apply, if_neg (Nat.not_lt.mpr (Nat.le_add_right 32 i))]

theorem cvtReg_scaled_eq (code : Nat) (rs : Option (List Nat)) (x : BitVec 2048) :
    let s0 := blockScale code ((lanes 32 64 x).take 32)
    let s1 := blockScale code ((lanes 32 64 x).drop 32)
    cvtReg code true rs x =
      BitVec.ofNat 2048 (scaledFields (32 * fmtBits code) 1024 (cvtBits code s0 rs x 0) (cvtBits code s1 rs x 32) s0 s1) := by
  intro s0 s1
  have hpack := packNat_append (fmtBits code) (cvtBlock code s0 rs x 0) (cvtBlock code s1 rs x 32)
  rw [← cvtCodes_eq_append, length_cvtBlock, Nat.mul_comm _ 32] at hpack
  simp only [cvtReg, packElems, if_true]
  rw [hpack]
  rfl

/-! ## Reading the fields back -/

section
variable {n k m a b s0 s1 : Nat}

/-- Every field but the first stands at a multiple of `2 ^ n`, and every one but the first two at a multiple of its square. -/
theorem scaledFields_eq_nested (hk : 2 * n ≤ k) :
    scaledFields n k a b s0 s1 = a + 2 ^ n * (b + 2 ^ n * ((s0 + 256 * s1) * 2 ^ (k - 2 * n))) := by
  obtain ⟨d, rfl⟩ := Nat.exists_eq_add_of_le hk
  rw [scaledFields, Nat.add_sub_cancel_left]
  ring

theorem scaledFields_mod (hk : 2 * n ≤ k) (ha : a < 2 ^ n) : scaledFields n k a b s0 s1 % 2 ^ n = a := by
  rw [scaledFields_eq_nested hk, Nat.add_mul_mod_self_left, Nat.mod_eq_of_lt ha]

theorem scaledFields_div_mod (hk : 2 * n ≤ k) (ha : a < 2 ^ n) (hb : b < 2 ^ n) :
    scaledFields n k a b s0 s1 / 2 ^ n % 2 ^ n = b := by
  rw [scaledFields_eq_nested hk, Nat.add_mul_div_left _ _ (Nat.two_pow_pos n), Nat.div_eq_of_lt ha, Nat.zero_add,
    Nat.add_mul_mod_self_left, Nat.mod_eq_of_lt hb]

/-- From bit `k` on stand the scale bytes alone. -/
theorem scaledFields_div (hk : 2 * n ≤ k) (ha : a < 2 ^ n) (hb : b < 2 ^ n) :
    scaledFields n k a b s0 s1 / 2 ^ k = s0 + 256 * s1 := by
  have hlow : a + 2 ^ n * b < 2 ^ k := calc
    a + 2 ^ n * b < 2 ^ n * (b + 1) := by rw [Nat.mul_succ]; omega
    _ ≤ 2 ^ n * 2 ^ n := Nat.mul_le_mul_left _ hb
    _ = 2 ^ (2 * n) := by rw [← pow_add, Nat.two_mul]
    _ ≤ 2 ^ k := Nat.pow_le_pow_right Nat.two_pos hk
  rw [scaledFields, Nat.add_mul_div_right _ _ (Nat.two_pow_pos k), Nat.div_eq_of_lt hlow, Nat.zero_add]

theorem scaledFields_lt (hk : 2 * n ≤ k) (hm : k + 16 ≤ m) (ha : a < 2 ^ n) (hb : b < 2 ^ n) (h0 : s0 < 256)
    (h1 : s1 < 256) : scaledFields n k a b s0 s1 < 2 ^ m := by
  have hscales : scaledFields n k a b s0 s1 / 2 ^ k < 2 ^ 16 := by
    rw [scaledFields_div hk ha hb]
    omega
  calc scaledFields n k a b s0 s1
    _ < 2 ^ 16 * 2 ^ k := (Nat.div_lt_iff_lt_mul (Nat.two_pow_pos k)).mp hscales
    _ = 2 ^ (k + 16) := by rw [← pow_add, Nat.add_comm]
    _ ≤ 2 ^ m := Nat.pow_le_pow_right Nat.two_pos hm

end

/-- What a scaled CVT or CVTSR writes: the packed codes of each block, and each block's scale byte. -/
theorem cvtReg_scaled_fields (code : Nat) (rs : Option (List Nat)) (x : BitVec 2048) (hw : fmtBits code ≤ 8) :
    let y := (cvtReg code true rs x).toNat
    let s0 := blockScale code ((lanes 32 64 x).take 32)
    let s1 := blockScale code ((lanes 32 64 x).drop 32)
    y / 2 ^ 1024 % 256 = s0 ∧ y % 2 ^ (32 * fmtBits code) = cvtBits code s0 rs x 0 ∧
    y / 2 ^ 1032 % 256 = s1 ∧ y / 2 ^ (32 * fmtBits code) % 2 ^ (32 * fmtBits code) = cvtBits code s1 rs x 32 := by
  intro y s0 s1
  have hk : 2 * (32 * fmtBits code) ≤ 1024 := by omega
  have ha := cvtBits_lt code s0 rs x 0
  have hb := cvtBits_lt code s1 rs x 32
  have h0 : s0 < 256 := blockScale_lt _ _
  have h1 : s1 < 256 := blockScale_lt _ _
  have hy : y = scaledFields (32 * fmtBits code) 1024 (cvtBits code s0 rs x 0) (cvtBits code s1 rs x 32) s0 s1 := by
    show (cvtReg code true rs x).toNat = _
    rw [cvtReg_scaled_eq]
    exact (BitVec.toNat_ofNat _ _).trans (Nat.mod_eq_of_lt (scaledFields_lt (m := 2048) hk (by decide) ha hb h0 h1))
  have hscales : y / 2 ^ 1024 = s0 + 256 * s1 := by rw [hy, scaledFields_div hk ha hb]
  refine ⟨?_, ?_, ?_, ?_⟩
  · rw [hscales, Nat.add_mul_mod_self_left, Nat.mod_eq_of_lt h0]
  · rw [hy, scaledFields_mod hk ha]
  · rw [show 1032 = 1024 + 8 from rfl, pow_add, ← Nat.div_div_eq_div_mul, hscales]
    omega
  · rw [hy, scaledFields_div_mod hk ha hb]

/-- Settles O60: such a block's scale is 0xFF by definition, under it every conversion gives the code 0, and the register keeps the
two blocks' fields and scale bytes apart. -/
theorem nonFiniteBlocksScaleToFF : Obligations.NonFiniteBlocksScaleToFF := by
  refine ⟨fp32NonFinite_iff, fun code vs hbad => ?_, fun code rs x hw => ?_⟩
  · rw [blockScale_of_nonFinite code hbad]
    exact ⟨rfl, convScaled_FF code⟩
  · obtain ⟨hs0, hb0, hs1, hb1⟩ := cvtReg_scaled_fields code rs x hw
    constructor <;> intro hbad
    · rw [hs0, hb0, blockScale_of_nonFinite code hbad]
      exact ⟨rfl, cvtBits_FF code rs x 0⟩
    · rw [hs1, hb1, blockScale_of_nonFinite code hbad]
      exact ⟨rfl, cvtBits_FF code rs x 32⟩

end Sys2Proof.Machine
end

section
/-! SUPPORT. What a step does to the life-cycle word to be, how a served LC_ADVANCE is refused, and the statement about the
transitions of R382. -/

namespace Sys2Proof.Machine
open Sys2Proof

/-! ## Requests that are served at once -/

/-- A vendor request of a class that Table 14.1 accepts meets none of the checks of R349 and R350: it is served on the state as it is. -/
theorem request_of_vendor {s : State} {sess : Nat} {v : Spdm} {allow : Spdm → Bool} (f : Spdm → State → State) (hv : Vendor s sess v)
    (hallow : allow v = true) : request s sess allow f = .next (f v s) := by
  obtain ⟨⟨hruns, hhalted, hprog⟩, hlook, hfinished, hsigned, hwait, hheld⟩ := hv
  have hsettled : settleProgramming s = s := by rw [settleProgramming, hprog]
  simp [request, inOrder, hruns, hsettled, hhalted, hlook, hheld, hfinished, hsigned, hwait, hallow]

/-! ## LC_ADVANCE to a state that no transition reaches -/

@[simp] theorem spendNonce_lcWord (s : State) (k : AuthToken) : (spendNonce s k).sp.lcWord = s.sp.lcWord := by
  unfold spendNonce
  split <;> rfl

/-- The state that an LC_ADVANCE asks for: its token's TARGET, or the one the platform names. -/
def advanceTarget : Advance → Nat
  | .token k => le k.bytes 5 1
  | .target n => n

theorem advance_of_no_transition {s : State} {target : Nat} (b : Bytes) (hno : transition (lcState s.sp.lcWord) target = false) :
    advance s target b = answerSp s .policyDenied [] [] := by
  simp [advance, hno]

/-- A request that fails the check of its token or issuer gets the same answer as one that lacks only the transition; `u` is the
state with the presented nonce spent (R385). -/
theorem exec_lcAdvance_of_no_transition {s : State} {sess : Nat} {v : Spdm} (by' : Advance) (hv : Vendor s sess v)
    (hno : transition (lcState s.sp.lcWord) (advanceTarget by') = false) :
    ∃ u, exec (.lcAdvance sess by') s = .next (answerSp u .policyDenied [] []) ∧ u.sp.lcWord = s.sp.lcWord := by
  change ∃ u, execLcAdvance sess by' s = _ ∧ _
  rw [execLcAdvance, request_of_vendor _ hv rfl]
  cases by' with
  | token k =>
    have hspent : transition (lcState (spendNonce s k).sp.lcWord) (le k.bytes 5 1) = false := by rwa [spendNonce_lcWord]
    refine ⟨spendNonce s k, ?_, spendNonce_lcWord s k⟩
    dsimp only
    rw [advance_of_no_transition _ hspent, ite_self]
  | target n =>
    refine ⟨s, ?_, rfl⟩
    dsimp only
    rw [advance_of_no_transition (target := n) _ hno, ite_self]

/-! ## The word to be over a step -/

/-- A transition sets bits of the word to be and clears none. -/
theorem lifeCycleStep_keeps_bits {s t : State} (h : lifeCycleStep s t) : lcSettled t.sp &&& lcSettled s.sp = lcSettled s.sp := by
  rcases h with hsame | ⟨target, -, hset⟩
  · rw [hsame, BitVec.and_self]
  · rw [hset]
    ext i hi
    simpa using Or.inl

theorem lifeCycleStep_of_advanced {s t : State} (h : Advanced s (still t)) : lifeCycleStep s t := by
  simp only [Advanced, still, Prod.mk.injEq] at h
  rcases h with ⟨-, -, hsame⟩ | ⟨target, htransition, -, -, hset⟩
  · exact .inl hsame
  · exact .inr ⟨target, htransition, hset⟩

theorem exec_lcSettled {c : Instr} {s t : State} (h : exec c s = .next t) (hc : ∀ sess by', c ≠ .lcAdvance sess by')
    (hpower : s.sp.programming = none ∨ ∀ mv, c ≠ .inputLockout mv ∧ c ≠ .inputOvervoltage mv) :
    lcSettled t.sp = lcSettled s.sp :=
  congrArg (fun x => x.2.2) (exec_still c s hc hpower t h)

/-- No programming is under way that the step's command stops by the loss of all power (R388). -/
def KeepsProgramming (s : State) : Prop :=
  s.sp.programming = none ∨ ∀ mv rest, s.pending ≠ .inputLockout mv :: rest ∧ s.pending ≠ .inputOvervoltage mv :: rest

/-- No command but LC_ADVANCE, and no passing of time, changes the word to be. -/
theorem step_lcSettled {s t : State} (h : step s = .next t) (hpower : KeepsProgramming s)
    (hc : ∀ sess by' rest, s.pending ≠ .lcAdvance sess by' :: rest) : lcSettled t.sp = lcSettled s.sp := by
  unfold step at h
  split at h
  next => rw [← Host.Outcome.next.inj h, idle_lcSettled]
  next c rest hpending =>
    refine exec_lcSettled (s := { s with pending := rest }) h (fun sess by' e => hc sess by' rest (e ▸ hpending)) (hpower.imp id fun k mv => ?_)
    exact ⟨fun e => (k mv rest).1 (e ▸ hpending), fun e => (k mv rest).2 (e ▸ hpending)⟩

theorem step_lifeCycleStep {s t : State} (h : step s = .next t) (hpower : KeepsProgramming s) : lifeCycleStep s t := by
  by_cases hc : ∃ sess by' rest, s.pending = .lcAdvance sess by' :: rest
  · obtain ⟨sess, by', rest, hpending⟩ := hc
    rw [step, hpending] at h
    exact lifeCycleStep_of_advanced (s := { s with pending := rest }) (execLcAdvance_next h)
  · exact .inl (step_lcSettled h hpower fun sess by' rest e => hc ⟨sess, by', rest, e⟩)

/-! ## The transitions that exist -/

theorem transition_iff (a b : Nat) : transition a b = true ↔ (a, b) ∈ [(0, 1), (1, 2), (2, 3), (3, 4), (4, 5), (3, 5)] :=
  List.contains_iff_mem

/-- Settles O6: LC_ADVANCE alone changes the word to be, by the code of a state that a transition reaches, or-ed onto it; every other
target is refused before programming begins. -/
theorem lifeCycleBitsOnlyAdvance : Obligations.LifeCycleBitsOnlyAdvance := by
  refine ⟨fun s t h hpower => ?_, fun sess v by' s hv hno => ?_, fun mv s => ⟨rfl, rfl⟩,
    fun s => ⟨settleProgramming_over s, settleProgramming_lcWord s⟩, transition_iff⟩
  · have hstep := step_lifeCycleStep h hpower
    exact ⟨hstep, lifeCycleStep_keeps_bits hstep, step_lcSettled h hpower⟩
  · have hno' : transition (lcState s.sp.lcWord) (advanceTarget by') = false := by cases by' <;> exact hno
    obtain ⟨u, hexec, hword⟩ := exec_lcAdvance_of_no_transition by' hv hno'
    exact ⟨_, hexec, rfl, hword⟩

end Sys2Proof.Machine
end

section
/-! SUPPORT. Statements about every step: the reset state, the life-cycle word, module time and the waiting commands, that every
command answers, and what an idle step moves. -/

namespace Sys2Proof.Machine
open Sys2Proof

/-! ## The reset state -/

/-- Settles O1: a step is defined by the front of the queue. -/
theorem stepRunsFrontCommand : Obligations.StepRunsFrontCommand := by
  intro c rest s
  rfl

/-- Settles O4: FIELD's code is a state of Table 15.1. -/
theorem resetLifeCycleIsLegal : Obligations.ResetLifeCycleIsLegal := by
  show lcState (lcSettled State.reset.sp) ≠ 7
  decide

/-- Settles O3: every field reads its reset value, and every table without entries its default. -/
theorem resetStateHoldsNothingOpen : Obligations.ResetStateHoldsNothingOpen := by
  refine ⟨rfl, rfl, rfl, rfl, rfl, rfl, rfl, rfl, rfl, rfl, rfl, rfl, rfl, rfl, rfl, rfl, rfl, rfl, fun p => ?_, fun k => ?_, fun a => ?_,
    rfl, rfl, rfl, rfl, rfl⟩
  · exact congrArg Port.state (tget_nil {} p)
  · exact congrArg KeyCtx.state (tget_nil {} k)
  · exact tget_nil 0 a

/-! ## The life-cycle word -/

/-- Every legal word is the code of its state (Table 15.1). -/
theorem eq_lcCode_of_lcState {w : DWord} {n : Nat} (h : lcState w = n) (hn : n ≠ 7) : w = lcCode n := by
  subst h
  revert hn
  fun_cases lcState w <;> simp_all [lcCode]

/-- The codes of Table 15.1 grow: a transition of R382, or-ed onto its start, spells its target. -/
theorem lcState_or_lcCode {a b : Nat} (h : transition a b = true) : a ≠ 7 ∧ lcState (lcCode a ||| lcCode b) = b := by
  rw [transition_iff] at h
  simp only [List.mem_cons, Prod.mk.injEq, List.not_mem_nil, or_false] at h
  rcases h with ⟨rfl, rfl⟩ | ⟨rfl, rfl⟩ | ⟨rfl, rfl⟩ | ⟨rfl, rfl⟩ | ⟨rfl, rfl⟩ | ⟨rfl, rfl⟩ <;> decide

theorem transition_target_ne {a b : Nat} (h : transition a b = true) : b ≠ 7 := by
  rintro rfl
  exact absurd ((transition_iff a 7).1 h) (by simp)

/-- Settles O5: a step leaves the word to be, or ors onto a legal word the code of a transition's target, which then it spells. -/
theorem lifeCycleWordStaysLegal : Obligations.LifeCycleWordStaysLegal := by
  intro s t hlegal hstep hpower
  rcases step_lifeCycleStep hstep hpower with hsame | ⟨target, htrans, hset⟩
  · unfold lifeCycleLegal
    rwa [hsame]
  · have hword := eq_lcCode_of_lcState rfl hlegal
    unfold lifeCycleLegal
    rw [hset, hword, (lcState_or_lcCode htrans).2]
    exact transition_target_ne htrans

/-! ## Module time and the waiting commands -/

theorem exec_ns_pending {c : Instr} {s t : State} (h : exec c s = .next t) : t.ns = s.ns ∧ t.pending = s.pending := by
  by_cases hadvance : ∃ sess by', c = .lcAdvance sess by'
  · obtain ⟨sess, by', rfl⟩ := hadvance
    rcases execLcAdvance_next h with hsame | ⟨_, _, hset⟩
    · exact ⟨congrArg (·.1) hsame, congrArg (·.2.1) hsame⟩
    · exact ⟨congrArg (·.1) hset, congrArg (·.2.1) hset⟩
  by_cases hpower : ∃ mv, c = .inputLockout mv ∨ c = .inputOvervoltage mv
  · obtain ⟨mv, rfl | rfl⟩ := hpower
    · change execInputLockout mv s = _ at h
      revert h
      fun_cases execInputLockout mv s <;> rintro ⟨⟩ <;> exact ⟨rfl, rfl⟩
    · change execInputOvervoltage mv s = _ at h
      revert h
      fun_cases execInputOvervoltage mv s <;> rintro ⟨⟩ <;> exact ⟨rfl, rfl⟩
  · push Not at hadvance hpower
    have hkept := exec_still c s hadvance (.inr hpower) t h
    exact ⟨congrArg (·.1) hkept, congrArg (·.2.1) hkept⟩

/-- Settles O7: a step runs its command on the rest of the queue, and no command changes the time or that rest. -/
theorem commandsTakeNoTimeAndKeepQueue : Obligations.CommandsTakeNoTimeAndKeepQueue := by
  intro c rest s t hpending h
  rw [step, hpending] at h
  exact exec_ns_pending (s := { s with pending := rest }) h

/-! ## Every command answers -/

theorem request_answers (s : State) (sess : Nat) (allow : Spdm → Bool) (f : Spdm → State → State) :
    ∃ t, request s sess allow f = .next t := by
  unfold request
  dsimp only
  repeat' split
  all_goals exact ⟨_, rfl⟩

theorem spdm_answers (s : State) (f : State → State) : ∃ t, spdm s f = .next t := by
  unfold spdm
  dsimp only
  repeat' split
  all_goals exact ⟨_, rfl⟩

theorem pldm_answers (s : State) (f : State → State) : ∃ t, pldm s f = .next t := by
  unfold pldm
  dsimp only
  repeat' split
  all_goals exact ⟨_, rfl⟩

/-- Settles O8: along every branch of its meaning a command answers a next state. -/
theorem everyCommandAnswersNext : Obligations.EveryCommandAnswersNext := by
  intro c s
  cases c with
  | bundleIssue => dsimp only [exec]; fun_cases execBundleIssue <;> exact ⟨_, rfl⟩
  | waitTokRelease => dsimp only [exec]; fun_cases execWaitTokRelease <;> exact ⟨_, rfl⟩
  | waitSigRelease => dsimp only [exec]; fun_cases execWaitSigRelease <;> exact ⟨_, rfl⟩
  | waitArrRelease => dsimp only [exec]; fun_cases execWaitArrRelease <;> exact ⟨_, rfl⟩
  | crewSyncRelease => dsimp only [exec]; fun_cases execCrewSyncRelease <;> exact ⟨_, rfl⟩
  | endRelease => dsimp only [exec]; fun_cases execEndRelease <;> exact ⟨_, rfl⟩
  | taskScrubComplete => dsimp only [exec]; fun_cases execTaskScrubComplete <;> exact ⟨_, rfl⟩
  | signalIncrement => dsimp only [exec]; fun_cases execSignalIncrement <;> exact ⟨_, rfl⟩
  | meshPutLand => dsimp only [exec]; fun_cases execMeshPutLand <;> exact ⟨_, rfl⟩
  | dmaOperationStart => dsimp only [exec]; fun_cases execDmaOperationStart <;> exact ⟨_, rfl⟩
  | dmaOperationComplete => dsimp only [exec]; fun_cases execDmaOperationComplete <;> exact ⟨_, rfl⟩
  | gangStart => dsimp only [exec]; fun_cases execGangStart <;> exact ⟨_, rfl⟩
  | gangComplete => dsimp only [exec]; fun_cases execGangComplete <;> exact ⟨_, rfl⟩
  | stageStart => dsimp only [exec]; fun_cases execStageStart <;> exact ⟨_, rfl⟩
  | stageComplete => dsimp only [exec]; fun_cases execStageComplete <;> exact ⟨_, rfl⟩
  | tilePassSwap => dsimp only [exec]; fun_cases execTilePassSwap <;> exact ⟨_, rfl⟩
  | tileComplete => dsimp only [exec]; fun_cases execTileComplete <;> exact ⟨_, rfl⟩
  | cFillStart => dsimp only [exec]; fun_cases execCFillStart <;> exact ⟨_, rfl⟩
  | cFillComplete => dsimp only [exec]; fun_cases execCFillComplete <;> exact ⟨_, rfl⟩
  | drainStart => dsimp only [exec]; fun_cases execDrainStart <;> exact ⟨_, rfl⟩
  | drainComplete => dsimp only [exec]; fun_cases execDrainComplete <;> exact ⟨_, rfl⟩
  | taskStopComplete => dsimp only [exec]; fun_cases execTaskStopComplete <;> exact ⟨_, rfl⟩
  | planLoad => dsimp only [exec]; fun_cases execPlanLoad <;> exact ⟨_, rfl⟩
  | arbitrationDecision => dsimp only [exec]; fun_cases execArbitrationDecision <;> exact ⟨_, rfl⟩
  | skimAdmission => dsimp only [exec]; fun_cases execSkimAdmission <;> exact ⟨_, rfl⟩
  | prologueLoadIssue => dsimp only [exec]; fun_cases execPrologueLoadIssue <;> exact ⟨_, rfl⟩
  | aheadDispatch => dsimp only [exec]; fun_cases execAheadDispatch <;> exact ⟨_, rfl⟩
  | skimRangeZero => dsimp only [exec]; fun_cases execSkimRangeZero <;> exact ⟨_, rfl⟩
  | watchdogExpiry => dsimp only [exec]; fun_cases execWatchdogExpiry <;> exact ⟨_, rfl⟩
  | signalLimitExpiry => dsimp only [exec]; fun_cases execSignalLimitExpiry <;> exact ⟨_, rfl⟩
  | submissionFetch => dsimp only [exec]; fun_cases execSubmissionFetch <;> exact ⟨_, rfl⟩
  | commandCompletion => dsimp only [exec]; fun_cases execCommandCompletion <;> exact ⟨_, rfl⟩
  | sqTailDoorbell => exact ⟨_, rfl⟩
  | cqHeadDoorbell => exact ⟨_, rfl⟩
  | primeBitsSet => dsimp only [exec]; fun_cases execPrimeBitsSet <;> exact ⟨_, rfl⟩
  | unmapAccessTimeout => dsimp only [exec]; fun_cases execUnmapAccessTimeout <;> exact ⟨_, rfl⟩
  | clusterRemovalTimeout => dsimp only [exec]; fun_cases execClusterRemovalTimeout <;> exact ⟨_, rfl⟩
  | queueDestroyTimeout => dsimp only [exec]; fun_cases execQueueDestroyTimeout <;> exact ⟨_, rfl⟩
  | lineRead => dsimp only [exec]; fun_cases execLineRead <;> exact ⟨_, rfl⟩
  | lineWrite => dsimp only [exec]; fun_cases execLineWrite <;> exact ⟨_, rfl⟩
  | zeroFillComplete => exact ⟨_, rfl⟩
  | patrolScrubRead => dsimp only [exec]; fun_cases execPatrolScrubRead <;> exact ⟨_, rfl⟩
  | memoryRefresh => dsimp only [exec]; fun_cases execMemoryRefresh <;> exact ⟨_, rfl⟩
  | sandingRetry => dsimp only [exec]; fun_cases execSandingRetry <;> exact ⟨_, rfl⟩
  | sandingLineStep => dsimp only [exec]; fun_cases execSandingLineStep <;> exact ⟨_, rfl⟩
  | d2dFrameSend => dsimp only [exec]; fun_cases execD2dFrameSend <;> exact ⟨_, rfl⟩
  | d2dFrameReceive => dsimp only [exec]; fun_cases execD2dFrameReceive <;> exact ⟨_, rfl⟩
  | linkKeyInstall => dsimp only [exec]; fun_cases execLinkKeyInstall <;> exact ⟨_, rfl⟩
  | linkKeyTimeout => dsimp only [exec]; fun_cases execLinkKeyTimeout <;> exact ⟨_, rfl⟩
  | portTrainingComplete => dsimp only [exec]; fun_cases execPortTrainingComplete <;> exact ⟨_, rfl⟩
  | linkFrameReceive => dsimp only [exec]; fun_cases execLinkFrameReceive <;> exact ⟨_, rfl⟩
  | linkNakReceive => dsimp only [exec]; fun_cases execLinkNakReceive <;> exact ⟨_, rfl⟩
  | linkAckReceive => dsimp only [exec]; fun_cases execLinkAckReceive <;> exact ⟨_, rfl⟩
  | store => exact ⟨_, rfl⟩
  | put => exact ⟨_, rfl⟩
  | load => exact ⟨_, rfl⟩
  | get => exact ⟨_, rfl⟩
  | fetchAdd => exact ⟨_, rfl⟩
  | compareSwap => exact ⟨_, rfl⟩
  | leaseAcquire => exact ⟨_, rfl⟩
  | leaseRelease => exact ⟨_, rfl⟩
  | resp => dsimp only [exec]; fun_cases execResp <;> exact ⟨_, rfl⟩
  | respTimeout => dsimp only [exec]; fun_cases execRespTimeout <;> exact ⟨_, rfl⟩
  | completionRecordExpiry => dsimp only [exec]; exact ⟨_, rfl⟩
  | epochHoldTimeout => dsimp only [exec]; fun_cases execEpochHoldTimeout <;> exact ⟨_, rfl⟩
  | plumbSyncTimer => dsimp only [exec]; fun_cases execPlumbSyncTimer <;> exact ⟨_, rfl⟩
  | syncReq => dsimp only [exec]; fun_cases execSyncReq <;> exact ⟨_, rfl⟩
  | syncResp => dsimp only [exec]; fun_cases execSyncResp <;> exact ⟨_, rfl⟩
  | plumbLockLoss => dsimp only [exec]; fun_cases execPlumbLockLoss <;> exact ⟨_, rfl⟩
  | ppsInEdge => dsimp only [exec]; fun_cases execPpsInEdge <;> exact ⟨_, rfl⟩
  | ppsOutPulse => dsimp only [exec]; fun_cases execPpsOutPulse <;> exact ⟨_, rfl⟩
  | slotSlip => dsimp only [exec]; fun_cases execSlotSlip <;> exact ⟨_, rfl⟩
  | scheduledLaneReturn => dsimp only [exec]; fun_cases execScheduledLaneReturn <;> exact ⟨_, rfl⟩
  | epochUpdate => dsimp only [exec]; fun_cases execEpochUpdate <;> exact ⟨_, rfl⟩
  | epochAck => dsimp only [exec]; fun_cases execEpochAck <;> exact ⟨_, rfl⟩
  | epochAckTimeout => dsimp only [exec]; fun_cases execEpochAckTimeout <;> exact ⟨_, rfl⟩
  | lathKeyRetire => dsimp only [exec]; fun_cases execLathKeyRetire <;> exact ⟨_, rfl⟩
  | lathPairWaitTimeout => dsimp only [exec]; fun_cases execLathPairWaitTimeout <;> exact ⟨_, rfl⟩
  | reduceData => exact ⟨_, rfl⟩
  | bcastData => exact ⟨_, rfl⟩
  | credit => exact ⟨_, rfl⟩
  | hold => exact ⟨_, rfl⟩
  | abort => exact ⟨_, rfl⟩
  | holdTimer => dsimp only [exec]; fun_cases execHoldTimer <;> exact ⟨_, rfl⟩
  | slotLeaseExpiry => dsimp only [exec]; fun_cases execSlotLeaseExpiry <;> exact ⟨_, rfl⟩
  | trowelChunkRetire => dsimp only [exec]; fun_cases execTrowelChunkRetire <;> exact ⟨_, rfl⟩
  | healthWindowExpiry => dsimp only [exec]; fun_cases execHealthWindowExpiry <;> exact ⟨_, rfl⟩
  | ckptCapture => exact request_answers ..
  | ckptRestore => exact request_answers ..
  | ckptVerify => exact request_answers ..
  | sessionOpen => exact request_answers ..
  | sessionApprove => exact request_answers ..
  | sessionJoin => exact request_answers ..
  | sessionEnd => exact request_answers ..
  | keyImport => exact request_answers ..
  | keyCtxBind => exact request_answers ..
  | keyCtxErase => exact request_answers ..
  | keyRollInstall => exact request_answers ..
  | keyRollRetire => exact request_answers ..
  | sandStart => exact request_answers ..
  | windowOpen => exact request_answers ..
  | windowClose => exact request_answers ..
  | groupOpen => exact request_answers ..
  | groupClose => exact request_answers ..
  | epochRequest => exact request_answers ..
  | domainForm => exact request_answers ..
  | domainJoin => exact request_answers ..
  | releasePrepare => exact request_answers ..
  | releaseKeyGet => exact request_answers ..
  | slotErase => exact request_answers ..
  | slotZeroize => dsimp only [exec]; fun_cases execSlotZeroize <;> exact ⟨_, rfl⟩
  | slotRemask => dsimp only [exec]; fun_cases execSlotRemask <;> exact ⟨_, rfl⟩
  | measLogRead => exact request_answers ..
  | pqOffer => unfold exec execPqOffer; exact spdm_answers ..
  | pqSign => unfold exec execPqSign; exact spdm_answers ..
  | pqCountersign => exact request_answers ..
  | levelPair => exact request_answers ..
  | spLogRead => exact request_answers ..
  | spdmKeyExchange => unfold exec execSpdmKeyExchange; exact spdm_answers ..
  | spdmFinish => unfold exec execSpdmFinish; exact spdm_answers ..
  | spdmGetMeasurements => unfold exec execSpdmGetMeasurements; exact spdm_answers ..
  | spdmUnsupportedRequest => dsimp only [exec]; fun_cases execSpdmUnsupportedRequest; exacts [request_answers .., spdm_answers ..]
  | entropyStartup => dsimp only [exec]; fun_cases execEntropyStartup <;> exact ⟨_, rfl⟩
  | entropyTestFailure => exact ⟨_, rfl⟩
  | drbgReseed => dsimp only [exec]; fun_cases execDrbgReseed <;> exact ⟨_, rfl⟩
  | rootSecretGenerate => dsimp only [exec]; fun_cases execRootSecretGenerate <;> exact ⟨_, rfl⟩
  | lcGet => dsimp only [exec]; fun_cases execLcGet; exacts [⟨_, rfl⟩, request_answers ..]
  | lcNonce => exact request_answers ..
  | lcAdvance => exact request_answers ..
  | debugChallenge => exact request_answers ..
  | debugUnlock => exact request_answers ..
  | debugLock => exact request_answers ..
  | debugKill => exact request_answers ..
  | nonceLapse => exact ⟨_, rfl⟩
  | debugDurationExpiry => dsimp only [exec]; fun_cases execDebugDurationExpiry <;> exact ⟨_, rfl⟩
  | levelPeerSilent => dsimp only [exec]; fun_cases execLevelPeerSilent <;> exact ⟨_, rfl⟩
  | clkgateWrite => dsimp only [exec]; fun_cases execClkgateWrite <;> exact ⟨_, rfl⟩
  | clkgateTakeEffect => dsimp only [exec]; fun_cases execClkgateTakeEffect <;> exact ⟨_, rfl⟩
  | domainDrainEnd => dsimp only [exec]; fun_cases execDomainDrainEnd <;> exact ⟨_, rfl⟩
  | domainWakeComplete => dsimp only [exec]; fun_cases execDomainWakeComplete <;> exact ⟨_, rfl⟩
  | clusterClockStop => dsimp only [exec]; fun_cases execClusterClockStop <;> exact ⟨_, rfl⟩
  | clusterOffDelay => dsimp only [exec]; fun_cases execClusterOffDelay <;> exact ⟨_, rfl⟩
  | clockLadderStep => dsimp only [exec]; fun_cases execClockLadderStep <;> exact ⟨_, rfl⟩
  | dvfsDecision => dsimp only [exec]; fun_cases execDvfsDecision <;> exact ⟨_, rfl⟩
  | clockLoss => dsimp only [exec]; fun_cases execClockLoss <;> exact ⟨_, rfl⟩
  | clockRecovery => dsimp only [exec]; fun_cases execClockRecovery <;> exact ⟨_, rfl⟩
  | fastCurrentOverride => dsimp only [exec]; fun_cases execFastCurrentOverride <;> exact ⟨_, rfl⟩
  | sustainedCurrentStep => dsimp only [exec]; fun_cases execSustainedCurrentStep <;> exact ⟨_, rfl⟩
  | voltageDroop => dsimp only [exec]; fun_cases execVoltageDroop <;> exact ⟨_, rfl⟩
  | temperatureThrottleStep => dsimp only [exec]; fun_cases execTemperatureThrottleStep <;> exact ⟨_, rfl⟩
  | temperatureFloor => dsimp only [exec]; fun_cases execTemperatureFloor <;> exact ⟨_, rfl⟩
  | temperatureTrip => dsimp only [exec]; fun_cases execTemperatureTrip <;> exact ⟨_, rfl⟩
  | tripCooldownRelease => dsimp only [exec]; fun_cases execTripCooldownRelease <;> exact ⟨_, rfl⟩
  | throttleOutRelease => dsimp only [exec]; fun_cases execThrottleOutRelease <;> exact ⟨_, rfl⟩
  | brakeAssertedRepeat => dsimp only [exec]; fun_cases execBrakeAssertedRepeat <;> exact ⟨_, rfl⟩
  | brakeInTrigger => dsimp only [exec]; fun_cases execBrakeInTrigger <;> exact ⟨_, rfl⟩
  | brakeRelease => dsimp only [exec]; fun_cases execBrakeRelease <;> exact ⟨_, rfl⟩
  | loanReclaim => dsimp only [exec]; fun_cases execLoanReclaim <;> exact ⟨_, rfl⟩
  | evrCfgWrite => exact ⟨_, rfl⟩
  | evrHeadWrite => exact ⟨_, rfl⟩
  | wmStickyWrite => exact ⟨_, rfl⟩
  | evtStickyWrite => exact ⟨_, rfl⟩
  | rcFieldRead => exact ⟨_, rfl⟩
  | plumbLoRead => exact ⟨_, rfl⟩
  | q0CfgWrite => exact ⟨_, rfl⟩
  | lpCtrlWrite => dsimp only [exec]; fun_cases execLpCtrlWrite <;> exact ⟨_, rfl⟩
  | registerWrite => exact ⟨_, rfl⟩
  | inputPowerUp => dsimp only [exec]; fun_cases execInputPowerUp <;> exact ⟨_, rfl⟩
  | inputBrownOut => dsimp only [exec]; fun_cases execInputBrownOut <;> exact ⟨_, rfl⟩
  | inputLockout => dsimp only [exec]; fun_cases execInputLockout <;> exact ⟨_, rfl⟩
  | inputOvervoltage => dsimp only [exec]; fun_cases execInputOvervoltage <;> exact ⟨_, rfl⟩
  | perstAssert => dsimp only [exec]; fun_cases execPerstAssert <;> exact ⟨_, rfl⟩
  | perstDeassert => dsimp only [exec]; fun_cases execPerstDeassert <;> exact ⟨_, rfl⟩
  | cableInsert => dsimp only [exec]; fun_cases execCableInsert <;> exact ⟨_, rfl⟩
  | cableRemove => dsimp only [exec]; fun_cases execCableRemove <;> exact ⟨_, rfl⟩
  | smbusStuck => dsimp only [exec]; fun_cases execSmbusStuck <;> exact ⟨_, rfl⟩
  | smbusResume => exact ⟨_, rfl⟩
  | smbusAlertResponse => dsimp only [exec]; fun_cases execSmbusAlertResponse <;> exact ⟨_, rfl⟩
  | mctpControlMessage => dsimp only [exec]; fun_cases execMctpControlMessage <;> exact ⟨_, rfl⟩
  | pldmFwTransfer => unfold exec execPldmFwTransfer; exact pldm_answers ..
  | pldmApply => unfold exec execPldmApply; exact pldm_answers ..
  | pldmActivateFirmware => unfold exec execPldmActivateFirmware; exact pldm_answers ..
  | pldmSensorRead => dsimp only [exec]; fun_cases execPldmSensorRead <;> exact ⟨_, rfl⟩
  | pldmFruRead => dsimp only [exec]; fun_cases execPldmFruRead <;> exact ⟨_, rfl⟩
  | sensorRefresh => dsimp only [exec]; fun_cases execSensorRefresh <;> exact ⟨_, rfl⟩
  | d2dLinkTrainingComplete => dsimp only [exec]; fun_cases execD2dLinkTrainingComplete <;> exact ⟨_, rfl⟩
  | clusterScrubComplete => dsimp only [exec]; fun_cases execClusterScrubComplete <;> exact ⟨_, rfl⟩
  | safetyOverrideEnd => dsimp only [exec]; fun_cases execSafetyOverrideEnd <;> exact ⟨_, rfl⟩
  | brownOutRecovery => dsimp only [exec]; fun_cases execBrownOutRecovery <;> exact ⟨_, rfl⟩
  | overvoltageRecovery => dsimp only [exec]; fun_cases execOvervoltageRecovery <;> exact ⟨_, rfl⟩
  | crystalReturn => exact ⟨_, rfl⟩
  | laneSlotStart => dsimp only [exec]; fun_cases execLaneSlotStart <;> exact ⟨_, rfl⟩
  | platformManagementRequest => dsimp only [exec]; fun_cases execPlatformManagementRequest <;> exact ⟨_, rfl⟩
  | spdmGetVersion => unfold exec execSpdmGetVersion; exact spdm_answers ..
  | spdmGetCapabilities => unfold exec execSpdmGetCapabilities; exact spdm_answers ..
  | spdmNegotiateAlgorithms => unfold exec execSpdmNegotiateAlgorithms; exact spdm_answers ..
  | spdmGetDigests => unfold exec execSpdmGetDigests; exact spdm_answers ..
  | spdmGetCertificate => unfold exec execSpdmGetCertificate; exact spdm_answers ..
  | spdmChallenge => unfold exec execSpdmChallenge; exact spdm_answers ..
  | spdmHeartbeat => unfold exec execSpdmHeartbeat; exact spdm_answers ..
  | spdmKeyUpdate => unfold exec execSpdmKeyUpdate; exact spdm_answers ..
  | spdmEndSession => unfold exec execSpdmEndSession; exact spdm_answers ..

/-! ## An idle step -/

theorem tlook_map {α β : Type} (f : Nat → α → β) (t : Tab α) (k : Nat) :
    tlook (t.map (fun p => (p.1, f p.1 p.2))) k = (tlook t k).map (f k) := by
  induction t with
  | nil => rfl
  | cons p t ih =>
    simp only [List.map_cons, tlook]
    split
    · next h => subst h; rfl
    · exact ih

/-- A table whose entries are changed one by one reads, at a number whose entry stays and where the default stays, as before. -/
theorem tget_map_of_fixed {α : Type} (d : α) (f : Nat → α → α) (t : Tab α) (k : Nat) (h : f k (tget d t k) = tget d t k) :
    tget d (t.map (fun p => (p.1, f p.1 p.2))) k = tget d t k := by
  unfold tget at h ⊢
  rw [tlook_map]
  cases e : tlook t k with
  | none => rfl
  | some v => rw [e] at h; exact h

theorem passCycle_of_no_tile {c : Core} (cyc : Nat) (ha : c.arrayPath = []) (hd : c.drainPath = []) : passCycle cyc c = (c, 0) := by
  simp [passCycle, ha, hd]

theorem passCycles_of_no_tile {c : Core} (first n : Nat) (ha : c.arrayPath = []) (hd : c.drainPath = []) :
    passCycles first n c = (c, 0) := by
  unfold passCycles
  induction n with
  | zero => rfl
  | succ n ih => rw [List.range_succ, List.foldl_append, ih]; simp [passCycle_of_no_tile _ ha hd]

theorem tickCore_of_no_tile {s : State} {core : Nat} {c : Core} (ha : c.arrayPath = []) (hd : c.drainPath = []) :
    tickCore s core c = (c, 0) := by
  unfold tickCore
  dsimp only
  split
  · exact passCycles_of_no_tile _ _ ha hd
  · rfl

theorem tickCore_of_gated {s : State} {core : Nat} (c : Core) (h : (clusterOf s (clusterNo core)).clock = false) :
    tickCore s core c = (c, 0) := by
  simp [tickCore, h]

theorem coreOf_tick_of_fixed {s : State} {c : Nat} (h : tickCore s c (coreOf s c) = (coreOf s c, 0)) : coreOf (tick s) c = coreOf s c :=
  tget_map_of_fixed ({} : Core) (fun k v => (tickCore s k v).1) s.cores c (congrArg Prod.fst h)

theorem tickLost_of_gated {s : State} {k : Nat} (h : (clusterOf s k).clock = false) : tickLost s k = 0 := by
  unfold tickLost
  have hlost : ∀ (l : List (Nat × Core)), (∀ p ∈ l, clusterNo p.1 = k) → l.foldl (fun n p => n + (tickCore s p.1 p.2).2) 0 = 0 := by
    intro l
    induction l with
    | nil => exact fun _ => rfl
    | cons p l ih =>
      intro hl
      have hp : (clusterOf s (clusterNo p.1)).clock = false := by rw [hl p List.mem_cons_self, h]
      rw [List.foldl_cons, tickCore_of_gated _ hp]
      exact ih fun q hq => hl q (List.mem_cons_of_mem p hq)
  exact hlost _ fun p hp => by simpa using (List.mem_filter.1 hp).2

theorem clusterOf_tick_of_gated {s : State} {k : Nat} (h : (clusterOf s k).clock = false) (hport : (clusterOf s k).portF < 2 ^ 32) :
    clusterOf (tick s) k = clusterOf s k := by
  refine tget_map_of_fixed {} (fun n v => { tickCluster v with portF := satAdd 32 v.portF (tickLost s n) }) s.clusters k ?_
  have hsat : satAdd 32 (clusterOf s k).portF 0 = (clusterOf s k).portF := by unfold satAdd; omega
  have hstay : tickCluster (clusterOf s k) = clusterOf s k := by simp [tickCluster, h]
  change ({ tickCluster (clusterOf s k) with portF := satAdd 32 (clusterOf s k).portF (tickLost s k) } : Cluster) = clusterOf s k
  rw [tickLost_of_gated h, hsat, hstay]

theorem ckptTick_of_none {s : State} (h : ckptSessions s = []) : ckptTick s = s := by simp [ckptTick, h]

theorem programTick_of_none {s : State} (h : s.sp.programming = none) : programTick s = s := by rw [programTick, h]

theorem lateTick_of_none {s : State} (h : ∀ x ∈ s.sp.spdm, x.2.late = []) : lateTick s = s := by
  have hnone : s.sp.spdm.find? (fun x => !x.2.late.isEmpty && !outstanding s x.1) = none :=
    List.find?_eq_none.2 fun x hx => by simp [h x hx]
  rw [lateTick, hnone]

/-- With nothing of the security processor that goes on by itself, an idle step moves the clocks alone. -/
theorem idle_eq_tick {s : State} (h : s.half = false ∨
    (ckptSessions s = [] ∧ s.sp.programming = none ∧ ∀ x ∈ s.sp.spdm, x.2.late = [])) : idle s = tick s := by
  unfold idle
  split
  · next hhalf =>
    obtain hfirst | ⟨hckpt, hprog, hlate⟩ := h
    · rw [hfirst] at hhalf; contradiction
    · rw [ckptTick_of_none (s := tick s) hckpt, programTick_of_none (s := tick s) hprog, lateTick_of_none (s := tick s) hlate]
  · rfl

theorem tickPlumb_of_stopped {ns : Nat} {p : Plumb} (h : p.running = false) : tickPlumb ns p = p := by simp [tickPlumb, h]

/-- Settles O2: half a nanosecond is a tick of the clocks, after which only a checkpoint, programming or a waiting answer goes on. -/
theorem idleStepMovesOnlyClocks : Obligations.IdleStepMovesOnlyClocks := by
  intro s hpending
  refine ⟨idle s, by rw [step, hpending], ?_, (idle_pending s).trans hpending, idle_lcSettled s, fun hquiet => ?_⟩
  · rw [idle_ns]
    cases s.half <;> rfl
  · rw [idle_eq_tick hquiet]
    refine ⟨rfl, rfl, rfl, rfl, rfl, rfl, rfl, rfl, rfl, rfl, rfl, rfl, fun hplumb => ?_, fun c ha hd => ?_, fun c hclock => ?_, fun k => ?_⟩
    · show (if s.half then tickPlumb s.ns s.fab.plumb else s.fab.plumb) = s.fab.plumb
      rw [tickPlumb_of_stopped hplumb, ite_self]
    · exact coreOf_tick_of_fixed (tickCore_of_no_tile ha hd)
    · exact coreOf_tick_of_fixed (tickCore_of_gated _ hclock)
    · exact clusterOf_tick_of_gated

end Sys2Proof.Machine
end

section
/-! SUPPORT. Wait points, the release of a crew, bundles, and the ends of tasks (chapter 04). -/

namespace Sys2Proof.Machine
open Sys2Proof

/-- What one step of a fold leaves alone, the fold leaves alone. -/
theorem foldl_keeps {σ α β : Type} (π : σ → β) {f : σ → α → σ} (h : ∀ s x, π (f s x) = π s) (l : List α) (s : σ) :
    π (l.foldl f s) = π s := by
  induction l generalizing s with
  | nil => rfl
  | cons x l ih => rw [List.foldl_cons, ih, h]

/-! ## Fault records -/

@[simp] theorem drawFree_cores (s : State) : (drawFree s).2.cores = s.cores := rfl
@[simp] theorem drawFree_plans (s : State) : (drawFree s).2.plans = s.plans := rfl

theorem reportFault_cores (s : State) (ctx : Nat) (st : Status) (queue cmd task : Nat) (addr : Option Nat) :
    (reportFault s ctx st queue cmd task addr).cores = s.cores := by
  cases addr <;> simp [reportFault, apply_ite State.cores]
theorem reportFault_mem (s : State) (ctx : Nat) (st : Status) (queue cmd task : Nat) (addr : Option Nat) :
    (reportFault s ctx st queue cmd task addr).mem = s.mem := by
  cases addr <;> simp [reportFault, apply_ite State.mem]
theorem reportFault_plans (s : State) (ctx : Nat) (st : Status) (queue cmd task : Nat) (addr : Option Nat) :
    (reportFault s ctx st queue cmd task addr).plans = s.plans := by
  cases addr <;> simp [reportFault, apply_ite State.plans]

/-- What a fault record leaves alone, the records of the faults that a core's tokens held leave alone. -/
theorem reportHeld_keeps {β : Type} (π : State → β)
    (h : ∀ s ctx st queue cmd task addr, π (reportFault s ctx st queue cmd task addr) = π s) (s : State) (core : Nat) :
    π (reportHeld s core) = π s := by
  unfold reportHeld
  split
  · rfl
  · split
    · rfl
    · refine foldl_keeps π (fun u t => ?_) _ s
      unfold recordSealed
      split
      · exact h ..
      · rfl

@[simp] theorem reportHeld_cores (s : State) (core : Nat) : (reportHeld s core).cores = s.cores :=
  reportHeld_keeps State.cores reportFault_cores s core
@[simp] theorem reportHeld_mem (s : State) (core : Nat) : (reportHeld s core).mem = s.mem :=
  reportHeld_keeps State.mem reportFault_mem s core
@[simp] theorem reportHeld_plans (s : State) (core : Nat) : (reportHeld s core).plans = s.plans :=
  reportHeld_keeps State.plans reportFault_plans s core

theorem reportHeld_of_none {s : State} {core : Nat} (h : heldSealed s core = []) : reportHeld s core = s := by
  unfold reportHeld
  split
  · rfl
  · split
    · rfl
    · rw [h]; rfl

/-! ## Setting one core -/

theorem sameButCores_setCore (s : State) (core : Nat) (v : Core) : sameButCores s (setCore s core v) := rfl

theorem otherCoresKept_setCore {s u : State} (h : u.cores = s.cores) (core : Nat) (v : Core) : otherCoresKept s (setCore u core v) core :=
  fun c hc => (coreOf_setCore_ne u c core v hc).trans (congrArg (fun l => tget ({} : Core) l c) h)

/-! ## Releases -/

/-- The core after a wait point of it has released. -/
def released (c : Core) (next : Nat) : Core := { c with wait := none, committed := true, nextIssue := next }

/-- A wait point other than END, with no failed token to a strict WAIT_TOK, moves its core alone once the held faults are reported. -/
theorem releaseWait_of_no_failure {s : State} {core next : Nat} {w : Wait} (hw : (coreOf s core).wait = some w) (hfin : w ≠ .fin)
    (hok : ∀ g m, w = .tok false g m → firstBad (coreOf s core) (maskedTokens g m) = none) :
    releaseWait s core next = setCore (reportHeld s core) core (released (coreOf s core) next) := by
  have hend : ((coreOf s core).ended || w == .fin) = (coreOf s core).ended := by simp [hfin]
  simp only [releaseWait, hw, hend]
  split
  · next g m => rw [hok g m rfl]; rfl
  · rfl

theorem releaseWait_of_failure {s : State} {core next g m tok : Nat} {st : Status} (hw : (coreOf s core).wait = some (.tok false g m))
    (hbad : firstBad (coreOf s core) (maskedTokens g m) = some (tok, st)) :
    releaseWait s core next = endByCore (setCore (setCore (reportHeld s core) core (released (coreOf s core) next)) core
      { released (coreOf s core) next with resultVa := tlook (coreOf s core).faultVa tok }) core st := by
  have hend : ((coreOf s core).ended || Wait.tok false g m == .fin) = (coreOf s core).ended := by simp
  simp only [releaseWait, hw, hend, hbad, modCore, coreOf_setCore]
  rfl

theorem released_spec {s t : State} {core : Nat} {c : Core} (h : t = setCore (reportHeld s core) core c) :
    sameButCores (reportHeld s core) t ∧ otherCoresKept s t core ∧ coreOf t core = c := by
  subst h
  exact ⟨sameButCores_setCore _ _ _, otherCoresKept_setCore (reportHeld_cores s core) core c, coreOf_setCore _ _ _⟩

/-- A release command on a core whose wait point stays. -/
theorem exec_release_of_stays {s : State} {core : Nat} {w : Wait} (hw : (coreOf s core).wait = some w)
    (hstay : (waitHolds s core w && mayCommit s core) = false) :
    exec (.waitTokRelease core) s = .next s ∧ exec (.waitSigRelease core) s = .next s ∧ exec (.waitArrRelease core) s = .next s ∧
    exec (.endRelease core) s = .next s := by
  refine ⟨?_, ?_, ?_, ?_⟩
  · change execWaitTokRelease core s = _
    rw [execWaitTokRelease, hw]
    cases w <;> simp [hstay]
  · change execWaitSigRelease core s = _
    rw [execWaitSigRelease, hw]
    cases w <;> simp [hstay]
  · change execWaitArrRelease core s = _
    rw [execWaitArrRelease, hw]
    cases w <;> simp [hstay]
  · change execEndRelease core s = _
    simp only [execEndRelease, hw]
    split
    · next h _ => cases h; simp [hstay]
    · rfl

theorem exec_waitTokRelease {s : State} {core g m : Nat} {l : Bool} (hw : (coreOf s core).wait = some (.tok l g m))
    (hholds : waitHolds s core (.tok l g m) = true) (hcommit : mayCommit s core = true) :
    exec (.waitTokRelease core) s = .next (releaseWait s core (cycleOf s core + 1)) := by
  change execWaitTokRelease core s = _
  simp [execWaitTokRelease, hw, hholds, hcommit]
theorem exec_waitSigRelease {s : State} {core n : Nat} {v : Word} (hw : (coreOf s core).wait = some (.sig n v))
    (hholds : waitHolds s core (.sig n v) = true) (hcommit : mayCommit s core = true) :
    exec (.waitSigRelease core) s = .next (releaseWait s core (cycleOf s core + 1)) := by
  change execWaitSigRelease core s = _
  simp [execWaitSigRelease, hw, hholds, hcommit]
theorem exec_waitArrRelease {s : State} {core n : Nat} {v : Word} (hw : (coreOf s core).wait = some (.arr n v))
    (hholds : waitHolds s core (.arr n v) = true) (hcommit : mayCommit s core = true) :
    exec (.waitArrRelease core) s = .next (releaseWait s core (cycleOf s core + 1)) := by
  change execWaitArrRelease core s = _
  simp [execWaitArrRelease, hw, hholds, hcommit]

/-- Settles O9: a release is the report of the held faults and one write of the core, or, after a failed token, the end of its task. -/
theorem waitPointsReleaseOnlyWhenTrue : Obligations.WaitPointsReleaseOnlyWhenTrue := by
  refine ⟨⟨fun core l g m s hw hholds hcommit hok => ?_, fun core g m tok st s hw hholds hcommit hbad => ?_,
    fun core n v s hw hholds hcommit => ?_, fun core n v s hw hholds hcommit => ?_⟩, fun core w s hw hstay => ?_, fun core s => ?_⟩
  · refine ⟨_, exec_waitTokRelease hw hholds hcommit, released_spec (releaseWait_of_no_failure hw nofun fun g' m' h => ?_)⟩
    obtain ⟨hl, rfl, rfl⟩ : decide (l = 1) = false ∧ g = g' ∧ m = m' := by simpa using h
    exact hok (of_decide_eq_false hl)
  · refine ⟨_, (exec_waitTokRelease hw hholds hcommit).trans (congrArg _ (releaseWait_of_failure hw hbad)), rfl, fun c hc => ?_, ?_⟩
    · rw [coreOf_setCore_ne _ _ _ _ hc]
      exact otherCoresKept_setCore (reportHeld_cores s core) core _ c hc
    · rw [coreOf_setCore]
      exact ⟨rfl, rfl, rfl⟩
  · exact ⟨_, exec_waitSigRelease hw hholds hcommit, released_spec (releaseWait_of_no_failure hw nofun nofun)⟩
  · exact ⟨_, exec_waitArrRelease hw hholds hcommit, released_spec (releaseWait_of_no_failure hw nofun nofun)⟩
  · refine exec_release_of_stays hw (Bool.and_eq_false_iff.2 hstay)
  · exact ⟨reportHeld_cores s core, reportHeld_mem s core, reportHeld_plans s core, reportHeld_of_none⟩

/-! ## The release of a crew -/

/-- A state on the way of the release of a crew's cores: each core is as at the start or has been released. -/
def CrewReleasing (s u : State) : Prop :=
  u.mem = s.mem ∧ u.plans = s.plans ∧ ∀ d, coreOf u d = coreOf s d ∨ ∃ next, coreOf u d = released (coreOf s d) next

theorem taskOf_congr {s u : State} (h : u.plans = s.plans) (r : TaskRef) : taskOf u r = taskOf s r := by
  unfold taskOf planOf
  rw [h]

theorem CrewReleasing.task {s u : State} (h : CrewReleasing s u) (d : Nat) : (coreOf u d).task = (coreOf s d).task := by
  obtain hd | ⟨next, hd⟩ := h.2.2 d <;> rw [hd]
  rfl

/-- Releases only take away from who is the first to commit. -/
theorem CrewReleasing.firstCommit_of {s u : State} (h : CrewReleasing s u) {core : Nat} (hf : firstCommit u core = true) :
    firstCommit s core = true := by
  unfold firstCommit at hf ⊢
  rw [h.task core, funext (taskOf_congr h.2.1)] at hf
  split at hf
  · next t ht =>
    simp only [h.task, List.all_eq_true] at hf ⊢
    intro c hc
    obtain hd | ⟨next, hd⟩ := h.2.2 c
    · simpa [hd] using hf c hc
    · have := hf c hc
      simp only [hd, released, Bool.not_true, Bool.or_false] at this
      simp [this]
  · contradiction

theorem CrewReleasing.heldSealed_nil {s u : State} (h : CrewReleasing s u) {core : Nat} (hs : heldSealed s core = []) :
    heldSealed u core = [] := by
  obtain hd | ⟨next, hd⟩ := h.2.2 core
  · unfold heldSealed at hs ⊢
    rw [hd]
    dsimp only at hs ⊢
    split
    · rfl
    · next hc =>
      rw [if_neg hc, List.filter_eq_nil_iff] at hs
      refine List.filter_eq_nil_iff.2 fun t ht htok => hs t ht ?_
      simp only [Bool.and_eq_true, Bool.or_eq_true] at htok ⊢
      exact ⟨htok.1, htok.2.imp_right h.firstCommit_of⟩
  · simp [heldSealed, hd, released]

theorem releaseWait_of_none {s : State} {core next : Nat} (h : (coreOf s core).wait = none) : releaseWait s core next = s := by
  simp [releaseWait, h]

/-- One core of the crew that stood at the barrier releases. -/
theorem CrewReleasing.step {s u : State} {core barrier : Nat} (next : Nat) (h : CrewReleasing s u)
    (hw : (coreOf s core).wait = some (.sync barrier)) :
    CrewReleasing s (releaseWait u core next) ∧ (∀ c, c ≠ core → coreOf (releaseWait u core next) c = coreOf u c) ∧
    (heldSealed s core = [] → sameButCores s u → sameButCores s (releaseWait u core next)) ∧
    (coreOf u core = coreOf s core → coreOf (releaseWait u core next) core = released (coreOf s core) next) := by
  obtain hd | ⟨next', hd⟩ := h.2.2 core
  · have hw' : (coreOf u core).wait = some (.sync barrier) := by rw [hd, hw]
    have hr := releaseWait_of_no_failure (next := next) hw' nofun nofun
    obtain ⟨hmem, hplans, hcores⟩ := h
    have hother : ∀ c, c ≠ core → coreOf (releaseWait u core next) c = coreOf u c := fun c hc => by
      rw [hr]
      exact otherCoresKept_setCore (reportHeld_cores u core) core _ c hc
    have hsame : coreOf (releaseWait u core next) core = released (coreOf s core) next := by rw [hr, coreOf_setCore, hd]
    refine ⟨⟨?_, ?_, fun c => ?_⟩, hother, fun hsealed hu => ?_, fun _ => hsame⟩
    · rw [hr, setCore_mem, reportHeld_mem, hmem]
    · rw [hr, setCore_plans, reportHeld_plans, hplans]
    · by_cases hc : c = core
      · subst hc; exact .inr ⟨next, hsame⟩
      · rw [hother c hc]; exact hcores c
    · rw [hr, reportHeld_of_none (CrewReleasing.heldSealed_nil ⟨hmem, hplans, hcores⟩ hsealed), hu]
      rfl
  · have hw' : (coreOf u core).wait = none := by rw [hd]; rfl
    rw [releaseWait_of_none hw']
    exact ⟨h, fun c _ => rfl, fun _ hu => hu, fun he => by rw [he, hw] at hw'; contradiction⟩

/-- The release of a list of cores, one after another, as CREW_SYNC_RELEASE does it: its next cycle less the cycles that port F held. -/
def releaseAll (u : State) (next : Nat) (l : List Nat) : State := l.foldl (fun s c => releaseWait s c (next - (coreOf s c).held)) u

theorem releaseAll_spec {s : State} {barrier : Nat} (next : Nat) (l : List Nat)
    (hw : ∀ c ∈ l, (coreOf s c).wait = some (.sync barrier)) (u : State) (h : CrewReleasing s u) :
    CrewReleasing s (releaseAll u next l) ∧
    ((∀ c ∈ l, heldSealed s c = []) → sameButCores s u → sameButCores s (releaseAll u next l)) ∧
    (∀ c, c ∉ l → coreOf (releaseAll u next l) c = coreOf u c) ∧
    (l.Nodup → (∀ c ∈ l, coreOf u c = coreOf s c) →
      ∀ c ∈ l, coreOf (releaseAll u next l) c = released (coreOf s c) (next - (coreOf s c).held)) := by
  induction l generalizing u with
  | nil => exact ⟨h, fun _ hu => hu, fun _ _ => rfl, nofun⟩
  | cons d l ih =>
    obtain ⟨hstep, hother, hsame, hcore⟩ := h.step (next - (coreOf u d).held) (hw d List.mem_cons_self)
    obtain ⟨h1, h2, h3, h4⟩ := ih (fun c hc => hw c (List.mem_cons_of_mem d hc)) _ hstep
    refine ⟨h1, fun hs hu => h2 (fun c hc => hs c (List.mem_cons_of_mem d hc)) (hsame (hs d List.mem_cons_self) hu), fun c hc => ?_,
      fun hnodup hu c hc => ?_⟩
    · obtain ⟨hcd, hcl⟩ := not_or.1 (mt List.mem_cons.2 hc)
      exact (h3 c hcl).trans (hother c hcd)
    · obtain ⟨hd, hl⟩ := List.nodup_cons.1 hnodup
      obtain rfl | hcl := List.mem_cons.1 hc
      · rw [← hu c hc]
        exact (h3 c hd).trans ((hcore (hu c hc)).trans (by rw [hu c hc]))
      · refine h4 hl (fun e he => ?_) c hcl
        rw [hother e (fun x => hd (x ▸ he))]
        exact hu e (List.mem_cons_of_mem d he)

theorem wait_of_mem_syncReady {s : State} {r : TaskRef} {t : Task} {barrier cluster c : Nat} (h : c ∈ syncReady s r t barrier cluster) :
    (coreOf s c).wait = some (.sync barrier) := by
  simp only [syncReady, List.mem_filter, Bool.and_eq_true, beq_iff_eq] at h
  exact h.2.1.1.2

/-- Settles O13: the cores at the barrier release one after another, and none of these releases touches what the next one reads. -/
theorem crewSyncReleasesTogether : Obligations.CrewSyncReleasesTogether := by
  intro queue task barrier cluster t s ht
  obtain ⟨⟨hmem, hplans, -⟩, hsame, hother, hcore⟩ := releaseAll_spec
    (if t.clusterCount = 1 then t.cores.foldl (fun m c' => max m (coreOf s c').arrived) 0 + 4 else (clusterOf s cluster).cycle + 1)
    (syncReady s ⟨queue, task⟩ t barrier cluster) (fun c => wait_of_mem_syncReady) s ⟨rfl, rfl, fun _ => .inl rfl⟩
  refine ⟨_, ?_, hmem, hplans, fun hs => hsame hs rfl, hother, fun hnodup => hcore hnodup fun _ _ => rfl⟩
  change execCrewSyncRelease queue task barrier cluster s = _
  simp only [execCrewSyncRelease, ht]
  rfl

/-! ## Bundles -/

/-- The slots of a bundle of no-ops. -/
def noSlots : Slots := ⟨0, 0, 0, 0, 0, 0, 0⟩

theorem slotsOf_zero : slotsOf 0#128 = noSlots := rfl

theorem bundleCheck_noSlots (s : State) (i : Issue) : bundleCheck s i noSlots = none := rfl

theorem stalled_noSlots (i : Issue) (now : Nat) : stalled i noSlots now = false := rfl

/-- A bundle of no-ops counts, and moves bundle issue on by one. -/
theorem bundleEffect_noSlots {s : State} {i : Issue} (now : Nat) (hloops : i.core.loops = []) :
    bundleEffect s i noSlots now = setCore (setCore s i.no { i.core with bundles := satAdd 32 i.core.bundles 1 }) i.no
      { i.core with bundles := satAdd 32 i.core.bundles 1, pc := i.core.pc + 1, loops := [], nextIssue := now + 1, wait := none,
                    arrived := now + i.core.held, portUse := some (now, []) } := by
  have hnext : ctlNext i.core 0 = (i.core.pc + 1, [], 1) := by
    have hleave : leaveBundle i.core.loops i.core.pc = (i.core.pc + 1, []) := by rw [hloops]; rfl
    show ((leaveBundle i.core.loops i.core.pc).1, (leaveBundle i.core.loops i.core.pc).2, 1) = _
    rw [hleave]
  have hslots : ∀ d : Core, scaEffect i (vmEffect i.core (vaEffect i.core (tilEffect d 0 now) 0 now) 0 now) 0 now = d := fun _ => rfl
  have hbefore : ∀ u : State, putEffect (dqEffect (dqEffect (ctlEffect u i now 0) i 0) i 0) i 0 now = u := fun _ => rfl
  have hwait : ctlWait i.core 0 = none := rfl
  have hbanks : slotBanks i.core noSlots = [] := rfl
  have hlost : portFLost i.core noSlots = false := rfl
  simp only [bundleEffect, hbanks, hlost]
  simp only [noSlots, hslots, hbefore, hwait, hnext, modCore, coreOf_setCore]
  rfl

theorem issueOf_spec {s : State} {core : Nat} {i : Issue} (h : issueOf s core = some i) : i.no = core ∧ i.core = coreNow s core := by
  unfold issueOf at h
  dsimp only at h
  split at h
  · contradiction
  · split at h
    · cases h; exact ⟨rfl, rfl⟩
    · contradiction

theorem exec_bundleIssue {s : State} {core : Nat} {i : Issue} {b : BitVec 128} (hi : issueOf s core = some i)
    (hcan : canIssue s core = true) (hb : i.core.image[i.core.pc]? = some b) :
    exec (.bundleIssue core) s = .next (if stalled i (slotsOf b) (cycleOf s core) then s else
      match bundleCheck s i (slotsOf b) with
      | some st => endByCore s core st
      | none => bundleEffect s i (slotsOf b) (cycleOf s core)) := by
  change execBundleIssue core s = _
  simp only [execBundleIssue, hi, hcan, hb]
  cases bundleCheck s i (slotsOf b) <;> cases stalled i (slotsOf b) (cycleOf s core) <;> rfl

/-- Settles O11: a bundle that stalls changes nothing, one that a check refuses not its effect, and the effect of no-ops is one write of
the core. -/
theorem bundlesIssueWhenReady : Obligations.BundlesIssueWhenReady := by
  refine ⟨fun core i b s hi hcan hb hcheck hstall => ?_, fun core i s hi hcan hb hloops => ?_, fun core i b s hi hcan hb hstall => ?_⟩
  · rw [exec_bundleIssue hi hcan hb, hcheck, hstall]
    rfl
  · obtain ⟨rfl, -⟩ := issueOf_spec hi
    refine ⟨_, exec_bundleIssue hi hcan hb, ?_⟩
    rw [slotsOf_zero, stalled_noSlots, bundleCheck_noSlots, bundleEffect_noSlots _ hloops]
    refine ⟨rfl, fun c hc => ?_, ?_⟩
    · exact (coreOf_setCore_ne _ _ _ _ hc).trans (coreOf_setCore_ne _ _ _ _ hc)
    · refine (coreOf_setCore ..).trans ?_
      rw [← hloops]
  · rw [exec_bundleIssue hi hcan hb, hstall]
    rfl

/-! ## The end of a task by one of its cores -/

theorem exec_bundleIssue_of_end {s : State} {core : Nat} {i : Issue} (hi : issueOf s core = some i)
    (hcan : canIssue s core = true) (hend : i.core.image.length ≤ i.core.pc) :
    exec (.bundleIssue core) s = .next (endByCore s core .descInvalid) := by
  change execBundleIssue core s = _
  simp [execBundleIssue, hi, hcan, List.getElem?_eq_none hend]

theorem setTask_keeps {β : Type} (π : State → β) (hplan : ∀ s q p, π (setPlan s q p) = π s) (s : State) (r : TaskRef) (t : Task) :
    π (setTask s r t) = π s := by
  unfold setTask
  split
  · exact hplan ..
  · rfl

/-- What a stop on one core leaves alone, and a change of plans, the stop of a crew leaves alone. -/
theorem stopCrew_keeps {β : Type} (π : State → β) (hplan : ∀ s q p, π (setPlan s q p) = π s) (f : Nat → Nat → Core → Core)
    (hcore : ∀ s d n, π (modCore s d (f d n)) = π s) (s : State) (r : TaskRef) (st : Status) : π (stopCrew s r st f) = π s := by
  unfold stopCrew
  split
  · rfl
  · dsimp only
    split
    · exact (setTask_keeps π hplan _ _ _).trans (foldl_keeps π (fun u d => hcore u d _) _ _)
    · exact foldl_keeps π (fun u d => hcore u d _) _ _

/-- How `endByCore` stops a core: the one that ends the task at once, the others at the end of the cycle. -/
theorem endByCore_keeps {β : Type} (π : State → β) (hplan : ∀ s q p, π (setPlan s q p) = π s)
    (hresult : ∀ s d st, π (setCore s d { coreOf s d with result := st }) = π s)
    (hstop : ∀ s d n, π (modCore s d (stopCore n)) = π s) (hafter : ∀ s d n, π (modCore s d (stopAfter n)) = π s)
    (s : State) (core : Nat) (st : Status) : π (endByCore s core st) = π s := by
  unfold endByCore
  dsimp only
  split
  · rfl
  · refine (stopCrew_keeps π hplan _ (fun u d n => ?_) _ _ _).trans (hresult ..)
    split
    · exact hstop ..
    · exact hafter ..

/-- A field of cores that a change keeps is kept on every core. -/
theorem coreField_modCore {β : Type} (g : Core → β) (f : Core → Core) (hf : ∀ c, g (f c) = g c) (s : State) (d core : Nat) :
    g (coreOf (modCore s d f) core) = g (coreOf s core) := by
  by_cases h : core = d
  · subst h
    rw [modCore, coreOf_setCore, hf]
  · rw [modCore, coreOf_setCore_ne _ _ _ _ h]

/-- The end of a task by a core keeps every field of cores that no stop touches. -/
theorem endByCore_coreField {β : Type} (g : Core → β) (hresult : ∀ c x, g { c with result := x } = g c)
    (hstop : ∀ n c, g (stopCore n c) = g c) (hafter : ∀ n c, g (stopAfter n c) = g c) (s : State) (core d : Nat) (st : Status) :
    g (coreOf (endByCore s core st) d) = g (coreOf s d) :=
  endByCore_keeps (fun s => g (coreOf s d)) (fun _ _ _ => rfl)
    (fun s e x => coreField_modCore g (fun c => { c with result := x }) (fun c => hresult c x) s e d)
    (fun s e n => coreField_modCore g _ (hstop n) s e d) (fun s e n => coreField_modCore g _ (hafter n) s e d) s core st

/-- Settles O12: a failing check, or the end of the image, comes to `endByCore`, which stops the crew and touches no store, register
or cluster. -/
theorem failedBundlesHaveNoEffect : Obligations.FailedBundlesHaveNoEffect := by
  refine ⟨fun core i b st s hi hcan hb hcheck hstall => ?_, fun core i s hi hcan hend => exec_bundleIssue_of_end hi hcan hend,
    fun core st s => ⟨_, rfl, ?_, ?_, ?_, ?_, ?_, ?_⟩⟩
  · rw [exec_bundleIssue hi hcan hb, hcheck, hstall]
    rfl
  · exact endByCore_keeps State.mem (fun _ _ _ => rfl) (fun _ _ _ => rfl) (fun _ _ _ => rfl) (fun _ _ _ => rfl) s core st
  · exact endByCore_keeps State.clusters (fun _ _ _ => rfl) (fun _ _ _ => rfl) (fun _ _ _ => rfl) (fun _ _ _ => rfl) s core st
  · exact endByCore_keeps State.fab (fun _ _ _ => rfl) (fun _ _ _ => rfl) (fun _ _ _ => rfl) (fun _ _ _ => rfl) s core st
  · exact endByCore_coreField Core.store (fun _ _ => rfl) (fun _ _ => rfl) (fun _ _ => rfl) s core core st
  · exact endByCore_coreField Core.xregs (fun _ _ => rfl) (fun _ _ => rfl) (fun _ _ => rfl) s core core st
  · exact endByCore_coreField Core.sregs (fun _ _ => rfl) (fun _ _ => rfl) (fun _ _ => rfl) s core core st

/-! ## END and the scrub -/

theorem exec_endRelease {s : State} {core : Nat} {r : TaskRef} {t : Task} (hw : (coreOf s core).wait = some .fin)
    (hr : (coreOf s core).task = some r) (hholds : waitHolds s core .fin = true) (hcommit : mayCommit s core = true)
    (ht : taskOf (releaseWait s core (cycleOf s core + 1)) r = some t) :
    exec (.endRelease core) s = .next (if crewDone (releaseWait s core (cycleOf s core + 1)) t = true
      then progress (crewEnd (releaseWait s core (cycleOf s core + 1)) r) else releaseWait s core (cycleOf s core + 1)) := by
  change execEndRelease core s = _
  simp only [execEndRelease, hw, hr, hholds, hcommit, Bool.and_self, if_true, ht]
  exact (apply_ite Host.Outcome.next _ _ _).symm

theorem coreOf_releaseWait_fin {s : State} {core next : Nat} (hw : (coreOf s core).wait = some .fin) :
    coreOf (releaseWait s core next) core =
      { coreOf s core with wait := none, committed := true, ended := true, nextIssue := next } := by
  have hend : ((coreOf s core).ended || Wait.fin == .fin) = true := by simp
  simp only [releaseWait, hw, hend, coreOf_setCore]

/-- Settles O14: the last END ends the crew, and a scrub of 256 cycles leaves the core that a task finds at its start. -/
theorem endsAndScrubsComplete : Obligations.EndsAndScrubsComplete := by
  refine ⟨fun core r t s hw hr hholds hcommit ht => ⟨fun hdone => ?_, fun hdone => ⟨?_, coreOf_releaseWait_fin hw⟩⟩,
    fun core c0 s hscrub htime => ⟨?_, ?_⟩⟩
  · rw [exec_endRelease hw hr hholds hcommit ht, if_pos hdone]
  · rw [exec_endRelease hw hr hholds hcommit ht, hdone]
    rfl
  · change execTaskScrubComplete core s = _
    simp [execTaskScrubComplete, hscrub, Nat.not_lt.2 htime]
  · rw [modCore, coreOf_setCore]
    exact ⟨rfl, rfl, rfl, rfl⟩

/-! ## Stops and time limits -/

/-- Settles O19: under the stated conditions each of the three commands takes the branch that ends the task. -/
theorem taskLimitsAndStopsEndTasks : Obligations.TaskLimitsAndStopsEndTasks := by
  refine ⟨fun queue task t st s ht hstop hscrubbed => ?_, fun queue task p t s hp ht hrun hstop hdog hdue hdust => ?_,
    fun queue task at' p t s hp ht hstate hstop hedges htaken hresolved hlimit hdue hdust => ?_⟩
  · change execTaskStopComplete queue task s = _
    simp [execTaskStopComplete, ht, hstop, hscrubbed]
  · change execWatchdogExpiry queue task s = _
    simp [execWatchdogExpiry, hp, ht, hrun, hstop, hdog, hdue, hdust]
  · change execSignalLimitExpiry queue task s = _
    have hwaits : (t.state == .blocked || t.state == .ahead) = true := by simpa using hstate
    simp only [execSignalLimitExpiry, hp, ht, hresolved, hwaits, hstop, hedges, htaken, hdust]
    simp [hlimit, hdue]

end Sys2Proof.Machine
end

section
/-! SUPPORT. The engines (chapter 03): each command writes the one core that it names. -/

namespace Sys2Proof.Machine
open Sys2Proof

/-! ## Engines: each command writes the named core -/

theorem engine_spec {c : Instr} {s : State} {core : Nat} {v : Core} (h : exec c s = .next (setCore s core v)) :
    ∃ t, exec c s = .next t ∧ sameButCores s t ∧ otherCoresKept s t core ∧ coreOf t core = v :=
  ⟨_, h, sameButCores_setCore s core v, otherCoresKept_setCore rfl core v, coreOf_setCore s core v⟩

theorem loadHead_of_stageHead {c : Core} {i : Nat} {o : ArrayOp} (h : stageHead c = some (i, o)) : loadHead c = some (i, o) ∧ o.kind = 2 := by
  unfold stageHead at h
  split at h
  · next j q hq =>
    split at h
    · next hkind => cases h; exact ⟨hq, hkind⟩
    · contradiction
  · contradiction

/-- The stop sequence of a task leaves its tile paths alone (R73). -/
theorem exec_tilePath_of_stopped {s : State} {core : Nat} (h : coreStopped s core = true) :
    ∀ c ∈ [Instr.gangStart core, .gangComplete core, .stageStart core, .stageComplete core, .tilePassSwap core, .tileComplete core,
      .cFillStart core, .cFillComplete core, .drainStart core, .drainComplete core], exec c s = .next s := by
  simp only [List.forall_mem_cons]
  exact ⟨if_pos h, if_pos h, if_pos h, if_pos h, if_pos h, if_pos h, if_pos h, if_pos h, if_pos h, if_pos h, nofun⟩

/-- Settles O15: under the stated conditions each command writes the one core, as the statement gives it. -/
theorem gangAndStageRunOnTime : Obligations.GangAndStageRunOnTime := by
  refine ⟨fun core o l s hpath hkind hphase hdrain hstop => engine_spec ?_,
    fun core o l s hpath hkind hphase htime hstop => engine_spec ?_, fun core i o s hhead hphase hstop => engine_spec ?_,
    fun c o pass now t hjob hloaded htime => ?_, fun c i o hhead hphase => ?_,
    fun core i o s hhead hphase htime hstop => engine_spec ?_, fun core s hstop => exec_tilePath_of_stopped hstop⟩
  · change execGangStart core s = _
    simp [execGangStart, hpath, hkind, hphase, hdrain, hstop, setArray]
  · change execGangComplete core s = _
    simp [execGangComplete, hpath, hkind, hphase, htime, hstop]
  · change execStageStart core s = _
    simp [execStageStart, hhead, hphase, hstop]
  · simp [landLoad, hjob, hloaded, htime]
  · obtain ⟨hload, hkind⟩ := loadHead_of_stageHead hhead
    simp [loadJob, hload, hkind, hphase]
  · change execStageComplete core s = _
    simp [execStageComplete, hhead, hphase, htime, hstop]

/-! ## TILE passes -/

/-- Every column-block that a load reads is of a column in the array and in the operand. -/
theorem loadSet_blocks {c : Core} {o : ArrayOp} {pass t : Nat} : ∀ b ∈ (loadSet c o pass t).blocks, b.col < (gangShape c.gang).2.1 ∧
    pass / nkOf c.gang o.tile * (gangShape c.gang).2.1 + b.col < o.tile.ns := by
  intro b hb
  simp only [loadSet, List.mem_flatMap, List.mem_filter, List.mem_range, decide_eq_true_eq, List.mem_map] at hb
  obtain ⟨i, ⟨hi, hns⟩, seg, -, rfl⟩ := hb
  exact ⟨hi, hns⟩

/-- Settles O16: a swap and a completion write the named core; what a pass loads and sums is read off `loadSet` and `sumPass`. -/
theorem tilePassesAccumulate : Obligations.TilePassesAccumulate := by
  refine ⟨fun core i o s hhead hkind hpass hready hstop => engine_spec ?_,
    fun c o pass t => ⟨rfl, rfl, rfl, loadSet_blocks⟩, fun c i o st now hstream hactive htime => ?_,
    fun core o l s hpath hlast htime hstop => engine_spec ?_⟩
  · change execTilePassSwap core s = _
    simp [execTilePassSwap, hhead, hkind, hpass, hready, hstop, setArray]
  · simp [sumPass, hstream, hactive, htime]
  · change execTileComplete core s = _
    simp [execTileComplete, hpath, hlast, htime, hstop]

/-! ## The drain path -/

/-- A bit write changes the store, and what is kept of it for the engines' reads. -/
theorem storeBits_eq (c : Core) (now : Nat) (w : BitWrite) :
    ∃ hist, storeBits c now w = { c with store := applyBits c.store w, hist := hist } := by
  unfold storeBits keepOld
  dsimp only
  split
  · exact ⟨_, rfl⟩
  · exact ⟨_, rfl⟩

theorem foldl_storeBits_store (now : Nat) (l : List BitWrite) (c : Core) :
    (l.foldl (fun c w => storeBits c now w) c).store = l.foldl applyBits c.store := by
  induction l generalizing c with
  | nil => rfl
  | cons w l ih =>
    obtain ⟨hist, hw⟩ := storeBits_eq c now w
    rw [List.foldl_cons, ih, hw]
    rfl

theorem foldl_storeBits_keeps {β : Type} (π : Core → β) (h : ∀ c m x, π { c with store := m, hist := x } = π c) (now : Nat)
    (l : List BitWrite) (c : Core) : π (l.foldl (fun c w => storeBits c now w) c) = π c :=
  foldl_keeps π (fun c w => by obtain ⟨hist, hw⟩ := storeBits_eq c now w; rw [hw, h]) l c

/-- Settles O17: a start marks the head of the drain path; an end takes it off, with its effect on the accumulators or the store. -/
theorem drainPathRunsInOrder : Obligations.DrainPathRunsInOrder := by
  refine ⟨fun core i d l o s hpath htile hfill hrun hfree hstop => ?_, fun core d l s hpath hfill hrun htime hstop => ?_,
    fun core d l s hpath hfill hrun hfree hstop => engine_spec ?_, fun core d l s hpath hfill hrun htime hstop => ?_⟩
  · obtain ⟨t, ht, hsame, hother, hcore⟩ := engine_spec (c := .cFillStart core) (s := s) (core := core)
      (v := setArray { coreNow s core with drainPath := { d with running := true, start := cycleOf s core } :: l } i
        { o with fill := 1, fillAt := cycleOf s core }) (by
      change execCFillStart core s = _
      simp [execCFillStart, hpath, htile, hfill, hrun, hfree, hstop])
    exact ⟨t, ht, hsame, hother, by rw [hcore]; rfl, by rw [hcore]; rfl⟩
  · obtain ⟨t, ht, hsame, hother, hcore⟩ := engine_spec (c := .cFillComplete core) (s := s) (core := core)
      (v := { coreNow s core with
          acc := fillAcc (coreNow s core) d, drainPath := l, drainFree := cycleOf s core,
          arrayPath := (coreNow s core).arrayPath.map (fun o => if o.kind = 1 ∧ o.issue = d.issue
            then { o with fill := 2, fillAt := cycleOf s core } else o) }) (by
      change execCFillComplete core s = _
      simp [execCFillComplete, hpath, hfill, hrun, htime, hstop])
    exact ⟨t, ht, hsame, hother, by rw [hcore], by rw [hcore], by rw [hcore], by rw [hcore]⟩
  · change execDrainStart core s = _
    simp [execDrainStart, hpath, hfill, hrun, hfree, hstop]
  · obtain ⟨t, ht, hsame, hother, hcore⟩ := engine_spec (c := .drainComplete core) (s := s) (core := core)
      (v := { (drainWrites (coreNow s core) d).foldl (fun c w => storeBits c (cycleOf s core) w) (coreNow s core) with
          drainPath := l, drainFree := cycleOf s core }) (by
      change execDrainComplete core s = _
      simp [execDrainComplete, hpath, hfill, hrun, htime, hstop])
    refine ⟨t, ht, hsame, hother, ?_, ?_, ?_, ?_, ?_, ?_⟩ <;> rw [hcore]
    · exact foldl_storeBits_store _ _ _
    · exact foldl_storeBits_keeps Core.xregs (fun _ _ _ => rfl) _ _ _
    · exact foldl_storeBits_keeps Core.tokens (fun _ _ _ => rfl) _ _ _
    · exact foldl_storeBits_keeps Core.acc (fun _ _ _ => rfl) _ _ _

end Sys2Proof.Machine
end

section
/-! SUPPORT. DMA operations, arbitration, plan loading, run-ahead and the removal of clusters (chapters 04, 06, 07). -/

namespace Sys2Proof.Machine
open Sys2Proof

/-- The next operation of a queue whose task goes on, whose fence is open and whose ends can be reached could start. -/
theorem couldStart_of_ready {s : State} {core queue : Nat} {r : TaskRef} {t : Task} {o : DmaOp}
    (hr : (coreOf s core).task = some r) (hn : nextStart (coreOf s core) queue = some o) (ht : taskOf s r = some t)
    (hstop : t.stop = none) (hf : fenceOpen (coreOf s core) o = true) (hd : s.pow.dustSheet = false)
    (hc : copyReady s r t core o = true) : couldStart s core queue = some (r, t, o) := by
  simp [couldStart, hr, hn, ht, hstop, hf, hd, hc]

/-- Only a COPY or a GATHER needs a cluster channel. -/
theorem onChannel_of_lath {t : Task} {core : Nat} {o : DmaOp} (h : 3 ≤ o.op) : onChannel t core o = false := by
  simp [onChannel, show ¬ o.op ≤ 2 by omega]

/-- Settles O18: an operation that could start is past every check of its start but the channel's, the key's and the place's, and
the two ends of a transfer or of a wait follow from their own checks. -/
theorem dmaOperationsStartAndComplete : Obligations.DmaOperationsStartAndComplete := by
  unfold Obligations.DmaOperationsStartAndComplete
  refine ⟨?copy, ?lath, ?complete, ?load, ?timeout⟩
  case copy =>
    intro core queue r o p t s hr hn hp ht hstop hf hd hc hop
    have hs := couldStart_of_ready hr hn ht hstop hf hd hc
    refine ⟨fun h => ?_, fun n h hfree hfirst => ?_, fun h hfree => ?_⟩
    · change execDmaOperationStart core queue s = _
      simp [execDmaOperationStart, hs, hp, h, hop]
    · change execDmaOperationStart core queue s = _
      simp [execDmaOperationStart, hs, hp, h, takeChan, hfree, hfirst]
    · change execDmaOperationStart core queue s = _
      simp [execDmaOperationStart, hs, hp, h, takeChan, hfree]
  case lath =>
    intro core queue r o p t s hr hn hp ht hstop hf hd hc hop hsend hdie
    have hs := couldStart_of_ready hr hn ht hstop hf hd hc
    change execDmaOperationStart core queue s = _
    rcases hdie with h3 | hw
    · simp [execDmaOperationStart, hs, hp, onChannel_of_lath hop, hsend, h3]
    · simp [execDmaOperationStart, hs, hp, onChannel_of_lath hop, show ¬ o.op ≤ 2 by omega, hsend, hw]
  case complete =>
    intro core token r o p t s hd hdie htok hr ho hp ht hst hop hstop
    change execDmaOperationComplete core token s = _
    simp [execDmaOperationComplete, hd, hdie, show ¬ 56 ≤ token by omega, hr, ho, hp, ht, hst, hop, hstop]
  case load =>
    intro core token s hd hdie htok
    change execDmaOperationComplete core token s = _
    simp [execDmaOperationComplete, hd, hdie, htok]
  case timeout =>
    intro core token o s ho hop hst hsend hdue
    change execLathPairWaitTimeout core token s = _
    simp [execLathPairWaitTimeout, ho, hop, hst, hsend, hdue]

/-! ## The order of an arbitration decision -/

theorem before_iff {a b : Candidate} : a.before b = true ↔
    b.ep < a.ep ∨ a.ep = b.ep ∧ (b.age < a.age ∨ a.age = b.age ∧ a.queue < b.queue) := by
  simp [Candidate.before]

theorem before_asymm {a b : Candidate} (h : a.before b = true) : b.before a = false := by
  rw [Bool.eq_false_iff, ne_eq, before_iff]
  rw [before_iff] at h
  omega

/-- What does not come before an element does not come before one that goes ahead of it. -/
theorem not_before_of_before {a b c : Candidate} (h : a.before b = true) (hc : c.before b = false) : c.before a = false := by
  rw [Bool.eq_false_iff, ne_eq, before_iff] at hc ⊢
  rw [before_iff] at h
  omega

theorem mem_putBy {α : Type} {le : α → α → Bool} {x y : α} {l : List α} (h : y ∈ putBy le x l) : y = x ∨ y ∈ l := by
  induction l with
  | nil => simpa [putBy] using h
  | cons z l ih =>
    unfold putBy at h
    split at h
    · simpa using h
    · rcases List.mem_cons.1 h with rfl | h
      · exact .inr List.mem_cons_self
      · exact (ih h).imp_right (List.mem_cons_of_mem z)

theorem pairwise_putBy_before {x : Candidate} {l : List Candidate} (h : l.Pairwise (fun a b => b.before a = false)) :
    (putBy (fun a b => a.before b) x l).Pairwise (fun a b => b.before a = false) := by
  induction l with
  | nil => simp [putBy]
  | cons y l ih =>
    obtain ⟨hy, hl⟩ := List.pairwise_cons.1 h
    unfold putBy
    split
    · next hxy =>
      refine List.pairwise_cons.2 ⟨List.forall_mem_cons.2 ⟨before_asymm hxy, fun c hc => ?_⟩, h⟩
      exact not_before_of_before hxy (hy c hc)
    · next hxy =>
      refine List.pairwise_cons.2 ⟨fun c hc => ?_, ih hl⟩
      rcases mem_putBy hc with rfl | hc
      · exact Bool.eq_false_iff.2 hxy
      · exact hy c hc

/-- The candidates of a decision stand best first. -/
theorem pairwise_candidates (s : State) (res : Resource) : (candidates s res).Pairwise (fun a b => b.before a = false) := by
  unfold candidates sortBy
  induction s.plans.filterMap (fun p => offer s res p.1 p.2) with
  | nil => exact List.Pairwise.nil
  | cons c l ih => exact pairwise_putBy_before ih

/-! ## Ages -/

/-- A candidate that goes without winning grows one older at its resource. -/
def growOlder (k : Nat) (s : State) (c : Candidate) : State :=
  modQueue s c.queue (fun v => { v with ages := tput 0 v.ages k (tget 0 v.ages k + 1) })

theorem queueOf_growOlder_ne (k : Nat) (s : State) {c : Candidate} {q : Nat} (h : q ≠ c.queue) : queueOf (growOlder k s c) q = queueOf s q :=
  queueOf_setQueue_ne _ _ _ _ h

theorem queueOf_growAll_ne (k : Nat) {l : List Candidate} {q : Nat} (h : ∀ c ∈ l, q ≠ c.queue) (s : State) :
    queueOf (l.foldl (growOlder k) s) q = queueOf s q := by
  induction l generalizing s with
  | nil => rfl
  | cons c l ih =>
    obtain ⟨hc, hl⟩ := List.forall_mem_cons.1 h
    rw [List.foldl_cons, ih hl, queueOf_growOlder_ne k s hc]

/-- Of losers with different queues each grows older by one. -/
theorem age_growAll (k : Nat) {l : List Candidate} (hl : (l.map (·.queue)).Nodup) {c : Candidate} (hc : c ∈ l) (s : State) :
    tget 0 (queueOf (l.foldl (growOlder k) s) c.queue).ages k = tget 0 (queueOf s c.queue).ages k + 1 := by
  induction l generalizing s with
  | nil => cases hc
  | cons d l ih =>
    obtain ⟨hd, hl⟩ := List.nodup_cons.1 hl
    rw [List.foldl_cons]
    rcases List.mem_cons.1 hc with rfl | hc
    · have hne : ∀ x ∈ l, c.queue ≠ x.queue := fun x hx he => hd (List.mem_map.2 ⟨x, hx, he.symm⟩)
      rw [queueOf_growAll_ne k hne]
      simp [growOlder, modQueue, tget_tput_same]
    · have hne : c.queue ≠ d.queue := fun he => hd (List.mem_map.2 ⟨c, hc, he⟩)
      rw [ih hl hc, queueOf_growOlder_ne k s hne]

theorem growAll_queues_only (k : Nat) (l : List Candidate) (s : State) :
    l.foldl (growOlder k) s = { s with queues := (l.foldl (growOlder k) s).queues } := by
  induction l generalizing s with
  | nil => rfl
  | cons c l ih => exact ih _

/-- Settles O20: the candidates stand in the order of `before`; the decision writes the ages, then dispatches. -/
theorem arbitrationAgesLosers : Obligations.ArbitrationAgesLosers := by
  unfold Obligations.ArbitrationAgesLosers
  intro resource w rest s hd hc
  have hsorted := pairwise_candidates s resource
  rw [hc] at hsorted
  have hexec : exec (.arbitrationDecision resource) s = execArbitrationDecision resource s := rfl
  simp only [execArbitrationDecision, hd, hc] at hexec
  refine ⟨rest.foldl (growOlder (resourceKey resource))
    (modQueue s w.queue (fun v => { v with ages := tput 0 v.ages (resourceKey resource) 0 })), hexec,
    growAll_queues_only _ rest _, (List.pairwise_cons.1 hsorted).1, fun hne => ?_, fun c hmem hnd hq => ?_⟩
  · rw [queueOf_growAll_ne]
    · simp [modQueue, tget_tput_same]
    · exact fun c h => (bne_iff_ne.1 (List.all_eq_true.1 hne c h)).symm
  · rw [age_growAll _ hnd hmem, modQueue, queueOf_setQueue_ne _ _ _ _ hq]

/-! ## Pinned frequencies: clusters wake and clocks move, nothing else -/

section
variable {β : Type} (π : State → β) (hcluster : ∀ s n v, π (setCluster s n v) = π s) (hclock : ∀ s n v, π (setClock s n v) = π s)
  (hdom : ∀ s n v, π (setDom s n v) = π s)
include hcluster

theorem startClock_keeps (s : State) (n : Nat) : π (startClock s n) = π s := by
  unfold startClock
  split
  · rfl
  · exact hcluster ..

include hdom in
theorem startWake_keeps (s : State) (n : Nat) : π (startWake s n) = π s := by
  unfold startWake modCluster
  dsimp only
  split
  · rw [hcluster, startClock_keeps π hcluster]
  · rw [startClock_keeps π hcluster, hdom]
  · exact hdom ..
  · exact hdom ..

include hclock in
theorem retarget_keeps (s : State) (n t : Nat) : π (retarget s n t) = π s := by
  unfold retarget
  dsimp only
  split
  · exact hclock ..
  · split
    · exact hclock ..
    · rw [hcluster, hclock]

include hclock hdom in
theorem dtSettle_keeps (s : State) : π (dtSettle s) = π s := by
  unfold dtSettle
  split
  · rfl
  · refine foldl_keeps π (fun u part => foldl_keeps π (fun w n => ?_) _ u) _ s
    rw [retarget_keeps π hcluster hclock]
    split
    · rfl
    · exact startWake_keeps π hcluster hdom ..

end

theorem dtSettle_plans (s : State) : (dtSettle s).plans = s.plans :=
  dtSettle_keeps State.plans (fun _ _ _ => rfl) (fun _ _ _ => rfl) (fun _ _ _ => rfl) s
theorem dtSettle_mem (s : State) : (dtSettle s).mem = s.mem :=
  dtSettle_keeps State.mem (fun _ _ _ => rfl) (fun _ _ _ => rfl) (fun _ _ _ => rfl) s

/-! ## PLAN_LOAD -/

/-- The frequencies and the cached translations after a plan has been loaded (R406). -/
def dtLoaded (s : State) (part : Nat) : State :=
  if dtActive s then dropCached (dtSettle s) (fun t => (contextsOf s part).contains t.1) else s

theorem dtLoaded_plans (s : State) (part : Nat) : (dtLoaded s part).plans = s.plans := by
  unfold dtLoaded
  split
  · exact dtSettle_plans s
  · rfl

theorem dtLoaded_bytes (s : State) (part : Nat) : (dtLoaded s part).mem.bytes = s.mem.bytes := by
  unfold dtLoaded
  split
  · exact congrArg (·.bytes) (dtSettle_mem s)
  · rfl

/-- Settles O21: the read decides a rejection, then the rules on the records, then the write of the status words. -/
theorem plansLoadWholeOrNotAtAll : Obligations.PlansLoadWholeOrNotAtAll := by
  unfold Obligations.PlansLoadWholeOrNotAtAll
  refine ⟨fun queue base key s hwait hplan hdie hdust => ?_, fun queue base key s hwait hplan hheld => ?_⟩
  · have hexec : exec (.planLoad queue) s = execPlanLoad queue s := rfl
    simp only [execPlanLoad, hwait, hplan, hdie, hdust, Bool.or_false] at hexec
    dsimp only
    generalize readPlan _ _ _ _ = r at hexec ⊢
    generalize hw : vwrite _ _ _ _ _ _ = w
    rw [show statusCode .notReady = 0x0600 from rfl, hw] at hexec
    refine ⟨fun hok hpart hgood hwok => ?_, fun hok hpart hbad => ?_, fun hok hpart hgood hwbad => ?_, fun hbad => ?_⟩
    · rw [if_neg (not_not.2 hok), hpart, hgood, Bool.not_true, if_neg Bool.false_ne_true, if_neg (not_not.2 hwok)] at hexec
      exact ⟨_, _, hexec, by rw [planOf, ← dtLoaded, dtLoaded_plans]; exact tlook_tins_same _ _ _, rfl, rfl, rfl, rfl, rfl, rfl, rfl, rfl,
        dtLoaded_bytes _ _⟩
    · rw [if_neg (not_not.2 hok), hpart, hbad] at hexec
      exact hexec
    · rw [if_neg (not_not.2 hok), hpart, hgood, Bool.not_true, if_neg Bool.false_ne_true, if_pos hwbad] at hexec
      exact ⟨_, hexec⟩
    · exact ⟨_, hexec.trans (if_pos hbad)⟩
  · change execPlanLoad queue s = _
    rcases hheld with h | h <;> simp [execPlanLoad, hwait, hplan, h]

/-- Settles O22: under the stated conditions each run-ahead command is past its checks and does what the statement says. -/
theorem skimPreparesTasksAhead : Obligations.SkimPreparesTasksAhead := by
  unfold Obligations.SkimPreparesTasksAhead
  refine ⟨?admission, ?load, ?enter, ?zero⟩
  case admission =>
    intro partition r t s hfew hd hfull hnext ht
    have hexec : exec (.skimAdmission partition) s = execSkimAdmission partition s := rfl
    simp only [execSkimAdmission, hd, hfull, hnext, ht] at hexec
    rw [if_neg (by simpa using hfew)] at hexec
    exact hexec
  case load =>
    intro queue task entry cluster p t e s hp ht he hfin hstop hplace htgt hnot hawake hclash hd hin
    have hne : t.place.isEmpty = false := by
      cases hpl : t.place with
      | nil => simp [hpl] at hplace
      | cons x l => rfl
    have hentered : (t.admitted || t.entered.contains cluster) = true := by simpa using hin
    have hexec : exec (.prologueLoadIssue queue task entry cluster) s = execPrologueLoadIssue queue task entry cluster s := rfl
    simp only [execPrologueLoadIssue, hp, ht, he, hfin, hstop, hne, htgt, hplace, hnot, hawake, hclash, hd, hentered] at hexec
    dsimp only
    refine ⟨fun hok => ?_, fun hbad => ?_⟩
    · simpa [hok] using hexec
    · simpa [hbad] using hexec
  case enter =>
    intro queue task cluster p t s hp ht hres hfin hhalt hrem hd hfull
    change execAheadDispatch queue task cluster s = _
    simp [execAheadDispatch, hp, ht, hres, hfin, hhalt, hrem, hd, hfull]
  case zero =>
    intro cluster base top r l s hskim
    have hexec : exec (.skimRangeZero cluster base) s = execSkimRangeZero cluster base s := rfl
    have hfind : (clusterOf s cluster).skim.find? (fun x => x.1 == base && x.2.2.2) = some (base, top, r, true) := by simp [hskim]
    simp only [execSkimRangeZero, hfind] at hexec
    refine ⟨_, hexec, rfl, ?_, ?_⟩
    · simp [hskim]
    · simp

/-! ## Removal of clusters -/

theorem coreOf_modCore_same (s : State) (c : Nat) (f : Core → Core) : coreOf (modCore s c f) c = f (coreOf s c) := coreOf_setCore _ _ _
theorem coreOf_modCore_ne (s : State) {c d : Nat} (f : Core → Core) (h : d ≠ c) : coreOf (modCore s c f) d = coreOf s d :=
  coreOf_setCore_ne _ _ _ _ h

theorem coreOf_modCluster (s : State) (n c : Nat) (f : Cluster → Cluster) : coreOf (modCluster s n f) c = coreOf s c := rfl

/-- A property that `f` gives every core holds, after a pass of `f` over a list of cores, of each core that the pass reached. -/
theorem coreOf_foldl_modCore {P : Core → Prop} {f : Core → Core} (hP : ∀ c, P (f c)) (g : Nat → Nat) (l : List Nat) (d : Nat) (s : State)
    (h : P (coreOf s d) ∨ ∃ x ∈ l, g x = d) : P (coreOf (l.foldl (fun s x => modCore s (g x) f) s) d) := by
  induction l generalizing s with
  | nil => simpa using h
  | cons y l ih =>
    refine ih _ ?_
    by_cases hy : d = g y
    · left
      rw [hy, coreOf_modCore_same]
      exact hP _
    · rw [coreOf_modCore_ne s f hy]
      refine h.imp_right fun ⟨x, hx, hxd⟩ => ?_
      rcases List.mem_cons.1 hx with rfl | hx
      · exact absurd hxd.symm hy
      · exact ⟨x, hx, hxd⟩

theorem zeroCluster_core {P : Core → Prop} (hP : ∀ c, P (scrubbed c)) (s : State) (n : Nat) {l : Nat} (hl : l < 16) :
    P (coreOf (zeroCluster s n) (16 * n + l)) := by
  unfold zeroCluster
  dsimp only
  rw [coreOf_modCluster]
  exact coreOf_foldl_modCore hP (fun l => 16 * n + l) (List.range 16) (16 * n + l) s (.inr ⟨l, List.mem_range.2 hl, rfl⟩)

theorem clusterOf_zeroCluster (s : State) (n : Nat) :
    (clusterOf (zeroCluster s n) n).store = [] ∧ (clusterOf (zeroCluster s n) n).scrub = none := by
  simp [zeroCluster, modCluster]

/-- Settles O23: the time-out acts on the tasks placed on the cluster; the end of the scrub zeroes it, and one that leaves goes to the
free pool. -/
theorem removedClustersAreScrubbed : Obligations.RemovedClustersAreScrubbed := by
  unfold Obligations.RemovedClustersAreScrubbed
  refine ⟨fun cluster t0 s hrem hdue => ?_, fun cluster t0 s hscrub hrem => ?_, fun cluster t0 s hscrub hrem => ?_⟩
  · change execClusterRemovalTimeout cluster s = _
    simp only [execClusterRemovalTimeout, hrem]
    exact if_neg (by omega)
  · have hexec : exec (.clusterScrubComplete cluster) s = execClusterScrubComplete cluster s := rfl
    simp only [execClusterScrubComplete, hscrub, hrem, if_true] at hexec
    obtain ⟨hstore, hsc⟩ := clusterOf_zeroCluster s cluster
    refine ⟨_, hexec, ?_, ?_, ?_, fun l hl => ?_⟩
    · simp [modCluster, hstore]
    · simp [modCluster]
    · simp [modCluster, hsc]
    · rw [coreOf_modCluster]
      exact zeroCluster_core (P := fun c => c.store = [] ∧ c.xregs = [] ∧ c.acc = []) (fun _ => ⟨rfl, rfl, rfl⟩) s cluster hl
  · change execClusterScrubComplete cluster s = _
    simp [execClusterScrubComplete, hscrub, hrem]

end Sys2Proof.Machine
end

section
/-! SUPPORT. Queues: doorbells, the fetch of an entry, completions, and the host commands that wait (chapters 07, 08). -/

namespace Sys2Proof.Machine
open Sys2Proof

/-! ## The cache of queue entries -/

theorem queueOf_congr {s t : State} (h : t.queues = s.queues) (q : Nat) : queueOf t q = queueOf s q := by rw [queueOf, queueOf, h]

theorem queueOf_modQueue_same (s : State) (q : Nat) (f : Queue → Queue) : queueOf (modQueue s q f) q = f (queueOf s q) := queueOf_setQueue _ _ _
theorem queueOf_modQueue_ne (s : State) {q p : Nat} (f : Queue → Queue) (h : p ≠ q) : queueOf (modQueue s q f) p = queueOf s p :=
  queueOf_setQueue_ne _ _ _ _ h

theorem queueOf_touchQueue_same (s : State) (q : Nat) : ∃ n, queueOf (touchQueue s q) q = { queueOf s q with cached := true, lastUse := n } :=
  ⟨_, queueOf_modQueue_same _ _ _⟩
theorem queueOf_touchQueue_ne (s : State) {q p : Nat} (h : p ≠ q) : queueOf (touchQueue s q) p = queueOf s p := queueOf_modQueue_ne _ _ h

/-- The queue table with one entry used last, and at most one other out of the cache. -/
def QueueLoaded (s u : State) (q : Nat) : Prop :=
  (∃ n, queueOf u q = { queueOf s q with cached := true, lastUse := n }) ∧
    (∀ p, p ≠ q → queueOf u p = queueOf s p ∨ queueOf u p = { queueOf s p with cached := false }) ∧ u.mem = s.mem ∧ u.sp = s.sp

theorem queueLoaded_touchQueue (s : State) (q : Nat) : QueueLoaded s (touchQueue s q) q :=
  ⟨queueOf_touchQueue_same s q, fun _ h => .inl (queueOf_touchQueue_ne s h), rfl, rfl⟩

/-- Taking another entry out of the cache first changes no more than the loaded entry's cache bits and the other's. -/
theorem queueLoaded_evict (s : State) (x q : Nat) (r : Regs) :
    QueueLoaded s (touchQueue { modQueue s x (fun v => { v with cached := false }) with regs := r } q) q := by
  obtain ⟨n, hn⟩ := queueOf_touchQueue_same { modQueue s x (fun v => { v with cached := false }) with regs := r } q
  have hmod : ∀ p, queueOf { modQueue s x (fun v => { v with cached := false }) with regs := r } p =
      queueOf (modQueue s x (fun v => { v with cached := false })) p := fun _ => rfl
  refine ⟨⟨n, hn.trans ?_⟩, fun p hp => ?_, rfl, rfl⟩
  · by_cases hq : q = x
    · subst hq; rw [hmod, queueOf_modQueue_same]
    · rw [hmod, queueOf_modQueue_ne s _ hq]
  · rw [queueOf_touchQueue_ne _ hp, hmod]
    by_cases hx : p = x
    · subst hx; exact .inr (queueOf_modQueue_same _ _ _)
    · exact .inl (queueOf_modQueue_ne _ _ hx)

theorem loadQueue_loaded {s : State} {q : Nat} (h : (loadQueue s q).1 = true) : QueueLoaded s (loadQueue s q).2 q := by
  unfold loadQueue at h ⊢
  dsimp only at h ⊢
  split
  · exact queueLoaded_touchQueue s q
  · next hfull =>
    rw [if_neg hfull] at h
    split
    · next hnone => simp [hnone] at h
    · exact queueLoaded_evict ..

theorem loadQueue_full {s : State} {q : Nat} (h : (loadQueue s q).1 = false) : loadQueue s q = (false, s) := by
  unfold loadQueue at h ⊢
  dsimp only at h ⊢
  split
  · next hroom => simp [hroom] at h
  · next hfull =>
    rw [if_neg hfull] at h
    split
    · rfl
    · next hsome => simp [hsome] at h

theorem loadQueue_regs_fst (s : State) (r : Regs) (q : Nat) : (loadQueue { s with regs := r } q).1 = (loadQueue s q).1 := by
  have hcached : cachedQueues { s with regs := r } = cachedQueues s := rfl
  unfold loadQueue
  dsimp only
  rw [hcached]
  split
  · rfl
  · split <;> rfl

/-- A doorbell's value goes to the loaded entry; of any other queue no index moves. -/
theorem queueLoaded_modQueue {s u : State} {q : Nat} (h : QueueLoaded s u q) (f : Queue → Queue) :
    (∃ n, queueOf (modQueue u q f) q = f { queueOf s q with cached := true, lastUse := n }) ∧
      (∀ p, p ≠ q → queueOf (modQueue u q f) p = queueOf s p ∨ queueOf (modQueue u q f) p = { queueOf s p with cached := false }) ∧
      (modQueue u q f).mem = s.mem ∧ (modQueue u q f).sp = s.sp := by
  obtain ⟨⟨n, hn⟩, hother, hmem, hsp⟩ := h
  refine ⟨⟨n, ?_⟩, fun p hp => ?_, hmem, hsp⟩
  · rw [queueOf_modQueue_same, hn]
  · rw [queueOf_modQueue_ne u f hp]; exact hother p hp

theorem queueOf_markPinned (s : State) (q : Nat) : queueOf (markPinned s) q = queueOf s q := queueOf_congr (setLevel_queues ..) q

/-- The tail of a served ring: the entry that the queue table holds or loads takes the value. -/
theorem sqTailWrite_taken {s : State} {queue value : Nat} (hserve : hubServes s queue = true) (hq : queue < 16384)
    (hvalid : (queueOf s queue).valid = true) (hval : value < 2 ^ (queueOf s queue).sqLog2) (hdead : doorbellDead s queue = false)
    (hin : queue = 0 ∨ (queueOf s queue).cached = true ∨ (loadQueue s queue).1 = true) :
    sqTailWrite s queue value = setQueue s 0 { queueOf s 0 with sqTail := value } ∧ queue = 0 ∨
      ∃ r u, QueueLoaded { s with regs := r } u queue ∧
        sqTailWrite s queue value = markPinned (modQueue u queue (fun v => { v with sqTail := value })) := by
  by_cases h0 : queue = 0
  · subst h0
    left
    simp [sqTailWrite, hserve, hvalid, hdead, Nat.not_le.2 hval]
  · right
    by_cases hc : (queueOf s queue).cached = true
    · exact ⟨s.regs, _, queueLoaded_touchQueue s queue,
        by simp [sqTailWrite, hserve, hvalid, hdead, Nat.not_le.2 hq, Nat.not_le.2 hval, h0, hc]⟩
    · have hload : (loadQueue s queue).1 = true := (hin.resolve_left h0).resolve_left hc
      rw [← loadQueue_regs_fst s { s.regs with qcMiss := satAdd 32 s.regs.qcMiss 1 }] at hload
      refine ⟨_, _, loadQueue_loaded hload, ?_⟩
      simp only [sqTailWrite, hserve, hvalid, hdead, Nat.not_le.2 hq, Nat.not_le.2 hval, h0, hc]
      rw [← Prod.eta (loadQueue _ queue), hload]
      rfl

/-- The head of a served completion ring: the entry that the queue table holds or loads takes the value. -/
theorem cqHeadWrite_taken {s : State} {queue value : Nat} (hserve : hubServes s queue = true) (hq : queue < 16384)
    (hvalid : (queueOf s queue).valid = true) (hval : value < 2 ^ (queueOf s queue).cqLog2)
    (hroom : (value + 2 ^ (queueOf s queue).cqLog2 - (queueOf s queue).cqHead) % 2 ^ (queueOf s queue).cqLog2 ≤
      ((queueOf s queue).cqTail + 2 ^ (queueOf s queue).cqLog2 - (queueOf s queue).cqHead) % 2 ^ (queueOf s queue).cqLog2)
    (hdead : doorbellDead s queue = false)
    (hin : queue = 0 ∨ (queueOf s queue).cached = true ∨ (loadQueue s queue).1 = true) :
    cqHeadWrite s queue value = setQueue s queue { queueOf s queue with cqHead := value } ∨
      ∃ r u, QueueLoaded { s with regs := r } u queue ∧
        cqHeadWrite s queue value = modQueue u queue (fun v => { v with cqHead := value }) := by
  by_cases hin' : queue = 0 ∨ (queueOf s queue).cached = true
  · left
    simp [cqHeadWrite, hserve, hvalid, hdead, Nat.not_le.2 hq, Nat.not_le.2 hval, Nat.not_lt.2 hroom, hin']
  · right
    obtain ⟨h0, hc⟩ := not_or.1 hin'
    have hload : (loadQueue s queue).1 = true := (hin.resolve_left h0).resolve_left hc
    rw [← loadQueue_regs_fst s { s.regs with qcMiss := satAdd 32 s.regs.qcMiss 1 }] at hload
    refine ⟨_, _, loadQueue_loaded hload, ?_⟩
    simp only [cqHeadWrite, hserve, hvalid, hdead, Nat.not_le.2 hq, Nat.not_le.2 hval, Nat.not_lt.2 hroom, h0, hc]
    rw [← Prod.eta (loadQueue _ queue), hload]
    rfl

/-- A doorbell whose queue no entry can be loaded for is kept. -/
theorem keepDoorbell_spec (s : State) (r : Regs) (q : Nat) (f : Queue → Queue) :
    queueOf (keepDoorbell { s with regs := r } q f) q = f (queueOf s q) ∧
      (∀ p, p ≠ q → queueOf (keepDoorbell { s with regs := r } q f) p = queueOf s p) ∧
      (keepDoorbell { s with regs := r } q f).mem = s.mem ∧ (keepDoorbell { s with regs := r } q f).sp = s.sp :=
  ⟨queueOf_modQueue_same _ _ _, fun _ hp => queueOf_modQueue_ne _ _ hp, rfl, rfl⟩

/-- Settles O24: an entry in the cache, or one that can be loaded, takes the value; else the doorbell is kept, and one that breaks a
rule only counts. -/
theorem doorbellsMoveRingIndices : Obligations.DoorbellsMoveRingIndices := by
  unfold Obligations.DoorbellsMoveRingIndices
  refine ⟨fun queue value s hserve hq hvalid hval hdead => ⟨fun hin => ⟨_, rfl, ?_⟩, fun hq0 hc hl => ⟨_, rfl, ?_⟩⟩,
    fun queue value s hserve hq hvalid hval hroom hdead => ⟨fun hin => ⟨_, rfl, ?_⟩, fun hq0 hc hl => ⟨_, rfl, ?_⟩⟩,
    fun queue value s hserve hq hbad => ⟨_, rfl, ?_⟩⟩
  · rcases sqTailWrite_taken hserve hq hvalid hval hdead hin with ⟨h, h0⟩ | ⟨r, u, hu, h⟩ <;> rw [h]
    · subst h0
      simp only [queueOf_setQueue]
      exact ⟨trivial, trivial, trivial, fun q hne => .inl (queueOf_setQueue_ne _ _ _ _ hne), rfl, rfl⟩
    · obtain ⟨⟨n, hn⟩, hother, hmem, hsp⟩ := queueLoaded_modQueue hu (fun v => { v with sqTail := value })
      simp only [queueOf_markPinned, hn]
      exact ⟨trivial, rfl, rfl, hother, (setLevel_mem ..).trans hmem, (setLevel_sp ..).trans hsp⟩
  · rw [← loadQueue_regs_fst s { s.regs with qcMiss := satAdd 32 s.regs.qcMiss 1 }] at hl
    have h : sqTailWrite s queue value = keepDoorbell { s with regs := { s.regs with qcMiss := satAdd 32 s.regs.qcMiss 1 } } queue
        (fun v => { v with waiting := some value }) := by
      simp [sqTailWrite, hserve, hvalid, hdead, Nat.not_le.2 hq, Nat.not_le.2 hval, hq0, hc, loadQueue_full hl]
    rw [h]
    exact keepDoorbell_spec ..
  · rcases cqHeadWrite_taken hserve hq hvalid hval hroom hdead hin with h | ⟨r, u, hu, h⟩ <;> rw [h]
    · simp only [queueOf_setQueue]
      exact ⟨trivial, trivial, fun q hne => by simp only [queueOf_setQueue_ne _ _ _ _ hne, and_self], rfl, rfl⟩
    · obtain ⟨⟨n, hn⟩, hother, hmem, hsp⟩ := queueLoaded_modQueue hu (fun v => { v with cqHead := value })
      rw [hn]
      refine ⟨rfl, rfl, fun q hne => ?_, hmem, hsp⟩
      rcases hother q hne with h | h <;> rw [h] <;> exact ⟨rfl, rfl⟩
  · rw [← loadQueue_regs_fst s { s.regs with qcMiss := satAdd 32 s.regs.qcMiss 1 }] at hl
    have h : cqHeadWrite s queue value = keepDoorbell { s with regs := { s.regs with qcMiss := satAdd 32 s.regs.qcMiss 1 } } queue
        (fun v => { v with waitingCq := some value }) := by
      simp [cqHeadWrite, hserve, hvalid, hdead, Nat.not_le.2 hq, Nat.not_le.2 hval, Nat.not_lt.2 hroom, hq0, hc, loadQueue_full hl]
    rw [h]
    exact keepDoorbell_spec ..
  · have h : sqTailWrite s queue value = dropDoorbell s queue value := by
      rcases hbad with h | h <;> simp [sqTailWrite, hserve, Nat.not_le.2 hq, h]
    rw [h]
    exact ⟨pulseEvent_queues .., pulseEvent_mem ..⟩

/-! ## Fetch and completion -/

theorem endUse_mem (s : State) (slot : Nat) : (endUse s slot).mem = s.mem := by
  unfold endUse
  dsimp only
  split <;> rfl
theorem endUse_queues (s : State) (slot : Nat) : (endUse s slot).queues = s.queues := by
  unfold endUse
  dsimp only
  split <;> rfl

theorem queueOf_doneAt {s : State} {q : Nat} {r : Running} (hr : (queueOf s q).running = some r) (hst : r.status = none) (st : Status)
    (addr : Option Nat) (info0 : Nat) : queueOf (doneAt s q st addr info0) q =
      { queueOf s q with running := some { r with addr := addr, status := some st, info0 := info0, info1 := 0, result := 0 } } := by
  simp [doneAt, finishCommand, modQueue, hr, hst]

theorem copyFinish_of_no_use {s : State} {q : Nat} {r : Running} (hr : (queueOf s q).running = some r) (hu : r.use = none) :
    copyFinish s q = s := by
  simp [copyFinish, hr, hu]

/-- The state in which a fetched command starts: its entry is taken off the ring. -/
def fetched (s : State) (q : Nat) (e : Bytes) : State :=
  modQueue s q (fun v => { v with sqHead := (v.sqHead + 1) % 2 ^ v.sqLog2, running := some (freshRunning s e) })

/-- A COPY whose body fails its tag: nothing is written, its use ends and it completes with TAG_MISMATCH. -/
theorem copyFinish_of_bad_tag {s : State} {q : Nat} {r : Running} {u : CopyUse} (hr : (queueOf s q).running = some r)
    (hu : r.use = some u) (hst : r.status = none) (hdie : dieWaits s hubDie = false) (hd : s.pow.dustSheet = false)
    (hop : opcodeOf r.entry = 2) (htag : u.tagOk = false) :
    copyFinish s q = doneAt (modQueue (endUse s u.slot) q (fun v => { v with running := v.running.map (fun r => { r with use := none }) }))
      q .tagMismatch none 0 := by
  simp [copyFinish, hr, hu, hst, hdie, hd, hop, copyInEnd, htag]

/-- Settles O25: a fetch takes the entry and runs it; a completion writes its entry; a COPY moves its data with its completion. -/
theorem queuesFetchAndComplete : Obligations.QueuesFetchAndComplete := by
  unfold Obligations.QueuesFetchAndComplete
  refine ⟨?fetch, ?defective, ?completion, ?copy⟩
  case fetch =>
    intro queue entry body s hfetch hq0 habort hhead
    have hexec : exec (.submissionFetch queue entry body false) s = .next (progress (dataCommand (fetched s queue entry) queue entry body false)) := by
      change execSubmissionFetch queue entry body false s = _
      simp [execSubmissionFetch, hfetch, modQueue, habort, hhead, hq0, fetched]
    exact ⟨_, hexec, rfl, by simp [fetched, modQueue], by simp [fetched, modQueue], fun q hq => queueOf_setQueue_ne _ _ _ _ hq⟩
  case defective =>
    intro queue entry body s hfetch habort hhead
    have hexec : exec (.submissionFetch queue entry body false) s = .next (progress (doneAt (fetched s queue entry) queue .descInvalid none
        (if opcodeOf entry = 0x01 then 0xFFFFFFFF else 0))) := by
      change execSubmissionFetch queue entry body false s = _
      simp [execSubmissionFetch, hfetch, modQueue, habort, hhead, fetched]
    have hrun : (queueOf (fetched s queue entry) queue).running = some (freshRunning s entry) := by simp [fetched, modQueue]
    refine ⟨_, hexec, rfl, _, congrArg (·.running) (queueOf_doneAt hrun rfl _ _ _), rfl, rfl⟩
  case completion =>
    intro queue r s hm hq0 hr hst hu hmsix
    have hexec : exec (.commandCompletion queue) s = execCommandCompletion queue s := rfl
    simp only [execCommandCompletion, copyFinish_of_no_use hr hu, hr, hst, hm, hmsix, if_false, Status.success, Bool.not_true, Bool.false_eq_true,
      and_false] at hexec
    refine ⟨_, hexec, ?_, ?_, ?_, ?_⟩ <;> simp
  case copy =>
    intro queue r u s hr hu hst
    refine ⟨fun hwait => ?_, fun hdie hd hop htag => ?_⟩
    · have hstay : copyFinish s queue = s := by rcases hwait with h | h <;> simp [copyFinish, hr, hu, hst, h]
      change execCommandCompletion queue s = _
      simp [execCommandCompletion, hstay, hr, hst]
    · have hfin := copyFinish_of_bad_tag hr hu hst hdie hd hop htag
      have hrun : (queueOf (modQueue (endUse s u.slot) queue (fun v => { v with running := v.running.map (fun r => { r with use := none }) })) queue).running
          = some { r with use := none } := by
        rw [queueOf_modQueue_same, queueOf_congr (endUse_queues s u.slot), hr]; rfl
      have hdone := congrArg (·.running) (queueOf_doneAt hrun hst .tagMismatch none 0)
      rw [← hfin] at hdone
      refine ⟨_, hdone, rfl, rfl, by rw [hfin]; exact endUse_mem s u.slot, ?_⟩
      change execCommandCompletion queue s = execCommandCompletion queue (copyFinish s queue)
      unfold execCommandCompletion
      rw [copyFinish_of_no_use hdone rfl]

/-- Settles O26: each wait is over under the stated conditions, and the command ends. -/
theorem waitingHostCommandsEnd : Obligations.WaitingHostCommandsEnd := by
  unfold Obligations.WaitingHostCommandsEnd
  refine ⟨fun queue r s hr hst hq0 hop hfill hd => ?_, fun queue r s hr hst hq0 hop hout => ?_, fun queue r s hr hop hwait hst hdue => ?_⟩
  · have hexec : exec (.primeBitsSet queue) s = execPrimeBitsSet queue s := rfl
    simp only [execPrimeBitsSet, hr, hst, hfill, hd, hop] at hexec
    rw [if_neg (by simp [hq0])] at hexec
    exact hexec
  · have hexec : exec (.unmapAccessTimeout queue) s = execUnmapAccessTimeout queue s := rfl
    simp only [execUnmapAccessTimeout, hr, hst, hop, hout] at hexec
    rw [if_neg (by simp [hq0])] at hexec
    exact ⟨_, hexec, rfl, rfl, rfl⟩
  · change execQueueDestroyTimeout queue s = _
    have hsince : destroySince s queue = some r.since := by simp [destroySince, hr, hop, hwait, hst]
    simp [execQueueDestroyTimeout, hsince, hdue]

end Sys2Proof.Machine
end

section
/-! SUPPORT. Device memory: line reads and writes, zero-fills, the patrol scrub, refresh and the sanding pass (chapters 08, 09). -/

namespace Sys2Proof.Machine
open Sys2Proof

/-! ## A request that reaches its controller -/

/-- A request that reaches its controller runs there at once. -/
theorem admitRequest_of_serves {s : State} {q : HeldMem} (h : memServes s q.req) :
    admitRequest s q = runReq s q ∧ reqKeyOk q.req = true := by
  obtain ⟨-, hres, hkey, hseal, hdust, hdrain, hgate, hfill⟩ := h
  have hdrain' : ((domOf s (ctlDomain (ctlNo q.req.addr))).state == .draining) = false := by simpa using hdrain
  refine ⟨?_, by simp [reqKeyOk, hres, hkey]⟩
  simp only [admitRequest, hseal, hdust, hdrain', hgate, atController]
  cases hg : tlook s.mem.granules (granOf q.req.addr) with
  | none => rfl
  | some g =>
    have hnot : g.filling = false := by simpa [hg] using hfill
    simp [hnot]

theorem exec_lineRead {s : State} {r : MemReq} (r1 r2 : RawRead) (h : memServes s r) :
    exec (.lineRead r r1 r2) s = .next (landRead s r r1 r2) := by
  obtain ⟨hrun, hkey⟩ := admitRequest_of_serves (q := ⟨r, [], r1, r2⟩) h
  obtain ⟨hok, hres, -⟩ := h
  change execLineRead r r1 r2 s = _
  simp [execLineRead, hok, hrun, runReq, runRead, hkey, hres]

/-! ## Line reads -/

theorem byteAt_zeroLine (i : Nat) : byteAt zeroLine i = 0 := by
  unfold byteAt zeroLine
  rw [List.getD_eq_getElem?_getD, List.getElem?_replicate]
  split <;> rfl

theorem slice_zeroLine (o n : Nat) : slice zeroLine o n = List.replicate n 0 := by
  refine List.ext_getElem (by simp [slice]) fun i h1 h2 => ?_
  simp [slice, byteAt_zeroLine]

section
variable {s : State} {ctx key a : Nat} (force : Option Nat) {r1 : RawRead} (r2 : RawRead)

theorem readLine_of_refused (h : memKeyCheck s ctx key ≠ .ok) : readLine s ctx key a force r1 r2 = (memKeyCheck s ctx key, zeroLine, s) := by
  simp [readLine, h]

variable (hkey : memKeyCheck s ctx key = .ok)
include hkey

theorem readLine_of_primed (hp : isPrimed s a = true) : readLine s ctx key a force r1 r2 = (.ok, zeroLine, s) := by
  simp [readLine, hkey, hp]

variable (hp : isPrimed s a = false)
include hp

theorem readLine_of_poison (h : seenPoison s a r1 = true) : readLine s ctx key a force r1 r2 = (.tagMismatch, zeroLine,
    poisonEvent (modCtlAt s a (fun c => { c with poisonRead := satAdd 32 c.poisonRead 1 })) a 1 key ctx) := by
  simp [readLine, hkey, hp, h]

variable (hpoison : seenPoison s a r1 = false)
include hpoison

theorem readLine_of_passes (hmany : decodeRaw (isCap a) r1 ≠ .manySymbols) (hpass : rawPasses s a key r1 = true) :
    readLine s ctx key a force r1 r2 = passLine s a key r1 := by
  simp [readLine, hkey, hp, hpoison, hmany, hpass]

/-- A line of HBM that fails is poisoned. -/
theorem readLine_of_fails (hcap : isCap a = false) (hfail : decodeRaw false r1 = .manySymbols ∨ rawPasses s a key r1 = false) :
    ∃ cause row3, readLine s ctx key a force r1 r2 = (.tagMismatch, zeroLine, failLine s a key ctx cause row3) := by
  by_cases hmany : decodeRaw false r1 = .manySymbols
  · exact ⟨force.getD 2, true, by simp [readLine, hkey, hp, hpoison, hcap, hmany]⟩
  · have hpass := hfail.resolve_left hmany
    exact ⟨force.getD (if (lineInfo s a).gen % 4 = assignedGen s key a % 4 then 4 else 5), false,
      by simp [readLine, hkey, hp, hpoison, hcap, hmany, hpass]⟩

end

theorem seenPoison_of_decoded {s : State} {a : Nat} {raw : RawRead} (h : decodeRaw (isCap a) raw ≠ .altered) :
    seenPoison s a raw = (lineInfo s a).poison := if_neg h
theorem rawPasses_of_decoded {s : State} {a key : Nat} {raw : RawRead} (h : decodeRaw (isCap a) raw ≠ .altered) :
    rawPasses s a key raw = tagPasses s a key := if_neg h

theorem tagPasses_of_own {s : State} {a key : Nat} (hk : (lineInfo s a).key = key) (hg : (lineInfo s a).gen = assignedGen s key a) :
    tagPasses s a key = true := by simp [tagPasses, hk, hg]

/-- A line as it was written under the request's key and its generation. -/
theorem passLine_of_own {s : State} {a key : Nat} {raw : RawRead} (hd : decodeRaw (isCap a) raw ≠ .altered)
    (hk : (lineInfo s a).key = key) (hg : (lineInfo s a).gen = assignedGen s key a) :
    passLine s a key raw = (.ok, lineBytes s a, if decodeRaw (isCap a) raw = .oneSymbol then correctLine s a else s) := by
  simp [passLine, hd, hk, hg]

theorem nth_of_all_zero {l : List Nat} (h : l.all (· == 0) = true) (i : Nat) : nth l i = 0 := by
  unfold nth
  rw [List.getD_eq_getElem?_getD]
  cases hi : l[i]? with
  | none => rfl
  | some x => exact beq_iff_eq.1 (List.all_eq_true.1 h x (List.mem_of_getElem? hi))

/-- A codeword that the decoder takes for the one written has no syndrome. -/
theorem syndrome_of_clean {n : Nat} {errs : List (Nat × Nat)} (h : rsDecode n errs = .clean) : nth (rsSyndromes n errs) 0 = 0 := by
  refine nth_of_all_zero ?_ 0
  by_contra hne
  unfold rsDecode at h
  dsimp only at h
  rw [if_neg hne] at h
  split at h
  · cases h
  · split at h
    · cases h
    · split at h <;> cases h

/-- The decoder changes nothing of a line without a wrong symbol. -/
theorem fixesSymbol_of_clean {cap : Bool} {raw : RawRead} (h : decodeRaw cap raw = .clean) : fixesSymbol cap raw = false := by
  cases cap with
  | false =>
    have hn : rsDecode 72 (wrongSymbols raw 0 72) = .clean := h
    simp [fixesSymbol, syndrome_of_clean hn]
  | true =>
    have hn : rsDecode 64 (wrongSymbols raw 0 64) = .clean := by
      simp only [decodeRaw, if_true] at h
      split at h
      · cases h
      · split at h
        · exact h
        · cases h
    simp [fixesSymbol, syndrome_of_clean hn]

theorem correctLine_lines (s : State) (a : Nat) : (correctLine s a).mem.lines = s.mem.lines := by
  unfold correctLine
  dsimp only
  split <;> simp [modCtlAt, modCtl]

theorem correctLine_corr (s : State) (a : Nat) :
    (ctlOf (correctLine s a) (ctlNo a)).corr = satAdd 32 (ctlOf s (ctlNo a)).corr 1 := by
  have hctl : ctlOf (correctLine s a) (ctlNo a) = ctlOf (modCtlAt s a (fun c => { c with corr := satAdd 32 c.corr 1 })) (ctlNo a) := by
    unfold correctLine
    dsimp only
    split <;> simp [ctlOf]
  rw [hctl, modCtlAt, modCtl, ctlOf_setCtl]

theorem lineInfo_failLine (s : State) {a : Nat} (key ctx cause : Nat) (row3 : Bool) (hcap : isCap a = false) :
    (lineInfo (failLine s a key ctx cause row3) a).poison = true := by
  simp [failLine, hcap, lineInfo, poisonLine, modCtlAt, modCtl, tlook_tins_same]

theorem landRead_eq {s u : State} {r : MemReq} {r1 r2 : RawRead} {st : Status} {b : Bytes}
    (h : readLine s r.ctx r.key (lineBase r.addr) none r1 r2 = (st, b, u)) :
    landRead s r r1 r2 = setAnswer u st (slice b (r.addr % 64) r.len) := by rw [landRead, h]

/-- Settles O27: a request that reaches its controller answers what `readLine` gives of its line; the rows of Table 8.3 in their
order. -/
theorem lineReadsAnswerAndKeepBytes : Obligations.LineReadsAnswerAndKeepBytes := by
  unfold Obligations.LineReadsAnswerAndKeepBytes
  refine ⟨?refused, ?primed, ?own, ?poison, ?fails, ?other, ?frame⟩
  case refused =>
    intro r r1 r2 s hs hk
    rw [exec_lineRead r1 r2 hs, landRead_eq (readLine_of_refused none r2 hk)]; rfl
  case primed =>
    intro r r1 r2 s hs hk hp
    rw [exec_lineRead r1 r2 hs, landRead_eq (readLine_of_primed none r2 hk hp), slice_zeroLine]; rfl
  case own =>
    intro r r1 r2 s hs hk hp hpoison hkey hgen
    have hread : ∀ hd : decodeRaw (isCap (lineBase r.addr)) r1 ≠ .altered, decodeRaw (isCap (lineBase r.addr)) r1 ≠ .manySymbols →
        readLine s r.ctx r.key (lineBase r.addr) none r1 r2 = (.ok, lineBytes s (lineBase r.addr),
          if decodeRaw (isCap (lineBase r.addr)) r1 = .oneSymbol then correctLine s (lineBase r.addr) else s) := fun hd hm => by
      rw [readLine_of_passes none r2 hk hp (by rwa [seenPoison_of_decoded hd]) hm
        (by rw [rawPasses_of_decoded hd]; exact tagPasses_of_own hkey hgen), passLine_of_own hd hkey hgen]
    refine ⟨fun hclean => ?_, fun hone => ⟨_, exec_lineRead r1 r2 hs, ?_⟩⟩
    · rw [exec_lineRead r1 r2 hs, landRead_eq (hread (by simp [hclean]) (by simp [hclean]))]
      simp [hclean, setAnswer]
    · rw [landRead_eq (hread (by simp [hone]) (by simp [hone]))]
      simp only [hone, if_true]
      exact ⟨rfl, correctLine_mem_bytes _ _, correctLine_lines _ _, correctLine_corr _ _⟩
  case poison =>
    intro r r1 r2 s hs hk hp hpoison
    refine ⟨_, exec_lineRead r1 r2 hs, ?_⟩
    rw [landRead_eq (readLine_of_poison none r2 hk hp hpoison), slice_zeroLine]
    exact ⟨rfl, poisonEvent_mem_bytes .., congrArg (·.lines) (poisonEvent_mem ..)⟩
  case fails =>
    intro r r1 r2 s hs hk hp hpoison hcap hfail
    obtain ⟨cause, row3, hread⟩ := readLine_of_fails (ctx := r.ctx) none r2 hk hp hpoison hcap hfail
    refine ⟨_, exec_lineRead r1 r2 hs, ?_⟩
    rw [landRead_eq hread, slice_zeroLine]
    exact ⟨rfl, failLine_mem_bytes .., lineInfo_failLine s r.key r.ctx cause row3 hcap⟩
  case other =>
    intro r r1 r2 s hs hk hp hclean hpoison hne htag
    have hd : decodeRaw (isCap (lineBase r.addr)) r1 ≠ .altered := by simp [hclean]
    have hown : ((lineInfo s (lineBase r.addr)).key == r.key &&
        (lineInfo s (lineBase r.addr)).gen == assignedGen s r.key (lineBase r.addr)) = false := by
      rcases hne with h | h <;> simp [h]
    refine ⟨_, exec_lineRead r1 r2 hs, ?_⟩
    rw [landRead, readLine_of_passes none r2 hk hp (by rwa [seenPoison_of_decoded hd]) (by simp [hclean])
      (by rw [rawPasses_of_decoded hd, tagPasses, htag, Bool.or_true])]
    simp only [passLine, hown, fixesSymbol_of_clean hclean, hclean]
    exact ⟨rfl, rfl⟩
  case frame =>
    exact fun r r1 r2 s hs => ⟨_, exec_lineRead r1 r2 hs, fun a ha => (landRead_only s r r1 r2).2 a ha⟩

/-! ## The bits of a line -/

theorem leVal_take_succ {d : Bytes} {n : Nat} (h : n < d.length) :
    leVal (d.take (n + 1)) = leVal (d.take n) + (byteAt d n).toNat * 2 ^ (8 * n) := by
  induction d generalizing n with
  | nil => simp at h
  | cons b d ih =>
    cases n with
    | zero => simp [leVal, byteAt]
    | succ n =>
      have hn : n < d.length := by simpa using h
      have hb : byteAt (b :: d) (n + 1) = byteAt d n := rfl
      simp only [List.take_succ_cons, leVal, ih hn, hb]
      rw [show 2 ^ (8 * (n + 1)) = 256 * 2 ^ (8 * n) by rw [Nat.mul_succ, Nat.pow_add]; ring]
      ring

/-- The mask and the value of a write that covers the first `n` bytes of its line. -/
theorem lineMask_fold {a n : Nat} {d : Bytes} (hn : n ≤ d.length) :
    (List.range n).foldl (fun (p : Nat × Nat) i => if a ≤ a + i ∧ a + i < a + d.length then
      (p.1 + 255 * 2 ^ (8 * i), p.2 + (byteAt d (a + i - a)).toNat * 2 ^ (8 * i)) else p) (0, 0) = (2 ^ (8 * n) - 1, leVal (d.take n)) := by
  induction n with
  | zero => simp [leVal]
  | succ n ih =>
    rw [List.range_succ, List.foldl_append, ih (by omega)]
    have hpow : 2 ^ (8 * (n + 1)) = 256 * 2 ^ (8 * n) := by rw [Nat.mul_succ, Nat.pow_add]; ring
    have hpos : 0 < 2 ^ (8 * n) := Nat.two_pow_pos _
    simp only [List.foldl_cons, List.foldl_nil, leVal_take_succ (show n < d.length by omega), Nat.add_sub_cancel_left]
    rw [if_pos (by omega), hpow]
    congr 1
    omega

theorem lineMask_full {a : Nat} {d : Bytes} (h : d.length = 64) : lineMask a d a = (fullMask, leVal d) := by
  rw [lineMask, lineMask_fold (by omega), List.take_of_length_le (by omega)]
  exact congrArg (fun n => (2 ^ n - 1, leVal d)) (by decide : 8 * 64 = 512)

/-- A byte string is read back from its little-endian number. -/
theorem leBytes_leVal (d : Bytes) : leBytes d.length (leVal d) = d := by
  induction d with
  | nil => rfl
  | cons b d ih =>
    have hb := b.isLt
    simp only [List.length_cons, leBytes, leVal]
    rw [show (b.toNat + 256 * leVal d) / 256 = leVal d by omega, ih, List.cons_eq_cons]
    exact ⟨BitVec.eq_of_toNat_eq (by rw [BitVec.toNat_ofNat]; omega), rfl⟩

/-! ## What the write counts leave alone -/

section
variable {β : Type} (π : State → β) (hsp : ∀ s p, π { s with sp := p } = π s)
  (hlog : ∀ s source code part ctx i0 i1, π (logIt s source code part ctx i0 i1) = π s)
include hsp hlog

theorem startSanding_keeps (s : State) (key : Nat) : π (startSanding s key) = π s := by
  unfold startSanding loadSlot draw pin modSlot setSlot setKey
  dsimp only
  split
  · rw [hlog, hsp]
  · split
    · rw [hlog, hsp]
    · split <;> simp only [hsp]

theorem addWrites_keeps (s : State) (key cur old : Nat) : π (addWrites s key cur old) = π s := by
  unfold addWrites setKey
  dsimp only
  split
  · rfl
  · split
    · rw [startSanding_keeps π hsp hlog, hsp]
    · exact hsp ..

end

/-! ## The line of an address -/

theorem isCap_lineBase (a : Nat) : isCap (lineBase a) = isCap a := by
  rw [Bool.eq_iff_iff]
  simp only [isCap, Bool.and_eq_true, decide_eq_true_eq]
  unfold lineBase capBase capBytes
  omega

theorem isReserved_lineBase (a : Nat) : isReserved (lineBase a) = isReserved a := by
  rw [Bool.eq_iff_iff]
  simp only [isReserved, Bool.and_eq_true, decide_eq_true_eq]
  unfold lineBase reservedBase hbmBytes
  omega

/-- A line lies in one granule. -/
theorem granOf_lineBase (a : Nat) : granOf (lineBase a) = granOf a := by
  have hgib : lineBase a / 2 ^ 30 = a / 2 ^ 30 := by unfold lineBase; omega
  have hpage : lineBase a / 2 ^ 12 = a / 2 ^ 12 := by unfold lineBase; omega
  unfold granOf
  rw [isCap_lineBase]
  split
  · next hcap =>
    simp only [isCap, Bool.and_eq_true, decide_eq_true_eq] at hcap
    unfold lineBase
    unfold capBase at hcap ⊢
    omega
  · simp only [hbmLocate, hgib, hpage]
    have hlow : lineBase a % 2 ^ 12 / 2 ^ 12 = a % 2 ^ 12 / 2 ^ 12 := by omega
    congr 1
    omega

/-! ## LINE_WRITE -/

theorem exec_lineWrite {s : State} {r : MemReq} {data : Bytes} (r1 r2 : RawRead) (h : memServes s r) (hlen : data.length = r.len)
    (hp : isPrimed s r.addr = false) : exec (.lineWrite r data r1 r2) s = .next (landWrite s r data false r1 r2) := by
  obtain ⟨hrun, hkey⟩ := admitRequest_of_serves (q := ⟨r, data, r1, r2⟩) h
  obtain ⟨hok, hres, -⟩ := h
  have hne : data.isEmpty = false := by
    have h1 : 1 ≤ r.len := by simp [reqOk] at hok; omega
    cases data with
    | nil => simp at hlen; omega
    | cons b d => rfl
  change execLineWrite r data r1 r2 s = _
  simp [execLineWrite, hok, hlen, hrun, runReq, hne, runWrite, hkey, hres, hp]

theorem isPrimed_of_granule {s : State} {a : Nat} {g : Granule} (h : tlook s.mem.granules (granOf a) = some g) : isPrimed s a = false := by
  simp [isPrimed, h]

/-- The state after a whole line has been written under a key. -/
def lineStored (s : State) (key a v : Nat) : State :=
  let c := if assignedGen s key a = (keyOf s key).gen then 1 else 0
  setDirty (addWrites { s with mem := { s.mem with bytes := mwriteN s.mem.bytes a (leBytes 64 v)
                                                   lines := tins s.mem.lines a (sealedLine s key (assignedGen s key a) a (leBytes 64 v)) } }
    key c (1 - c)) (granOf a)

theorem storeLine_full {s : State} {key a : Nat} (ctx v : Nat) (r1 r2 : RawRead) {g : Granule} (hg : tlook s.mem.granules (granOf a) = some g)
    (hkey : g.key = key) (hbudget : let c := if assignedGen s key a = (keyOf s key).gen then 1 else 0
      budgetOk s key c (1 - c) = true) : storeLine s ctx key a fullMask v false r1 r2 = (.ok, lineStored s key a v) := by
  dsimp only at hbudget
  simp [storeLine, hg, hkey, hbudget, lineStored]

theorem lineStored_mem (s : State) (key a v : Nat) : (lineStored s key a v).mem.bytes = mwriteN s.mem.bytes a (leBytes 64 v) ∧
    lineInfo (lineStored s key a v) a = sealedLine s key (assignedGen s key a) a (leBytes 64 v) := by
  simp [lineStored, setDirty, lineInfo, tlook_tins_same]

theorem lineStored_keeps {β : Type} (π : State → β) (hsp : ∀ s p, π { s with sp := p } = π s) (hmem : ∀ s m, π { s with mem := m } = π s)
    (hlog : ∀ s source code part ctx i0 i1, π (logIt s source code part ctx i0 i1) = π s) (s : State) (key a v : Nat) :
    π (lineStored s key a v) = π s := by
  rw [lineStored, setDirty, hmem, addWrites_keeps π hsp hlog, hmem]

/-- Settles O28: a whole line under its granule's key is stored and sealed; another key is refused before anything is stored. -/
theorem lineWritesStoreOneLine : Obligations.LineWritesStoreOneLine := by
  unfold Obligations.LineWritesStoreOneLine
  refine ⟨fun r data r1 r2 g s hs hlen hdata hk hcls hg hgk hbudget => ?_, fun r data r1 r2 g s hs hlen hk hg hgk => ?_⟩
  · have hbase : lineBase r.addr = r.addr := by
      have hok := hs.1
      simp [reqOk] at hok
      unfold lineBase
      omega
    have htake : data.take r.len = data := List.take_of_length_le (by omega)
    have hback : leBytes 64 (leVal data) = data := hdata ▸ leBytes_leVal data
    have hland : landWrite s r data false r1 r2 = setAnswer (lineStored s r.key r.addr (leVal data)) .ok [] := by
      rw [landWrite, hbase, htake, lineMask_full hdata]
      simp only [hk, hcls, storeLine_full r.ctx (leVal data) r1 r2 hg hgk hbudget]
      rfl
    obtain ⟨hbytes, hline⟩ := lineStored_mem s r.key r.addr (leVal data)
    rw [hback] at hbytes hline
    refine ⟨_, exec_lineWrite r1 r2 hs (by omega) (isPrimed_of_granule hg), ?_⟩
    rw [hland]
    have hbyte : ∀ a, memByte (setAnswer (lineStored s r.key r.addr (leVal data)) .ok []) a = mread (mwriteN s.mem.bytes r.addr data) a :=
      fun a => congrArg (mread · a) hbytes
    have hinfo : lineInfo (setAnswer (lineStored s r.key r.addr (leVal data)) .ok []) r.addr =
      sealedLine s r.key (assignedGen s r.key r.addr) r.addr data := hline
    refine ⟨rfl, fun i hi => ?_, fun a ha => ?_, hinfo, by rw [hinfo]; rfl, by rw [hinfo]; rfl, ?_, ?_, ?_, ?_⟩
    · rw [hbyte, mread_mwriteN_in _ _ _ _ (by omega)]
    · rw [hbyte, mread_mwriteN_out _ _ _ _ (by omega)]; rfl
    · exact lineStored_keeps State.cores (fun _ _ => rfl) (fun _ _ => rfl) logIt_cores ..
    · exact lineStored_keeps State.queues (fun _ _ => rfl) (fun _ _ => rfl) logIt_queues ..
    · exact lineStored_keeps State.plans (fun _ _ => rfl) (fun _ _ => rfl) logIt_plans ..
    · exact lineStored_keeps State.fab (fun _ _ => rfl) (fun _ _ => rfl) logIt_fab ..
  · have hland : landWrite s r data false r1 r2 = setAnswer s .policyDenied [] := by
      obtain ⟨-, hres, -⟩ := hs
      unfold landWrite
      simp only [hk]
      split
      · contradiction
      · split
        · rfl
        · simp [storeLine, isReserved_lineBase, hres, granOf_lineBase, hg, hgk]
    rw [exec_lineWrite r1 r2 hs hlen (isPrimed_of_granule hg), hland]
    rfl

/-! ## The first write to a primed granule -/

theorem exec_lineWrite_of_primed {s u : State} {r : MemReq} {data : Bytes} (r1 r2 : RawRead) (h : memServes s r)
    (hlen : data.length = r.len) (hk : memKeyCheck s r.ctx r.key = .ok) (hcls : (keyOf s r.key).cls ≠ 1) (hp : isPrimed s r.addr = true)
    (hu : reserveFill s r.key (lineBase r.addr) = some u) :
    exec (.lineWrite r data r1 r2) s = .next { u with mem := { u.mem with
      granules := tins u.mem.granules (granOf r.addr) ⟨r.key, 0, true, [⟨r, data, r1, r2⟩], 0, lineBase r.addr⟩ } } := by
  obtain ⟨hrun, hkey⟩ := admitRequest_of_serves (q := ⟨r, data, r1, r2⟩) h
  obtain ⟨hok, hres, -⟩ := h
  have hne : data.isEmpty = false := by
    have h1 : 1 ≤ r.len := by simp [reqOk] at hok; omega
    cases data with
    | nil => simp at hlen; omega
    | cons b d => rfl
  change execLineWrite r data r1 r2 s = _
  simp [execLineWrite, hok, hlen, hrun, runReq, hne, runWrite, hkey, hres, hp, hk, hcls, hu]

/-! ## A zero-fill that ends -/

theorem tlook_filter_key {α : Type} (p : Nat → Bool) (t : Tab α) (k : Nat) :
    tlook (t.filter (fun x => p x.1)) k = if p k then tlook t k else none := by
  induction t with
  | nil => simp [tlook]
  | cons x t ih =>
    obtain ⟨a, v⟩ := x
    by_cases hpa : p a = true
    · rw [List.filter_cons_of_pos (by simpa using hpa), tlook, tlook, ih]
      by_cases hak : a = k
      · subst hak; simp [hpa]
      · simp [hak]
    · rw [List.filter_cons_of_neg (by simpa using hpa), ih, tlook]
      by_cases hak : a = k
      · subst hak; simp [hpa]
      · simp [hak]

/-- The entries that a pass over a list of numbers lists. -/
theorem tlook_foldl_tins {α : Type} (f : Nat → α) (l : List Nat) (t : Tab α) (a : Nat) :
    tlook (l.foldl (fun t x => tins t x (f x)) t) a = if a ∈ l then some (f a) else tlook t a := by
  induction l generalizing t with
  | nil => simp
  | cons x l ih =>
    rw [List.foldl_cons, ih]
    by_cases hl : a ∈ l
    · simp [hl]
    · by_cases hx : a = x
      · subst hx; simp [hl, tlook_tins_same]
      · simp [hl, hx, tlook_tins_ne]

theorem granLines_length (g : Nat) : (granLines g).length = 1024 := by
  unfold granLines
  split <;> simp

theorem assignedGen_cases (s : State) (key a : Nat) : assignedGen s key a = (keyOf s key).gen ∨
    assignedGen s key a = (keyOf s key).gen - 1 ∧ (keyOf s key).state = .sanding := by
  unfold assignedGen
  dsimp only
  split
  · next hs =>
    split
    · exact .inl rfl
    · exact .inr ⟨rfl, hs⟩
  · exact .inl rfl

theorem mem_fillCur {s : State} {key g a : Nat} (ha : a ∈ granLines g) :
    a ∈ fillCur s key g ↔ assignedGen s key a = (keyOf s key).gen := by
  unfold fillCur
  split
  · simp [ha]
  · next hs => simp [ha, assignedGen, hs]

theorem fillCur_subset {s : State} {key g a : Nat} (ha : a ∈ fillCur s key g) : a ∈ granLines g := by
  unfold fillCur at ha
  split at ha
  · exact (List.mem_filter.1 ha).1
  · exact ha

/-- A fill all of whose lines take the current generation. -/
theorem assignedGen_of_full {s : State} {key g a : Nat} (h : (fillCur s key g).length = 1024) (ha : a ∈ granLines g) :
    assignedGen s key a = (keyOf s key).gen := by
  rw [← mem_fillCur ha]
  unfold fillCur at h ⊢
  split at h
  · rename_i hs
    rw [if_pos hs]
    rw [← granLines_length g] at h
    rw [List.length_filter_eq_length_iff.1 h |> List.filter_eq_self.2]
    exact ha
  · rename_i hs
    rw [if_neg hs]
    exact ha

/-- Each line of a granule is sealed zeros after its fill, under the generation assigned to it. -/
theorem lineInfo_fillGranule {s : State} {key g a : Nat} (ha : a ∈ granLines g) (hg : granOf a = g) :
    lineInfo (fillGranule s key g) a = sealedLine s key (assignedGen s key a) a zeroLine := by
  have hblank : tlook (s.mem.lines.filter (fun p => granOf p.1 != g)) a = none := by
    rw [tlook_filter_key (fun k => granOf k != g)]; simp [hg]
  unfold lineInfo fillGranule setDirty
  dsimp only
  by_cases hfull : (fillCur s key g).length = 1024
  · simp [hfull, hblank, hg, tlook_tins_same, sealedLine, assignedGen_of_full hfull ha]
  · rw [if_neg hfull, if_neg hfull, tlook_foldl_tins (fun a => sealedLine s key (keyOf s key).gen a zeroLine), hblank]
    by_cases hcur : a ∈ fillCur s key g
    · simp [hcur, (mem_fillCur ha).1 hcur]
    · have hold : assignedGen s key a = (keyOf s key).gen - 1 := ((assignedGen_cases s key a).resolve_left (mt (mem_fillCur ha).2 hcur)).1
      simp [hcur, hg, tlook_tins_same, sealedLine, hold]

theorem lines_fillGranule_ne {s : State} {key g a : Nat} (hg : granOf a ≠ g) (ha : a ∉ granLines g) :
    tlook (fillGranule s key g).mem.lines a = tlook s.mem.lines a := by
  have hblank : tlook (s.mem.lines.filter (fun p => granOf p.1 != g)) a = tlook s.mem.lines a := by
    rw [tlook_filter_key (fun k => granOf k != g)]; simp [hg]
  unfold fillGranule setDirty
  dsimp only
  split
  · exact hblank
  · rw [tlook_foldl_tins (fun a => sealedLine s key (keyOf s key).gen a zeroLine), if_neg (mt fillCur_subset ha), hblank]

theorem exec_zeroFillComplete {s : State} {g : Nat} {e : Granule} (hg : tlook s.mem.granules g = some e) (hf : e.filling = true) :
    exec (.zeroFillComplete g) s = .next (match e.waiting with
      | [] => countFill (fillGranule s e.key g) e.trigger
      | q :: l => l.foldl (landHeld false) (landHeld true (countFill (fillGranule s e.key g) e.trigger) q)) := by
  change Host.Outcome.next (finishFill s g) = _
  unfold finishFill
  rw [hg]
  simp only [hf, Bool.not_true]
  rfl

/-! ## The patrol scrub -/

theorem correctLine_keeps {β : Type} (π : State → β) (hctl : ∀ s a f, π (modCtlAt s a f) = π s)
    (hevent : ∀ s pg b i, π (pulseEvent s pg b i) = π s) (hmon : ∀ s n, π (countMonitor s n) = π s) (s : State) (a : Nat) :
    π (correctLine s a) = π s := by
  unfold correctLine
  dsimp only
  split
  · rw [hevent, hctl]
  · rw [hmon, hevent, hctl]

/-- What the scrub does to the line that it reads. -/
def scrubbedLine (s : State) (a : Nat) (raw : RawRead) : State :=
  let busy := match tlook s.mem.granules (granOf a) with | some g => g.filling | none => !isReserved a
  if !busy && decodeMeta (isCap a) raw == .oneSymbol then correctLine s a else s

theorem scrubbedLine_keeps {β : Type} (π : State → β) (h : ∀ s a, π (correctLine s a) = π s) (s : State) (a : Nat) (raw : RawRead) :
    π (scrubbedLine s a raw) = π s := by
  unfold scrubbedLine
  rw [apply_ite π, h, ite_self]

theorem scrubbedLine_of_not_one {s : State} {a : Nat} {raw : RawRead} (h : decodeMeta (isCap a) raw ≠ .oneSymbol) :
    scrubbedLine s a raw = s := by simp [scrubbedLine, h]

/-- Settles O29: a fill begins and ends as `reserveFill` and `fillGranule` say; the scrub and a refresh touch the controller. -/
theorem fillsScrubsAndRefreshesKeepMemory : Obligations.FillsScrubsAndRefreshesKeepMemory := by
  unfold Obligations.FillsScrubsAndRefreshesKeepMemory
  refine ⟨⟨?first, ?filled⟩, ?scrub, ?refresh⟩
  case first =>
    intro r data r1 r2 s hs hlen hk hcls hp hfill
    obtain ⟨u, hu⟩ := Option.isSome_iff_exists.1 hfill
    have hmem := reserveFill_mem hu
    exact ⟨_, _, exec_lineWrite_of_primed r1 r2 hs hlen hk hcls hp hu, tlook_tins_same _ _ _, rfl, rfl, rfl,
      congrArg (·.bytes) hmem, congrArg (·.answer) hmem⟩
  case filled =>
    intro g e s hg hf
    refine ⟨exec_zeroFillComplete hg hf, rfl, rfl, fun h hne => tlook_tins_ne _ _ _ _ hne, ⟨_, tlook_tins_same _ _ _, rfl, rfl, rfl⟩,
      fun a ha hga => lineInfo_fillGranule ha hga, fun a hga ha => lines_fillGranule_ne hga ha⟩
  case scrub =>
    intro a raw s hmem hdt hd hseal
    have hexec : exec (.patrolScrubRead a raw) s = .next (modCtl (scrubbedLine s (lineBase a) raw) (ctlNo (lineBase a)) (fun c =>
        { c with patrolAt := if localLine (lineBase a) + 1 == ctlLines (ctlNo (lineBase a)) then 0 else localLine (lineBase a) + 1
                 patrols := if localLine (lineBase a) + 1 == ctlLines (ctlNo (lineBase a)) then satAdd 32 c.patrols 1 else c.patrols })) := by
      change execPatrolScrubRead a raw s = _
      unfold execPatrolScrubRead
      rw [hmem, hdt, hd, hseal]
      rfl
    refine ⟨_, hexec, ?_, ?_, ?_, ?_, ?_, ?_, fun hone => ?_⟩
    · exact scrubbedLine_keeps (·.mem.bytes) correctLine_mem_bytes ..
    · exact scrubbedLine_keeps (·.mem.lines) correctLine_lines ..
    · exact scrubbedLine_keeps (·.mem.granules) (correctLine_keeps (·.mem.granules) (fun _ _ _ => rfl) (fun _ _ _ _ => by rw [pulseEvent_mem])
        (fun _ _ => by rw [countMonitor_mem])) ..
    · exact scrubbedLine_keeps (·.sp) (correctLine_keeps _ (fun _ _ _ => rfl) pulseEvent_sp countMonitor_sp) ..
    · exact scrubbedLine_keeps (·.cores) (correctLine_keeps _ (fun _ _ _ => rfl) pulseEvent_cores countMonitor_cores) ..
    · rw [modCtl, ctlOf_setCtl]; simp
    · rw [modCtl, ctlOf_setCtl, scrubbedLine_of_not_one hone]
  case refresh =>
    intro ctl bank n s hctl hself hon
    have hexec : exec (.memoryRefresh ctl bank n) s =
        .next (countMemExc (modCtl s ctl (fun c => { c with refreshes := satAdd 32 c.refreshes n })) n) := by
      change execMemoryRefresh ctl bank n s = _
      simp [execMemoryRefresh, hctl, hself, hon]
    refine ⟨_, hexec, rfl, rfl, ?_, rfl, fun c hc => ?_⟩
    · exact congrArg (·.refreshes) (ctlOf_setCtl s ctl _)
    · exact ctlOf_setCtl_ne s c ctl _ hc

/-! ## The start of a sanding pass -/

theorem loadSlot_keyCtxs (s : State) (slot cls : Nat) (key : BitVec 256) (part ses owner expiry limit : Nat) :
    (loadSlot s slot cls key part ses owner expiry limit).sp.keyCtxs = s.sp.keyCtxs := by
  unfold loadSlot
  dsimp only
  split <;> rfl

theorem pin_keyCtxs (s : State) (slot : Nat) : (pin s slot).sp.keyCtxs = s.sp.keyCtxs := rfl

theorem keyOf_congr {s t : State} (h : t.sp.keyCtxs = s.sp.keyCtxs) (k : Nat) : keyOf t k = keyOf s k := by rw [keyOf, keyOf, h]

/-- A pass that can begin: the context goes to the next generation with a new key, its old slot kept. -/
theorem startSanding_begins {s : State} {key slot : Nat} (hslot : freeSlot s = some slot) (hdrbg : drbgOk s = true) :
    ∃ u, startSanding s key = setKey u key { keyOf s key with
      state := .sanding, slotOld := (keyOf s key).slotCur, slotCur := slot, gen := (keyOf s key).gen + 1, wOld := (keyOf s key).wCur, wCur := 0, sweep := [], bad := 0, deferred := none } ∧
      u.sp.keyCtxs = s.sp.keyCtxs := by
  unfold startSanding
  simp only [hslot, hdrbg, Bool.not_true, Bool.false_eq_true, if_false]
  exact ⟨_, rfl, by rw [pin_keyCtxs, loadSlot_keyCtxs]; rfl⟩

/-! ## A step of a pass -/

/-- The pointer of a pass at a controller. -/
def sweepTo (s : State) (key ctl n : Nat) : State :=
  setKey s key { keyOf s key with sweep := tins (keyOf s key).sweep (sweepNo ctl) n }

/-- The state in which a pass reads its next line: the slots that it takes ahead of a waiting request are counted. -/
def sandRead (s : State) (key ctl n : Nat) : State := countMemExc (sweepTo (slotsAhead s ctl).2 key ctl n) (slotsAhead s ctl).1

/-- The state after a line of a pass has been written under the new generation. -/
def sandWritten (s : State) (key a gen : Nat) (plain : Bytes) : State :=
  addWrites { s with mem := { s.mem with lines := tins s.mem.lines a (sealedLine s key gen a plain) } } key 1 0

theorem slotsAhead_keeps {β : Type} (π : State → β) (h : ∀ s f, π { s with fresh := f } = π s) (s : State) (ctl : Nat) :
    π (slotsAhead s ctl).2 = π s := by
  unfold slotsAhead
  split
  · rfl
  · exact h ..

theorem slotsAhead_le (s : State) (ctl : Nat) : (slotsAhead s ctl).1 ≤ 2 := by
  unfold slotsAhead
  split
  · exact Nat.le_refl 2
  · dsimp only; omega

theorem exec_sandingLineStep {s : State} {key ctl : Nat} (r1 r2 : RawRead) (hst : (keyOf s key).state = .sanding)
    (hbudget : budgetOk s key 1 0 = true) (hctl : passCtls.contains ctl = true)
    (hptr : tget 0 (keyOf s key).sweep (sweepNo ctl) < ctlLines ctl) (hd : s.pow.dustSheet = false)
    (hon : (domOf s (ctlDomain ctl)).state = .on) : exec (.sandingLineStep key ctl r1 r2) s =
      match nextSanded s key ctl (tget 0 (keyOf s key).sweep (sweepNo ctl)) with
      | none => .next (finishSanding (sweepTo s key ctl (ctlLines ctl)) key)
      | some n => .next (finishSanding (sweepTo (match readLine (sandRead s key ctl n) 4096 key (lineAt ctl n) (some 7) r1 r2 with
          | (.ok, plain, u) => sandWritten u key (lineAt ctl n) (keyOf s key).gen plain
          | (_, _, u) => setKey u key { keyOf u key with bad := (keyOf u key).bad + 1 }) key ctl (n + 1)) key) := by
  change execSandingLineStep key ctl r1 r2 s = _
  unfold execSandingLineStep
  dsimp only
  rw [if_neg (by simp [hst, hbudget, List.contains_iff_mem.1 hctl, hptr, hd, hon])]
  rfl


section
variable {s : State} {key ctl n : Nat}

theorem keyOf_sandRead : keyOf (sandRead s key ctl n) key = { keyOf s key with sweep := tins (keyOf s key).sweep (sweepNo ctl) n } := by
  have hkeys : keyOf (slotsAhead s ctl).2 key = keyOf s key := slotsAhead_keeps (fun s => keyOf s key) (fun _ _ => rfl) s ctl
  rw [← hkeys]
  exact keyOf_setKey _ _ _

theorem sandRead_mem : (sandRead s key ctl n).mem = s.mem := slotsAhead_keeps State.mem (fun _ _ => rfl) s ctl

theorem sandRead_slots : (sandRead s key ctl n).sp.slots = s.sp.slots := slotsAhead_keeps (·.sp.slots) (fun _ _ => rfl) s ctl

theorem sandRead_memExc : (sandRead s key ctl n).pow.memExc = satAdd 16 s.pow.memExc (slotsAhead s ctl).1 :=
  congrArg (satAdd 16 · (slotsAhead s ctl).1) (slotsAhead_keeps (·.pow.memExc) (fun _ _ => rfl) s ctl)

theorem lineInfo_congr {s t : State} (h : t.mem = s.mem) (a : Nat) : lineInfo t a = lineInfo s a := by unfold lineInfo; rw [h]

theorem memKeyCheck_sandRead : memKeyCheck (sandRead s key ctl n) 4096 key = memKeyCheck s 4096 key := by
  unfold memKeyCheck
  rw [keyOf_sandRead]
  rfl

/-- The line at the pointer is still of the old generation. -/
theorem assignedGen_sandRead {a : Nat} (hst : (keyOf s key).state = .sanding) (hline : localLine a = n) (hctl : ctlNo a = ctl) :
    assignedGen (sandRead s key ctl n) key a = (keyOf s key).gen - 1 := by
  unfold assignedGen
  rw [keyOf_sandRead]
  simp [hst, hline, hctl, tget, tlook_tins_same]

theorem sealedLine_sandRead (gen a : Nat) (plain : Bytes) : sealedLine (sandRead s key ctl n) key gen a plain = sealedLine s key gen a plain := by
  unfold sealedLine rootKey slotOf
  rw [keyOf_sandRead, sandRead_slots]

/-- The pass reads its line clean, as it stands. -/
theorem readLine_sandRead {a : Nat} {r1 : RawRead} (r2 : RawRead) (hst : (keyOf s key).state = .sanding) (hline : localLine a = n)
    (hctl : ctlNo a = ctl) (hp : isPrimed s a = false) (hcheck : memKeyCheck s 4096 key = .ok) (hclean : decodeRaw (isCap a) r1 = .clean)
    (hpoison : (lineInfo s a).poison = false) (hkey : (lineInfo s a).key = key) (hgen : (lineInfo s a).gen + 1 = (keyOf s key).gen) :
    readLine (sandRead s key ctl n) 4096 key a (some 7) r1 r2 = (.ok, lineBytes s a, sandRead s key ctl n) := by
  have hinfo := lineInfo_congr (sandRead_mem (s := s) (key := key) (ctl := ctl) (n := n)) a
  have hd : decodeRaw (isCap a) r1 ≠ .altered := by simp [hclean]
  have hp' : isPrimed (sandRead s key ctl n) a = false := by unfold isPrimed; rw [sandRead_mem]; exact hp
  have hk : (lineInfo (sandRead s key ctl n) a).key = key := by rw [hinfo, hkey]
  have hg : (lineInfo (sandRead s key ctl n) a).gen = assignedGen (sandRead s key ctl n) key a := by
    rw [hinfo, assignedGen_sandRead hst hline hctl]; omega
  rw [readLine_of_passes (some 7) r2 (memKeyCheck_sandRead.trans hcheck) hp' (by rw [seenPoison_of_decoded hd, hinfo, hpoison])
    (by simp [hclean]) (by rw [rawPasses_of_decoded hd]; exact tagPasses_of_own hk hg), passLine_of_own hd hk hg]
  simp [hclean, lineBytes, sandRead_mem]

end

/-- What the write of a line of a pass leaves: only its key context counts it. -/
theorem sandWritten_eq {s : State} {key : Nat} (a gen : Nat) (plain : Bytes) (hkey : key ≠ 0) (hst : (keyOf s key).state = .sanding) :
    sandWritten s key a gen plain = setKey { s with mem := { s.mem with lines := tins s.mem.lines a (sealedLine s key gen a plain) } } key
      { keyOf s key with wCur := (keyOf s key).wCur + 1 } := by
  have hk : keyOf { s with mem := { s.mem with lines := tins s.mem.lines a (sealedLine s key gen a plain) } } key = keyOf s key := rfl
  unfold sandWritten addWrites
  rw [if_neg hkey]
  dsimp only
  rw [hk, if_neg (by simp [hst])]
  rfl

/-- Settles O30: a retry begins the pass; a step reads its line as it stands and seals it under the new generation. -/
theorem sandingPassRekeysLines : Obligations.SandingPassRekeysLines := by
  unfold Obligations.SandingPassRekeysLines
  refine ⟨?retry, ?line, ?ahead, ?budget, ?done⟩
  case retry =>
    intro key slot since s hdef hdue hact hcls hslot hdrbg
    obtain ⟨u, hstart, hkeys⟩ := startSanding_begins (key := key) hslot hdrbg
    have hexec : exec (.sandingRetry key) s = .next (startSanding s key) := by
      change execSandingRetry key s = _
      simp [execSandingRetry, hdef, show ¬ s.ns < since + 1000000 by omega, hact, hcls]
    refine ⟨_, hexec, ?_⟩
    have hmem := startSanding_mem s key
    rw [hstart] at hmem ⊢
    rw [keyOf_setKey]
    exact ⟨rfl, rfl, rfl, rfl, rfl, rfl, rfl, hmem, fun k hk => (keyOf_setKey_ne _ _ _ _ hk).trans (keyOf_congr hkeys k)⟩
  case line =>
    intro key ctl n r1 r2 s hst hbudget hctl hptr hd hon hnext hp hkey hcheck hclean hpoison hlkey hgen hline hlctl
    have hread := readLine_sandRead r2 hst hline hlctl hp hcheck hclean hpoison hlkey hgen
    have hexec := exec_sandingLineStep r1 r2 hst hbudget hctl hptr hd hon
    have hst' : (keyOf (sandRead s key ctl n) key).state = .sanding := by rw [keyOf_sandRead]; exact hst
    simp only [hnext, hread, sandWritten_eq _ _ _ hkey hst'] at hexec
    refine ⟨_, hexec, ?_, ?_, ?_, ?_, ?_⟩
    · simp [sweepTo, sandRead_mem]
    · simp [sweepTo, lineInfo, tlook_tins_same, sealedLine_sandRead]
    · simp [sweepTo, sandRead_memExc]
    · simp [sweepTo, keyOf_sandRead]
    · simp [sweepTo, tget, tlook_tins_same]
  case ahead =>
    exact fun ctl s => ⟨slotsAhead_le s ctl, fun hw => by simp [slotsAhead, hw]⟩
  case budget =>
    intro key ctl r1 r2 s hbudget
    change execSandingLineStep key ctl r1 r2 s = _
    unfold execSandingLineStep
    dsimp only
    exact if_pos (by simp [hbudget])
  case done =>
    intro key ctl r1 r2 s hst hbudget hctl hptr hd hon hnext
    rw [exec_sandingLineStep r1 r2 hst hbudget hctl hptr hd hon, hnext]
    rfl

end Sys2Proof.Machine
end

section
/-! SUPPORT. The links: packets received, executed and answered, the die-to-die links and the ports of the Lath fabric (chapters 09, 10). -/

namespace Sys2Proof.Machine
open Sys2Proof

/-! ## The receive buffer -/

theorem bufferLevel_fab (s : State) (vc : Nat) : (bufferLevel s vc).fab = s.fab := setLevel_fab ..

/-- A packet's way through its receive buffer leaves all of the Lath unit but the ports. -/
theorem passBuffer_fab_keeps {β : Type} (π : Fabric → β) (h : ∀ f p, π { f with ports := p } = π f) (s : State) (rx : Rx) :
    π (passBuffer s rx).fab = π s.fab := by
  have hin : ∀ u : State, π (bufferIn u rx.port rx.pkt).fab = π u.fab := fun u => by
    unfold bufferIn
    split
    · rw [bufferLevel_fab]; exact h ..
    · rfl
  have hout : ∀ u : State, π (bufferOut u rx.port rx.pkt).fab = π u.fab := fun u => by
    unfold bufferOut
    split
    · rw [bufferLevel_fab]; exact h ..
    · rfl
  rw [passBuffer, hout, hin]

theorem turnOf_passBuffer (s : State) (rx : Rx) (p : Packet) : turnOf (passBuffer s rx) p = turnOf s p := by
  unfold turnOf
  rw [passBuffer_fab_keeps (·.rxFlows) (fun _ _ => rfl)]

/-! ## A request that passes its checks -/

section
variable {s u : State} {rx : Rx} (hcheck : rxCheck s rx = (.pass, u))
include hcheck

theorem receiveRequest_of_waits (hmem : needsMemory rx.pkt = true) (hdie : dieWaits (renewLoan u rx.pkt.srcNode) hubDie = true) :
    receiveRequest s rx = holdLink (renewLoan u rx.pkt.srcNode) rx := by
  simp [receiveRequest, hcheck, hmem, hdie]

theorem receiveRequest_of_due (hturn : turnOf (renewLoan u rx.pkt.srcNode) rx.pkt = .due)
    (hgo : needsMemory rx.pkt = false ∨ dieWaits (renewLoan u rx.pkt.srcNode) hubDie = false) : receiveRequest s rx = dueServed u rx := by
  have hwait : ¬ (needsMemory rx.pkt = true ∧ dieWaits (renewLoan u rx.pkt.srcNode) hubDie = true) := by
    rcases hgo with h | h <;> simp [h]
  have hturn' : turnOf (passBuffer (renewLoan u rx.pkt.srcNode) rx) rx.pkt = .due := by rw [turnOf_passBuffer, hturn]
  simp [receiveRequest, hcheck, hwait, actOn, serveOrdered, hturn', dueServed]

end

theorem pumpPort_sp (s : State) (port : Nat) : (pumpPort s port).sp = s.sp := by
  unfold pumpPort
  split <;> rfl
theorem sendOn_sp (s : State) (port : Nat) (p : Packet) : (sendOn s port p).sp = s.sp := pumpPort_sp ..
theorem sendVc4_sp (s : State) (op dir node : Nat) (data : Bytes) : (sendVc4 s op dir node data).sp = s.sp := by
  unfold sendVc4
  dsimp only
  split
  · rfl
  · split
    · rfl
    · exact sendOn_sp ..
theorem slipCheck_sp (s : State) (rx : Rx) : (slipCheck s rx).sp = s.sp := by
  unfold slipCheck
  dsimp only
  split
  · rfl
  · split
    · rfl
    · exact sendVc4_sp ..

/-- What checks 1 to 3 let pass carries a good tag and a well-formed header, and names an active Lath key. -/
theorem rxFirst_true {s u : State} {rx : Rx} (h : rxFirst s rx = (true, u)) :
    rx.tagOk = true ∧ (keyOf s rx.pkt.keyIdx).cls = 2 ∧ (keyOf s rx.pkt.keyIdx).state = .active ∧ wellFormedPacket rx.pkt = true := by
  unfold rxFirst at h
  dsimp only at h
  split at h
  · cases h
  · next htag =>
    split at h
    · cases h
    · next hkey =>
      split at h
      · cases h
      · next hform =>
        obtain ⟨hcls, hstate⟩ := not_or.1 hkey
        exact ⟨by simpa using htag, not_not.1 hcls, not_not.1 hstate, by simpa using hform⟩

theorem rxFirst_of_pass {s u : State} {rx : Rx} (h : rxCheck s rx = (.pass, u)) : rxFirst s rx = (true, u) := by
  unfold rxCheck at h
  split at h
  · cases h
  · next hfirst => exact hfirst.trans (congrArg (Prod.mk true) (Prod.ext_iff.1 h).2)

/-- A COLL packet that passes its checks after the check of its slot. -/
theorem receiveColl_of_due {s u : State} {rx : Rx} (hcheck : rxCheck (slipCheck s rx) rx = (.pass, u))
    (hturn : turnOf (renewLoan u rx.pkt.srcNode) rx.pkt = .due)
    (hgo : needsMemory rx.pkt = false ∨ dieWaits (renewLoan u rx.pkt.srcNode) hubDie = false) : receiveColl s rx = dueServed u rx := by
  obtain ⟨htag, hcls, -, hform⟩ := rxFirst_true (rxFirst_of_pass hcheck)
  have hcls' : (keyOf s rx.pkt.keyIdx).cls = 2 := by
    rw [← hcls, keyOf_congr (congrArg (·.keyCtxs) (slipCheck_sp s rx))]
  simp [receiveColl, htag, hform, hcls', receiveRequest_of_due hcheck hturn hgo]

/-- Settles O33: a command's packet goes to `receiveRequest`, a COLL packet past the check of its slot; what passes and is due is
served. -/
theorem duePacketsExecuteAndAnswer : Obligations.DuePacketsExecuteAndAnswer := by
  unfold Obligations.DuePacketsExecuteAndAnswer
  intro rx u s hrec hturn
  refine ⟨fun hcheck hop hmem hdie => ?_, fun hcheck hgo => ?_, fun hcheck hop hgo => ?_⟩
  · change execStore rx s = _
    simp [execStore, hrec, opFits, hop, receiveRequest_of_waits hcheck hmem hdie]
  · have hdue := receiveRequest_of_due hcheck hturn hgo
    refine ⟨fun h => ?_, fun h => ?_, fun h => ?_, fun h => ?_, fun h h2 => ?_, fun h h2 => ?_, fun h h2 => ?_, fun h h2 => ?_⟩
    · change execStore rx s = _
      simp [execStore, hrec, opFits, h, hdue]
    · change execPut rx s = _
      simp [execPut, hrec, opFits, h, hdue]
    · change execLoad rx s = _
      simp [execLoad, hrec, opFits, h, hdue]
    · change execGet rx s = _
      simp [execGet, hrec, opFits, h, hdue]
    · change execFetchAdd rx s = _
      simp [execFetchAdd, hrec, subFits, h, h2, hdue]
    · change execCompareSwap rx s = _
      simp [execCompareSwap, hrec, subFits, h, h2, hdue]
    · change execLeaseAcquire rx s = _
      simp [execLeaseAcquire, hrec, subFits, h, h2, hdue]
    · change execLeaseRelease rx s = _
      simp [execLeaseRelease, hrec, subFits, h, h2, hdue]
  · have hdue := receiveColl_of_due hcheck hturn hgo
    refine ⟨fun h => ?_, fun h => ?_, fun h => ?_, fun h => ?_, fun h => ?_⟩
    · change execReduceData rx s = _
      simp [execReduceData, hrec, subFits, h, hop, hdue]
    · change execBcastData rx s = _
      simp [execBcastData, hrec, subFits, h, hop, hdue]
    · change execCredit rx s = _
      simp [execCredit, hrec, subFits, h, hop, hdue]
    · change execHold rx s = _
      simp [execHold, hrec, subFits, h, hop, hdue]
    · change execAbort rx s = _
      simp [execAbort, hrec, subFits, h, hop, hdue]

/-! ## What a request does at its window -/

section
variable {p : Packet} {w : Window} {s : State} (hwin : p.window ≠ 4095) (hw : windowOk s p = some w) (hacc : windowAccess s p w = .ok)
include hwin hw hacc

theorem runRequest_of_put (h : p.op = 1 ∨ p.op = 2) : runRequest s p = runPut s p w := by
  rcases h with h | h <;> simp [runRequest, runWindow, hwin, hw, hacc, h]

theorem runRequest_of_get (h : p.op = 3 ∨ p.op = 4) : runRequest s p = runGet s p w := by
  rcases h with h | h <;> simp [runRequest, runWindow, hwin, hw, hacc, h]

theorem runRequest_of_atomic (h : p.op = 5) : runRequest s p = runAtomic s p w := by
  simp [runRequest, runWindow, hwin, hw, hacc, h]

end

theorem runWord_of_keep {p : Packet} {w : Window} {n : Nat} {f : Bytes → Option Bytes × Bytes} {s u : State} {old r : Bytes}
    (halign : p.offset % n = 0) (hread : vread s w.context w.mkey (w.base + p.offset) n = (.ok, old, u)) (hf : f old = (none, r)) :
    runWord s p w n f = (.ok, r, u) := by
  simp [runWord, halign, hread, hf]

theorem runWord_of_write {p : Packet} {w : Window} {n : Nat} {f : Bytes → Option Bytes × Bytes} {s u v : State} {old b r : Bytes}
    (halign : p.offset % n = 0) (hread : vread s w.context w.mkey (w.base + p.offset) n = (.ok, old, u)) (hf : f old = (some b, r))
    (hwrite : vwrite u w.context w.mkey (w.base + p.offset) b false = (.ok, v)) :
    runWord s p w n f = (.ok, r, v) := by
  simp [runWord, halign, hread, hf, hwrite]

/-- A loan changes neither memory nor cores nor arrival counters. -/
theorem lendTo_keeps (s : State) (node : Nat) : (lendTo s node).2.mem = s.mem ∧ (lendTo s node).2.cores = s.cores ∧
    (lendTo s node).2.fab.arrivals = s.fab.arrivals := by
  refine ⟨?_, ?_, ?_⟩ <;> simp [lendTo, drawFree]

/-- The arrival counter of a window after a write through it. -/
def arrived (s : State) (p : Packet) (w : Window) : State :=
  if p.arrive && w.arr then
    match tlook s.fab.arrivals w.counter with
    | some a => { s with fab := { s.fab with arrivals := tins s.fab.arrivals w.counter { a with value := a.value + 1 } } }
    | none => s
  else s

theorem arrived_keeps (s : State) (p : Packet) (w : Window) : (arrived s p w).mem = s.mem ∧ (arrived s p w).cores = s.cores := by
  unfold arrived
  split
  · split <;> exact ⟨rfl, rfl⟩
  · exact ⟨rfl, rfl⟩

theorem runPut_of_write {p : Packet} {w : Window} {s u : State}
    (hwrite : vwrite s w.context w.mkey (w.base + p.offset) p.payload false = (.ok, u)) :
    ∃ b, runPut s p w = (.ok, b, (lendTo (arrived u p w) p.srcNode).2) := by
  simp only [runPut, hwrite]
  exact ⟨_, rfl⟩

/-- Settles O34: past the window checks each operation is its own function of the window's bytes. -/
theorem requestsActOnTheirWindow : Obligations.RequestsActOnTheirWindow := by
  unfold Obligations.RequestsActOnTheirWindow
  refine ⟨fun p w u s hwin hop hw hacc => ⟨fun hput hwrite => ?_, fun b hget hread => ?_, fun b hload hread => ?_,
    fun old v h5 hsub hlen halign hread hwrite => ?_, fun old v h5 hsub hlen halign hread => ⟨fun hne => ?_, fun heq hwrite => ?_⟩⟩,
    fun p s hwin hop hw => ?_⟩
  · obtain ⟨b, hb⟩ := runPut_of_write hwrite
    obtain ⟨hmem, hcores, harr⟩ := lendTo_keeps (arrived u p w) p.srcNode
    obtain ⟨hmem', hcores'⟩ := arrived_keeps u p w
    refine ⟨b, _, (runRequest_of_put hwin hw hacc hput).trans hb, hmem.trans hmem', hcores.trans hcores',
      fun a ha hwarr hlook => ?_, fun ha => ?_⟩
    · rw [harr]
      simp [arrived, ha, hwarr, hlook, tlook_tins_same]
    · rw [harr]
      simp [arrived, ha]
  · rw [runRequest_of_get hwin hw hacc (.inr hget)]
    simp [runGet, reqRange, hget, hread]
  · rw [runRequest_of_get hwin hw hacc (.inl hload)]
    simp [runGet, reqRange, hload, hread]
  · rw [runRequest_of_atomic hwin hw hacc h5]
    simp only [runAtomic, hsub, hlen, if_true]
    exact runWord_of_write halign hread rfl hwrite
  · rw [runRequest_of_atomic hwin hw hacc h5]
    simp only [runAtomic, hsub, hlen, if_true]
    exact runWord_of_keep halign hread (by simp [compareSwapWord, hne])
  · rw [runRequest_of_atomic hwin hw hacc h5]
    simp only [runAtomic, hsub, hlen, if_true]
    exact runWord_of_write halign hread (by simp [compareSwapWord, heq]) hwrite
  · simp [runRequest, hop, runWindow, hwin, hw]

/-! ## Fields of a byte string -/

theorem byteAt_append_left {a : Bytes} (b : Bytes) {i : Nat} (h : i < a.length) : byteAt (a ++ b) i = byteAt a i := by
  simp [byteAt, List.getD_eq_getElem?_getD, List.getElem?_append_left h]
theorem byteAt_append_right (a b : Bytes) (i : Nat) : byteAt (a ++ b) (a.length + i) = byteAt b i := by
  simp [byteAt, List.getD_eq_getElem?_getD, List.getElem?_append_right]

theorem slice_append_left {a : Bytes} (b : Bytes) {o n : Nat} (h : o + n ≤ a.length) : slice (a ++ b) o n = slice a o n :=
  List.map_congr_left fun i hi => byteAt_append_left b (by have := List.mem_range.1 hi; omega)
theorem slice_append_right (a b : Bytes) (o n : Nat) : slice (a ++ b) (a.length + o) n = slice b o n :=
  List.map_congr_left fun i _ => by rw [Nat.add_assoc, byteAt_append_right]

/-- A whole string is a slice of itself. -/
theorem slice_self (b : Bytes) : slice b 0 b.length = b := by
  refine List.ext_getElem (by simp [slice]) fun i h1 h2 => ?_
  simp [slice, byteAt, List.getElem?_eq_getElem h2]

theorem le_eq_leVal_slice (b : Bytes) (o n : Nat) : le b o n = leVal (slice b o n) := rfl

theorem le_append_left {a : Bytes} (b : Bytes) {o n : Nat} (h : o + n ≤ a.length) : le (a ++ b) o n = le a o n :=
  congrArg leVal (slice_append_left b h)
theorem le_append_right (a b : Bytes) (o n : Nat) : le (a ++ b) (a.length + o) n = le b o n :=
  congrArg leVal (slice_append_right a b o n)

/-- A number is read back from its field. -/
theorem le_leBytes (n v : Nat) : le (leBytes n v) 0 n = v % 256 ^ n := by
  have h := slice_self (leBytes n v)
  rw [leBytes_length] at h
  rw [le_eq_leVal_slice, h, leVal_leBytes]

/-! ## Leases -/

/-- The fields of a lease word (Table 10.6). -/
theorem leaseBytes_fields (expiry owner epoch : Nat) : (leaseBytes expiry owner epoch).length = 16 ∧
    le (leaseBytes expiry owner epoch) 0 8 = expiry % 2 ^ 64 ∧ le (leaseBytes expiry owner epoch) 8 2 = owner % 65536 ∧
    le (leaseBytes expiry owner epoch) 12 4 = epoch % 2 ^ 32 := by
  refine ⟨by simp [leaseBytes], ?_, ?_, ?_⟩
  · rw [leaseBytes, List.append_assoc, List.append_assoc, le_append_left _ (by simp), le_leBytes]; norm_num
  · have h := le_append_right (leBytes 8 expiry) (leBytes 2 owner ++ (leBytes 2 0 ++ leBytes 4 epoch)) 0 2
    rw [leBytes_length] at h
    rw [leaseBytes, List.append_assoc, List.append_assoc, h, le_append_left _ (by simp), le_leBytes]; norm_num
  · have h := le_append_right (leBytes 8 expiry ++ leBytes 2 owner ++ leBytes 2 0) (leBytes 4 epoch) 0 4
    rw [show (leBytes 8 expiry ++ leBytes 2 owner ++ leBytes 2 0).length = 12 by simp] at h
    rw [leaseBytes, h, le_leBytes]; norm_num

section
variable {now adm : Nat} {p : Packet} {old : Bytes}

theorem leaseAcquireWord_of_free (h : le old 0 8 = 0 ∨ le old 0 8 + 10000 ≤ now) : leaseAcquireWord now adm p old =
    (some (leaseBytes (now + le p.payload 0 4) p.srcNode p.epoch), leaseBytes (now + le p.payload 0 4) p.srcNode p.epoch) := by
  unfold leaseAcquireWord
  dsimp only
  rw [if_pos h]

theorem leaseAcquireWord_of_owner (h : ¬ (le old 0 8 = 0 ∨ le old 0 8 + 10000 ≤ now)) (hown : le old 8 2 = p.srcNode ∧ adm ≤ le old 12 4) :
    leaseAcquireWord now adm p old =
      (some (leBytes 8 (now + le p.payload 0 4) ++ slice old 8 8), leBytes 8 (now + le p.payload 0 4) ++ slice old 8 8) := by
  unfold leaseAcquireWord
  dsimp only
  rw [if_neg h, if_pos hown]

theorem leaseAcquireWord_of_other (h : ¬ (le old 0 8 = 0 ∨ le old 0 8 + 10000 ≤ now))
    (hown : ¬ (le old 8 2 = p.srcNode ∧ adm ≤ le old 12 4)) : leaseAcquireWord now adm p old = (none, old) := by
  unfold leaseAcquireWord
  dsimp only
  rw [if_neg h, if_neg hown]

end

/-- Settles O35: the words that an acquire and a release write, field by field; an acquire runs as its word says. -/
theorem leasesGoToFreeWordsAndOwners : Obligations.LeasesGoToFreeWordsAndOwners := by
  unfold Obligations.LeasesGoToFreeWordsAndOwners
  refine ⟨fun now adm p old hdur hlen => ⟨fun hfree => ?_, fun hne hlate how hadm => ?_, fun hne hlate hother => ?_, fun how hadm => ?_,
    fun hother => ?_⟩, fun p w old b r u v s hwin h5 hsub hw hacc hlen hlo hhi halign hread hword hwrite => ?_⟩
  · obtain ⟨hl, hexp, hown, hep⟩ := leaseBytes_fields (now + le p.payload 0 4) p.srcNode p.epoch
    exact ⟨_, leaseAcquireWord_of_free hfree, hl, fun hsmall => hexp.trans (Nat.mod_eq_of_lt hsmall), hown, hep⟩
  · refine ⟨_, leaseAcquireWord_of_owner (by omega) ⟨how, hadm⟩, fun hsmall => ?_, ?_⟩
    · rw [le_append_left _ (by simp), le_leBytes]
      exact Nat.mod_eq_of_lt (by norm_num; exact hsmall)
    · have h := slice_append_right (leBytes 8 (now + le p.payload 0 4)) (slice old 8 8) 0 8
      rw [leBytes_length] at h
      have hself := slice_self (slice old 8 8)
      rw [show (slice old 8 8).length = 8 by simp [slice]] at hself
      exact h.trans hself
  · exact leaseAcquireWord_of_other (by omega) (by omega)
  · exact if_pos ⟨how, hadm⟩
  · exact if_neg (by omega)
  · rw [runRequest_of_atomic hwin hw hacc h5]
    simp only [runAtomic, hsub]
    rw [if_pos ⟨hlen, hlo, hhi⟩]
    exact runWord_of_write halign hread hword hwrite

/-- What checks 1 to 3 turn away only passes its receive buffer. -/
theorem exec_store_of_dropped {s u : State} {rx : Rx} (hrec : receiving s rx = true) (hop : rx.pkt.op = 1)
    (h : rxFirst s rx = (false, u)) : exec (.store rx) s = .next (passBuffer u rx) := by
  change execStore rx s = _
  simp [execStore, hrec, opFits, hop, receiveRequest, rxCheck, h]

/-- Settles O36: the first check that fails drops the packet. -/
theorem badPacketsOnlyCount : Obligations.BadPacketsOnlyCount := by
  unfold Obligations.BadPacketsOnlyCount
  refine fun rx s hrec hop => ⟨fun htag => ?_, fun htag hkey => ?_, fun htag hcls hst hform => ?_,
    fun r hr hfind htag hcls hst hform hseen => ?_⟩ <;> refine exec_store_of_dropped hrec hop ?_
  · simp [rxFirst, htag]
  · simp only [rxFirst, htag, if_pos hkey]
    rfl
  · simp [rxFirst, htag, hcls, hst, hform]
  · have hrep : replayCheck s rx.pkt.srcNode rx.pkt.keyIdx rx.pkt.dir rx.pkt.ctr = (false, s) := by
      have hold : (decide (rx.pkt.ctr + 1024 < r.top) || r.seen.contains rx.pkt.ctr) = true := by simpa using hseen
      simp only [replayCheck, hfind, hold, if_true]
    simp [rxFirst, htag, hcls, hst, hform, hrep]

/-! ## Responses -/

theorem passBuffer_pending (s : State) (rx : Rx) : (passBuffer s rx).fab.pending = s.fab.pending :=
  passBuffer_fab_keeps (·.pending) (fun _ _ => rfl) s rx

/-- The counter check of a packet remembers its counter, in the Lath unit alone. -/
theorem rxFirst_sameButFabric {s u : State} {rx : Rx} (h : rxFirst s rx = (true, u)) : sameButFabric s u := by
  unfold rxFirst at h
  dsimp only at h
  split at h
  · cases h
  · split at h
    · cases h
    · split at h
      · cases h
      · split at h
        · next hrep =>
          cases h
          unfold replayCheck at hrep
          split at hrep
          · cases hrep; rfl
          · split at hrep
            · cases hrep
            · cases hrep; rfl
        · cases h

section
variable {s u : State} {rx : Rx} (hrec : receiving s rx = true) (hop : rx.pkt.op = 0x10) (hfirst : rxFirst s rx = (true, u))
include hrec hop hfirst

theorem exec_resp_of_waits (h : landingWaits u rx.pkt = true) : exec (.resp rx) s = .next (holdLink u rx) := by
  change execResp rx s = _
  simp [execResp, hrec, opFits, hop, hfirst, h]

theorem exec_resp_of_lands (h : landingWaits u rx.pkt = false) : exec (.resp rx) s = .next (fwProgress (deliver (passBuffer u rx) rx)) := by
  change execResp rx s = _
  simp [execResp, hrec, opFits, hop, hfirst, h]

end

theorem landingWaits_of_no_data {u : State} {p : Packet} (h : ∀ q, tlook u.fab.pending p.xid = some q → q.pkt.dstNode = p.srcNode → q.dest = []) :
    landingWaits u p = false := by
  unfold landingWaits
  cases hq : tlook u.fab.pending p.xid with
  | none => simp
  | some q =>
    by_cases hd : q.pkt.dstNode = p.srcNode
    · simp [h q hq hd]
    · simp [hd]

theorem deliver_of_stranger {s : State} {rx : Rx} (h : ∀ q, tlook s.fab.pending rx.pkt.xid = some q → q.pkt.dstNode ≠ rx.pkt.srcNode) :
    deliver s rx = modPort s rx.port (fun v => { v with dropResp := satAdd 32 v.dropResp 1 }) := by
  cases hq : tlook s.fab.pending rx.pkt.xid with
  | none => simp [deliver, hq]
  | some q => simp [deliver, hq, h q hq]

/-- Settles O37: a response under no pending identifier of its source is dropped; one that is pending is delivered as `deliver`
says, its data first. -/
theorem responsesReachOnlyTheirPendingRequest : Obligations.ResponsesReachOnlyTheirPendingRequest := by
  unfold Obligations.ResponsesReachOnlyTheirPendingRequest
  refine ⟨?stranger, ?waits, ?busy, ?answered, ?lands⟩
  case stranger =>
    intro rx u s hrec hop hfirst hnone
    refine ⟨?_, rxFirst_sameButFabric hfirst⟩
    rw [exec_resp_of_lands hrec hop hfirst (landingWaits_of_no_data fun q hq hd => absurd hd (hnone q hq)),
      deliver_of_stranger (by rwa [passBuffer_pending])]
  case waits => exact fun rx u s hrec hop hfirst h => exec_resp_of_waits hrec hop hfirst h
  case busy =>
    intro rx q u s hrec hop hfirst hq hdst hst hwait
    rw [exec_resp_of_lands hrec hop hfirst hwait]
    simp [deliver, passBuffer_pending, hq, hdst, hst]
  case answered =>
    intro rx q u s hrec hop hfirst hq hdst hst hdest hlen
    rw [exec_resp_of_lands hrec hop hfirst (landingWaits_of_no_data fun q' hq' _ => by rw [hq] at hq'; cases hq'; exact hdest)]
    have hif : (if statusOf rx.pkt.flowSeq = .ok then Status.ok else statusOf rx.pkt.flowSeq) = statusOf rx.pkt.flowSeq := by
      by_cases hok : statusOf rx.pkt.flowSeq = .ok <;> simp [hok]
    simp only [deliver, passBuffer_pending, hq, hdst, hst, hdest, hlen, ne_eq, not_true, if_false, and_false, false_and]
    cases hby : q.by' <;> simp only [hif]
  case lands =>
    intro rx q core tok st a u v s hrec hop hfirst hq hdst hst hby hqop hdest hlen hwait hland
    rw [exec_resp_of_lands hrec hop hfirst hwait]
    simp [deliver, passBuffer_pending, hq, hdst, hst, hby, hqop, hdest, hlen, hland]

/-! ## Directions of a link -/

@[simp] theorem linkDir_setLinkDir (s : State) (link dir : Nat) (v : D2dDir) : linkDir (setLinkDir s link dir v) link dir = v := by
  simp [linkDir, setLinkDir]
theorem linkDir_setLinkDir_ne (s : State) (link : Nat) {dir d : Nat} (v : D2dDir) (h : d ≠ dir) :
    linkDir (setLinkDir s link dir v) link d = linkDir s link d := by
  simp [linkDir, setLinkDir, tget_tput_ne _ _ _ _ _ h]
theorem d2dOf_setLinkDir_ne (s : State) {link l : Nat} (dir : Nat) (v : D2dDir) (h : l ≠ link) :
    d2dOf (setLinkDir s link dir v) l = d2dOf s l := d2dOf_setD2d_ne _ _ _ _ h
/-- Only the directions of the link are written. -/
theorem d2dOf_setLinkDir (s : State) (link dir : Nat) (v : D2dDir) :
    d2dOf (setLinkDir s link dir v) link = { d2dOf s link with dirs := tput {} (d2dOf s link).dirs dir v } := d2dOf_setD2d _ _ _

/-- What a change of a direction leaves alone of every link. -/
theorem d2dField_setLinkDir {β : Type} (g : D2d → β) (hg : ∀ v d, g { v with dirs := d } = g v) (l : Nat) (s : State) (link dir : Nat)
    (v : D2dDir) : g (d2dOf (setLinkDir s link dir v) l) = g (d2dOf s l) := by
  by_cases h : l = link
  · rw [h, d2dOf_setLinkDir, hg]
  · rw [d2dOf_setLinkDir_ne s dir v h]

/-- A change of one direction: of the module only that direction is another. -/
def LinkDirSet (s t : State) (link dir : Nat) (v : D2dDir) : Prop :=
  t = { s with fresh := t.fresh, fab := { s.fab with d2d := t.fab.d2d } } ∧ (∀ l, l ≠ link → d2dOf t l = d2dOf s l) ∧
    (∀ d, d ≠ dir → linkDir t link d = linkDir s link d) ∧ linkDir t link dir = v

theorem linkDirSet_setLinkDir (s : State) (f link dir : Nat) (v : D2dDir) :
    LinkDirSet s (setLinkDir { s with fresh := f } link dir v) link dir v :=
  ⟨rfl, fun _ h => d2dOf_setLinkDir_ne _ dir v h, fun _ h => linkDir_setLinkDir_ne _ link v h, linkDir_setLinkDir _ _ _ _⟩

/-! ## GCM -/

/-- The stream that enciphered a string deciphers it. -/
theorem xorBytes_xorBytes {a k : Bytes} (h : a.length = k.length) : xorBytes (xorBytes a k) k = a := by
  induction a generalizing k with
  | nil => rfl
  | cons x a ih =>
    cases k with
    | nil => simp at h
    | cons y k =>
      have hk : a.length = k.length := by simpa using h
      have hxor : x ^^^ y ^^^ y = x := by rw [BitVec.xor_assoc, BitVec.xor_self, BitVec.xor_zero]
      exact List.cons_eq_cons.2 ⟨hxor, ih hk⟩

theorem gcmStream_length (key : BitVec 256) (iv : Bytes) (n : Nat) : (gcmStream key iv n).length = n := by simp [gcmStream]

/-- What GCM seals, GCM opens (R228). -/
theorem gcm_roundtrip (key : BitVec 256) (iv aad plain : Bytes) : (gcm key iv aad plain).1.length = plain.length ∧
    (gcm key iv aad plain).2.length = 16 ∧ gcmOpen key iv aad (gcm key iv aad plain).1 (gcm key iv aad plain).2 = some plain := by
  have hlen : (xorBytes plain (gcmStream key iv plain.length)).length = plain.length := by simp [xorBytes, gcmStream_length]
  refine ⟨hlen, by simp [gcm, blockBytes], ?_⟩
  simp only [gcm, gcmOpen, if_true, hlen]
  rw [xorBytes_xorBytes (gcmStream_length ..).symm]

/-! ## Frames -/

/-- The direction after a frame has crossed under a phase and counter; `h` is its clear header. -/
def frameSent (s : State) (link dir phase ctr : Nat) (payload h : Bytes) : D2dDir :=
  let v := linkDir s link dir
  let x := gcm (slotKey (slotOf s (linkSlot link dir phase))) (d2dIv link dir phase ctr) h payload
  { v with phase := phase, ctr := tins v.ctr phase (ctr + 1), fresh := if bit v.fresh phase then v.fresh - 2 ^ phase else v.fresh,
           last := payload, wire := h ++ x.1 ++ x.2 }

theorem putFrame_eq (s : State) (link dir phase ctr : Nat) (payload : Bytes) : ∃ h : Bytes, h.length = 8 ∧
    putFrame s link dir phase ctr payload = setLinkDir { s with fresh := s.fresh + 1 } link dir (frameSent s link dir phase ctr payload h) :=
  ⟨leBytes 8 (drawFree s).1.toNat, leBytes_length _ _, rfl⟩

section
variable {s : State} {link dir : Nat} {b : Bytes} (hheld : (linkDir s link dir).heldAt = none)
  (hkey : bit (linkDir s link dir).keys (linkDir s link dir).phase = true)
include hheld hkey

theorem sendFrame_of_room (h : tget 0 (linkDir s link dir).ctr (linkDir s link dir).phase < 2 ^ 36) :
    sendFrame s link dir b = putFrame s link dir (linkDir s link dir).phase (tget 0 (linkDir s link dir).ctr (linkDir s link dir).phase) b := by
  unfold sendFrame
  dsimp only
  rw [if_neg (by simp [hheld]), if_neg (by simp [hkey]), if_pos h]

theorem sendFrame_of_switch (h : 2 ^ 36 ≤ tget 0 (linkDir s link dir).ctr (linkDir s link dir).phase)
    (hfresh : bit (linkDir s link dir).fresh (1 - (linkDir s link dir).phase) = true) :
    sendFrame s link dir b = putFrame s link dir (1 - (linkDir s link dir).phase) 0 b := by
  unfold sendFrame
  dsimp only
  rw [if_neg (by simp [hheld]), if_neg (by simp [hkey]), if_neg (Nat.not_lt.2 h), if_pos hfresh]

theorem sendFrame_of_hold (h : 2 ^ 36 ≤ tget 0 (linkDir s link dir).ctr (linkDir s link dir).phase)
    (hfresh : bit (linkDir s link dir).fresh (1 - (linkDir s link dir).phase) = false) :
    sendFrame s link dir b = setLinkDir s link dir
      { linkDir s link dir with heldAt := some s.ns, held := (linkDir s link dir).held ++ [b] } := by
  unfold sendFrame
  dsimp only
  rw [if_neg (by simp [hheld]), if_neg (by simp [hkey]), if_neg (Nat.not_lt.2 h), if_neg (by simp [hfresh])]

/-- A frame of a keyed link writes its direction alone. -/
theorem sendFrame_set : ∃ v, LinkDirSet s (sendFrame s link dir b) link dir v := by
  by_cases h : tget 0 (linkDir s link dir).ctr (linkDir s link dir).phase < 2 ^ 36
  · rw [sendFrame_of_room hheld hkey h]
    obtain ⟨hd, -, he⟩ := putFrame_eq s link dir (linkDir s link dir).phase (tget 0 (linkDir s link dir).ctr (linkDir s link dir).phase) b
    exact ⟨_, he ▸ linkDirSet_setLinkDir ..⟩
  · cases hfresh : bit (linkDir s link dir).fresh (1 - (linkDir s link dir).phase) with
    | true =>
      rw [sendFrame_of_switch hheld hkey (Nat.not_lt.1 h) hfresh]
      obtain ⟨hd, -, he⟩ := putFrame_eq s link dir (1 - (linkDir s link dir).phase) 0 b
      exact ⟨_, he ▸ linkDirSet_setLinkDir ..⟩
    | false =>
      rw [sendFrame_of_hold hheld hkey (Nat.not_lt.1 h) hfresh]
      exact ⟨_, linkDirSet_setLinkDir s s.fresh link dir _⟩

end

theorem sendFrame_keeps {β : Type} (π : State → β) (hfresh : ∀ s f, π { s with fresh := f } = π s)
    (hdir : ∀ s link dir v, π (setLinkDir s link dir v) = π s) (s : State) (link dir : Nat) (b : Bytes) :
    π (sendFrame s link dir b) = π s := by
  have hput : ∀ p c, π (putFrame s link dir p c b) = π s := fun p c => by
    obtain ⟨h, -, he⟩ := putFrame_eq s link dir p c b
    rw [he, hdir, hfresh]
  unfold sendFrame
  dsimp only
  split
  · exact hdir ..
  · split
    · rfl
    · split
      · exact hput ..
      · split
        · exact hput ..
        · exact hdir ..

theorem sendHeld_keeps {β : Type} (π : State → β) (hfresh : ∀ s f, π { s with fresh := f } = π s)
    (hdir : ∀ s link dir v, π (setLinkDir s link dir v) = π s) (s : State) (link dir : Nat) : π (sendHeld s link dir) = π s := by
  unfold sendHeld
  rw [foldl_keeps π (fun u b => sendFrame_keeps π hfresh hdir u link dir b), hdir]

/-! ## Retrains and keys -/

theorem retrainLink_spec (s : State) (link : Nat) : (d2dOf (retrainLink s link) link).state = .training ∧
    (d2dOf (retrainLink s link) link).replays = (d2dOf s link).replays ∧
    (d2dOf (retrainLink s link) link).retrains = satAdd 32 (d2dOf s link).retrains 1 ∧
    (retrainLink s link).mem = s.mem ∧ (retrainLink s link).sp = s.sp := by
  have hd : d2dOf (retrainLink s link) link = { d2dOf s link with
      state := .training, retrains := satAdd 32 (d2dOf s link).retrains 1,
      dirs := (d2dOf s link).dirs.map (fun (d : Nat × D2dDir) => (d.1, { d.2 with fails := 0 })) } := by
    unfold retrainLink
    dsimp only
    split <;> simp [d2dOf, setD2d, tget_tput_same]
  rw [hd]
  refine ⟨rfl, rfl, rfl, ?_, ?_⟩ <;> unfold retrainLink <;> dsimp only <;> split <;> simp

theorem slotOf_loadSlot (s : State) (slot cls : Nat) (key : BitVec 256) (part ses owner expiry limit : Nat) :
    (slotOf (loadSlot s slot cls key part ses owner expiry limit) slot).state = .loaded := by
  unfold loadSlot
  dsimp only
  split <;> simp

theorem loadSlot_fab (s : State) (slot cls : Nat) (key : BitVec 256) (part ses owner expiry limit : Nat) :
    (loadSlot s slot cls key part ses owner expiry limit).fab = s.fab := by
  unfold loadSlot
  dsimp only
  split <;> rfl

theorem bit_or_two_pow (v i : Nat) : bit (v ||| 2 ^ i) i = true := by
  rw [bit_eq, Nat.testBit_or, Nat.testBit_two_pow_self, Bool.or_true]

theorem keyPhase_spec (s : State) (link dir phase : Nat) :
    linkDir (keyPhase s link dir phase) link dir = { linkDir s link dir with
      keys := (linkDir s link dir).keys ||| 2 ^ phase, fresh := (linkDir s link dir).fresh ||| 2 ^ phase,
      ctr := tdel (linkDir s link dir).ctr phase } ∧
      (slotOf (keyPhase s link dir phase) (linkSlot link dir phase)).state = .loaded ∧ (keyPhase s link dir phase).mem = s.mem := by
  have hdir : linkDir (loadSlot (draw s).2 (linkSlot link dir phase) 6 ((draw s).1.truncate 256) 0 0 0 0 (2 ^ 48 - 1)) link dir =
      linkDir s link dir := by
    unfold linkDir d2dOf
    rw [loadSlot_fab]
    rfl
  unfold keyPhase
  dsimp only
  rw [hdir]
  refine ⟨linkDir_setLinkDir .., ?_, ?_⟩
  · exact slotOf_loadSlot (draw s).2 (linkSlot link dir phase) 6 ((draw s).1.truncate 256) 0 0 0 0 (2 ^ 48 - 1)
  · exact loadSlot_mem (draw s).2 (linkSlot link dir phase) 6 ((draw s).1.truncate 256) 0 0 0 0 (2 ^ 48 - 1)

/-- The state after a frame has failed its tag: the failure is counted, and the last frame goes again. -/
def frameResent (s : State) (link dir : Nat) : State :=
  let v := linkDir s link dir
  let s := setLinkDir s link dir { v with fails := v.fails + 1 }
  let s := setD2d s link { d2dOf s link with replays := satAdd 32 (d2dOf s link).replays 1 }
  let s := if link < 4 then { s with regs := { s.regs with hubReplay := satAdd 32 s.regs.hubReplay 1 } } else s
  sendFrame { s with pow := { s.pow with linkExc := satAdd 16 s.pow.linkExc 1 } } link dir v.last

theorem frameResent_spec (s : State) (link dir : Nat) :
    (d2dOf (frameResent s link dir) link).replays = satAdd 32 (d2dOf s link).replays 1 ∧
    (d2dOf (frameResent s link dir) link).retrains = (d2dOf s link).retrains ∧ (frameResent s link dir).mem = s.mem ∧
    (frameResent s link dir).sp = s.sp := by
  unfold frameResent
  dsimp only
  rw [sendFrame_keeps (fun s => (d2dOf s link).replays) (fun _ _ => rfl) (d2dField_setLinkDir _ (fun _ _ => rfl) link),
    sendFrame_keeps (fun s => (d2dOf s link).retrains) (fun _ _ => rfl) (d2dField_setLinkDir _ (fun _ _ => rfl) link),
    sendFrame_keeps State.mem (fun _ _ => rfl) (fun _ _ _ _ => rfl), sendFrame_keeps State.sp (fun _ _ => rfl) (fun _ _ _ _ => rfl)]
  split <;> simp [d2dOf, setD2d, setLinkDir, tget_tput_same]

theorem dropLink_spec (s : State) (link : Nat) : (d2dOf (dropLink s link) link).state = .down ∧
    ∀ l, l ≠ link → d2dOf (dropLink s link) l = d2dOf s l :=
  ⟨congrArg (·.state) (d2dOf_setD2d s link _), fun l h => d2dOf_setD2d_ne s l link _ h⟩

/-- The state from which a trained link lets go what waited for it. -/
def linkTrained (s : State) (link : Nat) : State :=
  [0, 1].foldl (fun s d => if (linkDir s link d).heldAt.isSome then s else sendHeld s link d)
    (setD2d s link { d2dOf s link with state := .up, trains := 0 })

theorem linkTrained_keeps {β : Type} (π : State → β) (hfresh : ∀ s f, π { s with fresh := f } = π s)
    (hdir : ∀ s link dir v, π (setLinkDir s link dir v) = π s) (s : State) (link : Nat) :
    π (linkTrained s link) = π (setD2d s link { d2dOf s link with state := .up, trains := 0 }) := by
  unfold linkTrained
  refine foldl_keeps π (fun u d => ?_) _ _
  split
  · rfl
  · exact sendHeld_keeps π hfresh hdir u link d

/-- Settles O31: a frame writes the direction that it crosses; a failed one is sent again and the eighth retrains; keys, holds and
trainings by the laws above. -/
theorem dieToDieLinksKeyAndRetrain : Obligations.DieToDieLinksKeyAndRetrain := by
  unfold Obligations.DieToDieLinksKeyAndRetrain
  refine ⟨?send, ?held, gcm_roundtrip, ?good, ?eighth, ?key, ?timeout, ?training⟩
  case send =>
    intro link dir b s hlink hdir hlen hup hheld hkey v
    have hexec : exec (.d2dFrameSend link dir b) s = .next (sendFrame s link dir b) := by
      change execD2dFrameSend link dir b s = _
      simp [execD2dFrameSend, Nat.not_le.2 hlink, Nat.not_le.2 hdir, Nat.not_lt.2 hlen, hup]
    obtain ⟨-, hframe, hlinks, hdirs, -⟩ := sendFrame_set (b := b) hheld hkey
    refine ⟨_, hexec, hframe, hlinks, hdirs, fun hroom => ?_, fun hfull hfresh => ?_, fun hfull hfresh => ?_⟩
    · rw [sendFrame_of_room hheld hkey hroom]
      obtain ⟨hd, hd8, he⟩ := putFrame_eq s link dir v.phase (tget 0 v.ctr v.phase) b
      rw [he, linkDir_setLinkDir]
      exact ⟨rfl, by simp [frameSent, tget, tlook_tins_same], hd, hd8, rfl⟩
    · rw [sendFrame_of_switch hheld hkey hfull hfresh]
      obtain ⟨hd, -, he⟩ := putFrame_eq s link dir (1 - v.phase) 0 b
      rw [he, linkDir_setLinkDir]
      exact ⟨rfl, by simp [frameSent, tget, tlook_tins_same]⟩
    · rw [sendFrame_of_hold hheld hkey hfull hfresh, linkDir_setLinkDir]
      exact ⟨rfl, rfl⟩
  case held =>
    intro link dir b s hlink hdir hlen hwait
    refine ⟨setLinkDir s link dir { linkDir s link dir with held := (linkDir s link dir).held ++ [b] }, ?_, rfl, linkDir_setLinkDir ..⟩
    change execD2dFrameSend link dir b s = _
    rcases hwait with hst | ⟨hst, hheld⟩
    · simp [execD2dFrameSend, Nat.not_le.2 hlink, Nat.not_le.2 hdir, Nat.not_lt.2 hlen, hst]
    · simp [execD2dFrameSend, Nat.not_le.2 hlink, Nat.not_le.2 hdir, Nat.not_lt.2 hlen, hst, sendFrame, hheld]
  case good =>
    intro link dir s hlink hdir hup
    refine ⟨setLinkDir s link dir { linkDir s link dir with fails := 0 }, ?_, rfl, linkDir_setLinkDir ..⟩
    change execD2dFrameReceive link dir true s = _
    simp [execD2dFrameReceive, Nat.not_le.2 hlink, Nat.not_le.2 hdir, hup]
  case eighth =>
    intro link dir s hlink hdir hup hfails
    have hexec : exec (.d2dFrameReceive link dir false) s = .next (retrainLink (frameResent s link dir) link) := by
      change execD2dFrameReceive link dir false s = _
      simp [execD2dFrameReceive, Nat.not_le.2 hlink, Nat.not_le.2 hdir, hup, hfails, frameResent]
    obtain ⟨hst, hrep, hret, hmem, hsp⟩ := retrainLink_spec (frameResent s link dir) link
    obtain ⟨hrep', hret', hmem', hsp'⟩ := frameResent_spec s link dir
    exact ⟨_, hexec, hst, hrep.trans hrep', hret.trans (by rw [hret']), hmem.trans hmem', by rw [hsp, hsp']⟩
  case key =>
    intro link dir s hlink hdir hdrbg hphase hkey hidle hheld
    have hexec : exec (.linkKeyInstall link dir) s = .next (keyPhase s link dir (1 - (linkDir s link dir).phase)) := by
      change execLinkKeyInstall link dir s = _
      simp [execLinkKeyInstall, Nat.not_le.2 hlink, Nat.not_le.2 hdir, hdrbg, hkey, hidle, hheld]
    obtain ⟨hv, hslot, hmem⟩ := keyPhase_spec s link dir (1 - (linkDir s link dir).phase)
    refine ⟨_, hexec, ?_, ?_, ?_, hslot, hmem⟩ <;> rw [hv]
    · exact bit_or_two_pow ..
    · simp [tget]
  case timeout =>
    intro link dir t0 s hheld hdue
    refine ⟨?_, dropLink_spec s link⟩
    change execLinkKeyTimeout link dir s = _
    simp [execLinkKeyTimeout, hheld, hdue]
  case training =>
    intro link s htrain
    refine ⟨⟨linkTrained s link, ?_, ?_, ?_, ?_, ?_⟩, fun h2 => ?_, fun h2 => ?_⟩
    · change execD2dLinkTrainingComplete link true s = _
      simp [execD2dLinkTrainingComplete, htrain, linkTrained]
    · rw [linkTrained_keeps (fun s => (d2dOf s link).state) (fun _ _ => rfl) (d2dField_setLinkDir _ (fun _ _ => rfl) link), d2dOf_setD2d]
    · rw [linkTrained_keeps (fun s => (d2dOf s link).trains) (fun _ _ => rfl) (d2dField_setLinkDir _ (fun _ _ => rfl) link), d2dOf_setD2d]
    · exact linkTrained_keeps State.mem (fun _ _ => rfl) (fun _ _ _ _ => rfl) s link
    · exact linkTrained_keeps (·.sp.slots) (fun _ _ => rfl) (fun _ _ _ _ => rfl) s link
    · change execD2dLinkTrainingComplete link false s = _
      simp [execD2dLinkTrainingComplete, htrain, h2]
    · change execD2dLinkTrainingComplete link false s = _
      simp [execD2dLinkTrainingComplete, htrain, Nat.not_le.2 h2]

/-! ## Ports -/

theorem portOf_congr {s t : State} (h : t.fab = s.fab) (p : Nat) : portOf t p = portOf s p := by rw [portOf, portOf, h]

@[simp] theorem portOf_modPort (s : State) (p : Nat) (f : Port → Port) : portOf (modPort s p f) p = f (portOf s p) := portOf_setPort _ _ _
theorem portOf_modPort_ne (s : State) {p q : Nat} (f : Port → Port) (h : q ≠ p) : portOf (modPort s p f) q = portOf s q :=
  portOf_setPort_ne _ _ _ _ h

/-- A port in another state, with everything else of it, the other ports and memory as they were. -/
theorem movePort_spec {s : State} {p : Nat} {st : PState} (h : (portOf s p).state ≠ st) :
    portOf (movePort s p st) p = { portOf s p with state := st } ∧ (∀ q, q ≠ p → portOf (movePort s p st) q = portOf s q) ∧
      (movePort s p st).mem = s.mem := by
  have hfab : (movePort s p st).fab = (modPort s p (fun v => { v with state := st })).fab := by
    unfold movePort
    rw [if_neg h]
    dsimp only
    rw [levelEvent_fab, pulseEvent_fab]
    split <;> rfl
  refine ⟨(portOf_congr hfab p).trans (portOf_modPort _ _ _), fun q hq => (portOf_congr hfab q).trans (portOf_modPort_ne _ _ hq), ?_⟩
  unfold movePort
  rw [if_neg h]
  dsimp only
  rw [levelEvent_mem, pulseEvent_mem]
  split <;> rfl

/-! ## Transmission -/

section
variable {β : Type} (g : Port → β) (hg : ∀ v waiting retry txSeq owed credits deficit turn,
  g { v with waiting := waiting, retry := retry, txSeq := txSeq, owed := owed, credits := credits, deficit := deficit, turn := turn } = g v)
include hg

theorem roundRobin_keeps (n : Nat) (v : Port) : g (roundRobin n v).2 = g v := by
  have hturn : ∀ u : Port, g (nextTurn u) = g u := fun u => hg u u.waiting u.retry u.txSeq u.owed u.credits _ _
  have hdef : ∀ (u : Port) d, g { u with deficit := d } = g u := fun u d => hg u u.waiting u.retry u.txSeq u.owed u.credits d u.turn
  induction n generalizing v with
  | zero => rfl
  | succ n ih =>
    unfold roundRobin
    split
    · rw [ih, hturn, hdef]
    · dsimp only
      split
      · exact hdef ..
      · rw [ih, hturn]

theorem arbitrate_keeps (w : Bool) (v : Port) : g (arbitrate w v).2 = g v := by
  unfold arbitrate
  split
  · rfl
  · split
    · exact roundRobin_keeps g hg 12 v
    · rfl

/-- What a port sends leaves all of it alone but its frames, its credits and the state of its arbitration. -/
theorem transmit_keeps (w : Bool) (n : Nat) (v : Port) : g (transmit w n v) = g v := by
  induction n generalizing v with
  | zero => rfl
  | succ n ih =>
    have harb := arbitrate_keeps g hg w v
    unfold transmit
    split
    · next h => rw [h] at harb; exact harb
    · next h =>
      rw [h] at harb
      rw [ih, ← harb]
      exact hg _ _ _ _ _ _ _ _

theorem pumpPort_keeps (s : State) (port : Nat) : g (portOf (pumpPort s port) port) = g (portOf s port) := by
  unfold pumpPort
  split
  · rw [portOf_modPort]; exact transmit_keeps g hg ..
  · rfl

end

theorem portOf_pumpPort_ne (s : State) {port p : Nat} (h : p ≠ port) : portOf (pumpPort s port) p = portOf s p := by
  unfold pumpPort
  split
  · exact portOf_modPort_ne _ _ h
  · rfl
theorem pumpPort_mem (s : State) (port : Nat) : (pumpPort s port).mem = s.mem := by
  unfold pumpPort
  split <;> rfl

theorem portOf_replayAll (s : State) (port : Nat) : portOf (replayAll s port) port = { portOf s port with
    replay := satAdd 32 (portOf s port).replay (portOf s port).retry.length,
    retry := (portOf s port).retry.map (fun f => { f with replays := f.replays + 1 }) } := by
  have h : ∀ u r, portOf { u with pow := r } port = portOf u port := fun _ _ => rfl
  rw [replayAll, h, portOf_modPort]
theorem replayAll_mem (s : State) (port : Nat) : (replayAll s port).mem = s.mem := rfl
theorem modPort_mem (s : State) (p : Nat) (f : Port → Port) : (modPort s p f).mem = s.mem := rfl
theorem portOf_replayAll_ne (s : State) {port p : Nat} (h : p ≠ port) : portOf (replayAll s port) p = portOf s p := by
  have hpow : ∀ u r, portOf { u with pow := r } p = portOf u p := fun _ _ => rfl
  rw [replayAll, hpow, portOf_modPort_ne _ _ h]

/-- A port after a frame's checks (R238). -/
def frameChecked (seq : Nat) (fecOk fecFixed crcOk tagOk : Bool) (v : Port) : Port :=
  if !fecOk then { v with fecUncorr := satAdd 32 v.fecUncorr 1, naks := v.naks + 1 }
  else
    let v := if fecFixed then { v with fecCorr := satAdd 32 v.fecCorr 1 } else v
    if !crcOk then { v with crc := satAdd 32 v.crc 1, naks := v.naks + 1 }
    else if !tagOk then { v with gcm := satAdd 32 v.gcm 1, naks := v.naks + 1 }
    else if seq = v.rxSeq then { v with rxSeq := (v.rxSeq + 1) % 4096 } else v

theorem exec_linkFrameReceive {s : State} {port : Nat} (seq : Nat) (fecOk fecFixed crcOk tagOk : Bool) (hup : (portOf s port).state = .up) :
    exec (.linkFrameReceive port seq fecOk fecFixed crcOk tagOk) s = .next (if fecOk && crcOk && tagOk
      then modPort s port (frameChecked seq fecOk fecFixed crcOk tagOk)
      else countLinkExc (modPort s port (frameChecked seq fecOk fecFixed crcOk tagOk))) := by
  change execLinkFrameReceive port seq fecOk fecFixed crcOk tagOk s = _
  unfold execLinkFrameReceive
  rw [if_neg (not_not.2 hup)]
  rfl

/-- A frame of the retry buffer goes again. -/
def frameReplayed (s : State) (port seq : Nat) : State :=
  countLinkExc (modPort s port (fun v => { v with
    replay := satAdd 32 v.replay 1, retry := v.retry.map (fun g => if g.seq = seq then { g with replays := g.replays + 1 } else g) }))

theorem frameReplayed_spec (s : State) (port seq : Nat) : (portOf (frameReplayed s port seq) port).state = (portOf s port).state ∧
    (portOf (frameReplayed s port seq) port).replay = satAdd 32 (portOf s port).replay 1 ∧ (frameReplayed s port seq).mem = s.mem ∧
    ∀ p, p ≠ port → portOf (frameReplayed s port seq) p = portOf s p := by
  have hport : ∀ u p, portOf (countLinkExc u) p = portOf u p := fun _ _ => rfl
  refine ⟨?_, ?_, rfl, fun p hp => ?_⟩
  · rw [frameReplayed, hport, portOf_modPort]
  · rw [frameReplayed, hport, portOf_modPort]
  · rw [frameReplayed, hport, portOf_modPort_ne _ _ hp]

theorem retrainPort_spec {s : State} {p : Nat} (h : (portOf s p).state ≠ .training) : (portOf (retrainPort s p) p).state = .training ∧
    (portOf (retrainPort s p) p).replay = (portOf s p).replay ∧ (retrainPort s p).mem = s.mem ∧
    ∀ q, q ≠ p → portOf (retrainPort s p) q = portOf s q := by
  have hne : (portOf (modPort s p (fun v => { v with retrain := satAdd 32 v.retrain 1, retry := v.retry.map (fun f => { f with replays := 0 }) }))
      p).state ≠ .training := by rw [portOf_modPort]; exact h
  obtain ⟨hport, hother, hmem⟩ := movePort_spec hne
  have hmon : ∀ u q, portOf (countMonitor u 3) q = portOf u q := fun u => portOf_congr (countMonitor_fab ..)
  refine ⟨?_, ?_, ?_, fun q hq => ?_⟩ <;> unfold retrainPort <;> dsimp only
  · rw [hmon, hport]
  · rw [hmon, hport, portOf_modPort]
  · rw [countMonitor_mem, hmem, modPort_mem]
  · rw [hmon, hother q hq, portOf_modPort_ne _ _ hq]

/-! ## Acknowledgements and arbitration -/

/-- Credits that return, channel by channel. -/
theorem credits_returned (credits : List Nat) (t : Tab Nat) {n vc : Nat} (h : vc < n) :
    tget 0 ((List.range n).foldl (fun (t : Tab Nat) vc => tput 0 t vc (tget 0 t vc - nth credits vc)) t) vc =
      tget 0 t vc - nth credits vc := by
  have hout : ∀ m k, m ≤ k → tget 0 ((List.range m).foldl (fun (t : Tab Nat) vc => tput 0 t vc (tget 0 t vc - nth credits vc)) t) k = tget 0 t k := by
    intro m k hk
    induction m with
    | zero => rfl
    | succ m ih =>
      rw [List.range_succ, List.foldl_append, List.foldl_cons, List.foldl_nil, tget_tput_ne _ _ _ _ _ (by omega), ih (by omega)]
  induction n with
  | zero => omega
  | succ n ih =>
    rw [List.range_succ, List.foldl_append, List.foldl_cons, List.foldl_nil]
    by_cases hvc : vc = n
    · subst hvc
      rw [tget_tput_same, hout vc vc (Nat.le_refl _)]
    · rw [tget_tput_ne _ _ _ _ _ hvc, ih (by omega)]

/-- The first frame of a sequence number. -/
theorem findIdx_of_first {l : List Frame} {i : Nat} {f : Frame} (h : l[i]? = some f)
    (hfirst : ∀ j < i, (l[j]?).map (·.seq) ≠ some f.seq) : l.findIdx? (fun g => g.seq == f.seq) = some i := by
  obtain ⟨hi, hf⟩ := List.getElem?_eq_some_iff.1 h
  refine List.findIdx?_eq_some_iff_getElem.2 ⟨hi, by simp [hf], fun j hj => ?_⟩
  have hne := hfirst j hj
  rw [List.getElem?_eq_getElem (by omega)] at hne
  simpa using hne

theorem arbitrate_first {w : Bool} {v : Port} {f : Frame} (h : ([4, 3] ++ (if w then [2] else [])).findSome? (headOf v) = some f) :
    arbitrate w v = (some f, v) := by simp only [arbitrate, h]

/-- Settles O32: the port's state machine, the replay of its frames, the return of its credits, and strict priority. -/
theorem lathPortsTrainReplayAndAcknowledge : Obligations.LathPortsTrainReplayAndAcknowledge := by
  unfold Obligations.LathPortsTrainReplayAndAcknowledge
  refine ⟨?trained, ?failed, ?good, ?crc, ?nak, ?ack, ?order, ?sealed⟩
  case trained =>
    intro port s htrain
    have hexec : exec (.portTrainingComplete port true) s = .next (pumpEverything (pumpPort
        (replayAll (movePort (modPort s port (fun v => { v with fails := 0 })) port .up) port) port)) := by
      change execPortTrainingComplete port true s = _
      simp [execPortTrainingComplete, htrain]
    have hne : (portOf (modPort s port (fun v => { v with fails := 0 })) port).state ≠ .up := by simp [htrain]
    obtain ⟨hport, hother, hmem⟩ := movePort_spec hne
    refine ⟨_, hexec, ?_, ?_, ?_, ?_, fun p hp => ?_⟩
    · rw [pumpPort_keeps (·.state) (fun _ _ _ _ _ _ _ _ => rfl), portOf_replayAll, hport]
    · rw [pumpPort_keeps (·.fails) (fun _ _ _ _ _ _ _ _ => rfl), portOf_replayAll, hport, portOf_modPort]
    · rw [pumpPort_keeps (·.replay) (fun _ _ _ _ _ _ _ _ => rfl), portOf_replayAll, hport, portOf_modPort]
    · rw [pumpPort_mem, replayAll_mem, hmem, modPort_mem]
    · rw [portOf_pumpPort_ne _ hp, portOf_replayAll_ne _ hp, hother p hp, portOf_modPort_ne _ _ hp]
  case failed =>
    intro port s htrain hfails
    have hexec : exec (.portTrainingComplete port false) s = .next (countMonitor (clearPort
        (movePort (modPort s port (fun v => { v with fails := 3 })) port .failed) port) 4) := by
      change execPortTrainingComplete port false s = _
      simp [execPortTrainingComplete, htrain, hfails]
    have hne : (portOf (modPort s port (fun v => { v with fails := 3 })) port).state ≠ .failed := by simp [htrain]
    obtain ⟨hport, hother, hmem⟩ := movePort_spec hne
    have hclear : ∀ p, portOf (countMonitor (clearPort (movePort (modPort s port (fun v => { v with fails := 3 })) port .failed) port) 4) p =
        portOf (clearPort (movePort (modPort s port (fun v => { v with fails := 3 })) port .failed) port) p := portOf_congr (countMonitor_fab ..)
    refine ⟨_, hexec, ?_, ?_, ?_, fun p hp => ?_⟩
    · rw [hclear, clearPort, portOf_modPort, hport]
    · rw [hclear, clearPort, portOf_modPort]
    · rw [countMonitor_mem, clearPort, modPort_mem, hmem, modPort_mem]
    · rw [hclear, clearPort, portOf_modPort_ne _ _ hp, hother p hp, portOf_modPort_ne _ _ hp]
  case good =>
    intro port fixed s hup
    refine ⟨_, exec_linkFrameReceive (portOf s port).rxSeq true fixed true true hup, rfl, fun p hp => portOf_modPort_ne _ _ hp, ?_⟩
    simp only [Bool.and_self, if_true, portOf_modPort]
    cases fixed <;> simp [frameChecked]
  case crc =>
    intro port seq tag s hup
    refine ⟨_, exec_linkFrameReceive seq true false false tag hup, ?_, rfl, rfl⟩
    exact portOf_modPort s port _
  case nak =>
    intro port seq f s hup hfind
    have hexec : exec (.linkNakReceive port seq) s = .next (if 8 ≤ f.replays + 1 then retrainPort (frameReplayed s port seq) port
        else frameReplayed s port seq) := by
      change execLinkNakReceive port seq s = _
      unfold execLinkNakReceive
      dsimp only
      rw [if_neg (not_not.2 hup), hfind]
      exact (apply_ite Host.Outcome.next _ _ _).symm
    obtain ⟨hst, hrep, hmem, hother⟩ := frameReplayed_spec s port seq
    refine ⟨_, hexec, ?_⟩
    by_cases h8 : 8 ≤ f.replays + 1
    · rw [if_pos h8, if_neg (by omega)]
      obtain ⟨hst', hrep', hmem', hother'⟩ := retrainPort_spec (s := frameReplayed s port seq) (p := port) (by rw [hst, hup]; decide)
      exact ⟨hrep'.trans hrep, hst', hmem'.trans hmem, fun p hp => (hother' p hp).trans (hother p hp)⟩
    · rw [if_neg h8, if_pos (by omega)]
      exact ⟨hrep, hst.trans hup, hmem, hother⟩
  case ack =>
    intro port i f credits s hup hget hfirst
    have hexec : exec (.linkAckReceive port f.seq credits) s = .next (pumpPort (setPort s port { portOf s port with
        retry := (portOf s port).retry.drop (i + 1)
        credits := (List.range 5).foldl (fun (t : Tab Nat) vc => tput 0 t vc (tget 0 t vc - nth credits vc)) (portOf s port).credits }) port) := by
      change execLinkAckReceive port f.seq credits s = _
      unfold execLinkAckReceive
      dsimp only
      rw [if_neg (not_not.2 hup), findIdx_of_first hget hfirst]
    refine ⟨_, hexec, ?_, fun vc hvc => ?_, ?_, rfl, fun p hp => portOf_setPort_ne _ _ _ _ hp⟩
    · rw [portOf_setPort]
    · rw [portOf_setPort]; exact credits_returned _ _ hvc
    · rw [portOf_setPort]
  case order =>
    intro w v f
    refine ⟨fun h4 => arbitrate_first ?_, fun h4 h3 => arbitrate_first ?_, fun h4 h3 h2 => arbitrate_first ?_, fun hnone => ?_⟩
    · simp [h4]
    · simp [h4, h3]
    · simp [h4, h3, h2]
    · have h := fun vc hvc => hnone vc hvc
      cases w <;> simp [arbitrate, h 4 (by omega), h 3 (by omega), h 2 (by omega), h 1 (by omega), h 0 (by omega)]
  case sealed =>
    intro port p s hdown
    refine ⟨?_, (gcm_roundtrip ..).2.2⟩
    have hdown' : portUp (modPort s port (fun v => { v with waiting := v.waiting ++ [sealPacket s p] })) port = false := by
      rw [← hdown]; simp only [portUp, portOf_modPort]; rfl
    simp [sendOn, pumpPort, hdown']

end Sys2Proof.Machine
end

section
/-! SUPPORT. The domain: timers, Plumb time, PPS and lanes, epochs and membership (chapter 10). -/

namespace Sys2Proof.Machine
open Sys2Proof

/-! ### O38: the timers of Lath -/

/-- A zeroized key context is free, and no other context, byte of memory or replay state goes with it. -/
theorem zeroizeKey_spec (s : State) (key : Nat) : (keyOf (zeroizeKey s key) key).state = .free ∧ (zeroizeKey s key).mem = s.mem ∧
    (zeroizeKey s key).fab = s.fab ∧ ∀ k, k ≠ key → keyOf (zeroizeKey s key) k = keyOf s k := by
  unfold zeroizeKey
  dsimp only
  split
  next hfree => exact ⟨hfree, rfl, rfl, fun _ _ => rfl⟩
  next =>
    refine ⟨?_, ?_, ?_, fun k hk => ?_⟩
    · rw [keyOf_setKey]
      split <;> rfl
    · rw [setKey_mem]
      split <;> rfl
    · rw [setKey_fab]
      split <;> rfl
    · rw [keyOf_setKey_ne _ _ _ _ hk]
      split <;> rfl

/-- An unanswered request toward a member is sent again. -/
theorem sendAgain_of_member {s : State} {xid : Nat} {q : Pending} (tries : Nat) (hq : tlook s.fab.pending xid = some q)
    (hm : (nodeOf s q.pkt.dstNode).member = true) : sendAgain s xid tries = resend s xid tries := by
  simp [sendAgain, hq, hm]
/-- One toward a node that has left the domain ends with STALE_EPOCH (R271). -/
theorem sendAgain_of_departed {s : State} {xid : Nat} {q : Pending} (tries : Nat) (hq : tlook s.fab.pending xid = some q)
    (hm : (nodeOf s q.pkt.dstNode).member = false) : sendAgain s xid tries = answerRequest s xid .staleEpoch := by
  simp [sendAgain, hq, hm]

/-- Settles O38: `execRespTimeout` by membership and number of tries; the record, loan and hold timers are their definitions; the
old Lath index by `zeroizeKey_spec`. -/
theorem lathTimersRetryForgetAndReclaim : Obligations.LathTimersRetryForgetAndReclaim := by
  refine ⟨fun node xid q s hq hnode hdust hdue => ⟨fun hm htries => ?_, fun hm htries => ?_, fun hm => ?_⟩, fun node xid s => ?_,
    fun node xid h s hh => ?_, fun node l s hl hexp => ?_, fun key at' s hret hdue => ?_⟩
  · have hagain : sendAgain (countLinkExc s) xid (q.tries + 1) = resend (countLinkExc s) xid (q.tries + 1) :=
      sendAgain_of_member (s := countLinkExc s) _ hq (hnode ▸ hm)
    change execRespTimeout node xid s = _
    simp [execRespTimeout, hq, hnode, hdust, hm, htries, Nat.not_lt.2 hdue, hagain]
  · change execRespTimeout node xid s = _
    simp [execRespTimeout, hq, hnode, hdust, hm, Nat.not_lt.2 htries, Nat.not_lt.2 hdue]
  · change execRespTimeout node xid s = _
    simp [execRespTimeout, hq, hnode, hdust, hm, Nat.not_lt.2 hdue, sendAgain_of_departed _ hq (hnode ▸ hm)]
  · refine ⟨_, rfl, by simp, by simp, by simp, fun r => ?_⟩
    simp only [setLevel_fab, List.mem_filter]
    refine and_congr_right fun _ => ?_
    simp [imp_iff_not_or, or_assoc]
  · change execEpochHoldTimeout node xid s = _
    simp [execEpochHoldTimeout, hh]
  · have hexec : exec (.loanReclaim node) s = execLoanReclaim node s := rfl
    simp only [execLoanReclaim, hl] at hexec
    rw [if_neg (Nat.not_lt.2 hexp)] at hexec
    exact ⟨_, hexec, setLevel_fab .., setLevel_mem .., congrArg (·.keyCtxs) (setLevel_sp ..)⟩
  · obtain ⟨hstate, hmem, -, hkeys⟩ := zeroizeKey_spec s key
    refine ⟨clearReplay (zeroizeKey s key) key, ?_, fun h => (KState.noConfusion (hstate.symm.trans h)), congrArg (·.bytes) hmem, fun r hr => ?_, hkeys⟩
    · change execLathKeyRetire key s = _
      simp [execLathKeyRetire, hret, Nat.not_lt.2 hdue]
    · have hr := (List.mem_filter.1 hr).2
      simpa using hr

/-! ### O39: Plumb time follows the parent -/

theorem passBuffer_mem (s : State) (rx : Rx) : (passBuffer s rx).mem = s.mem := by
  have hin : (bufferIn s rx.port rx.pkt).mem = s.mem := by
    unfold bufferIn
    split
    · exact setLevel_mem ..
    · rfl
  have hout : ∀ u : State, (bufferOut u rx.port rx.pkt).mem = u.mem := fun u => by
    unfold bufferOut
    split
    · exact setLevel_mem ..
    · rfl
  rw [passBuffer, hout, hin]

theorem replayCheck_sameButFabric (s : State) (node key dir ctr : Nat) : sameButFabric s (replayCheck s node key dir ctr).2 := by
  unfold replayCheck
  split
  · rfl
  · split <;> rfl

/-- The checks of a VC4 packet change the Lath unit alone, once it has passed through its buffer. -/
theorem vc4Accept_sameButFabric {s u : State} {rx : Rx} {op : Nat} {b : Bool} (h : vc4Accept s rx op = (b, u)) :
    sameButFabric (if live s && portUp s rx.port then passBuffer s rx else s) u := by
  unfold vc4Accept at h
  dsimp only at h
  generalize (if live s && portUp s rx.port then passBuffer s rx else s) = v at h ⊢
  split at h
  · cases h; rfl
  · split at h
    · cases h; rfl
    · split at h
      · cases h; rfl
      · split at h
        · cases h; rfl
        · have hrep := replayCheck_sameButFabric v rx.pkt.srcNode 0 rx.pkt.dir rx.pkt.ctr
          split at h <;> next hr =>
            rw [hr] at hrep
            cases h
            unfold sameButFabric at hrep ⊢
            dsimp only at hrep
            rw [hrep]
            try rfl

theorem vc4Accept_mem {s u : State} {rx : Rx} {op : Nat} {b : Bool} (h : vc4Accept s rx op = (b, u)) : u.mem = s.mem := by
  rw [vc4Accept_sameButFabric h]
  dsimp only
  split
  · exact passBuffer_mem s rx
  · rfl

/-- A timebase epoch that is taken stands in the Plumb unit, which else keeps what it holds. -/
theorem takeEpoch_plumb (s : State) (e : Nat) : (takeEpoch s e).fab.plumb = { s.fab.plumb with epoch := e } := by
  unfold takeEpoch
  split
  next h => rw [← h]
  next => rw [postEvent_fab]; rfl
theorem takeEpoch_mem (s : State) (e : Nat) : (takeEpoch s e).mem = s.mem := by
  unfold takeEpoch
  split
  · rfl
  · rw [postEvent_mem]; rfl

/-- A word of eight bytes stands twice at the front of a longer string. -/
theorem le_twice {n : Nat} (h : n < 2 ^ 64) (tail : Bytes) :
    le (leBytes 8 n ++ leBytes 8 n ++ tail) 0 8 = n ∧ le (leBytes 8 n ++ leBytes 8 n ++ tail) 8 8 = n := by
  have hword : le (leBytes 8 n) 0 8 = n := (le_leBytes 8 n).trans (Nat.mod_eq_of_lt (by simpa using h))
  have hright := le_append_right (leBytes 8 n) (leBytes 8 n) 0 8
  rw [leBytes_length] at hright
  exact ⟨by rw [List.append_assoc, le_append_left _ (by simp), hword], by rw [le_append_left _ (by simp), hright, hword]⟩

/-- Settles O39: each command is its definition in the case named; `takeEpoch_plumb` says what a new timebase epoch leaves, and the
events of `countMonitor` leave everything but the notices. -/
theorem plumbFollowsItsParent : Obligations.PlumbFollowsItsParent := by
  refine ⟨fun s hlive hmem hgm hdue hfree hmiss => ?_, fun rx u s hacc hrun => ?_, fun rx t1 u s hacc ht1 hgm hrun => ?_,
    fun rx t1 u s hacc ht1 hgm hrun => ?_, fun s hgm hold => ?_, fun s => ⟨fun hun => ?_, fun hlock => ?_⟩⟩
  · have hdue : ¬ (s.fab.plumb.lastSync ≠ 0 ∧ s.ns < s.fab.plumb.lastSync + 32000) := by omega
    change execPlumbSyncTimer s = _
    simp [execPlumbSyncTimer, hlive, hmem, hgm, hfree, Nat.not_le.2 hmiss, hdue]
  · have hexec : exec (.syncReq rx) s = execSyncReq rx s := rfl
    simp only [execSyncReq, hacc, hrun, Bool.not_true, Bool.false_eq_true, if_false] at hexec
    rw [List.append_assoc, List.append_assoc] at hexec
    exact ⟨_, hexec, by simp, fun htime => le_twice htime _⟩
  · have hexec : exec (.syncResp rx) s = execSyncResp rx s := rfl
    simp only [execSyncResp, hacc, ht1, hgm, hrun, Bool.not_false, Bool.false_eq_true, if_false, if_true] at hexec
    refine ⟨_, hexec, ?_⟩
    rw [takeEpoch_plumb, takeEpoch_mem]
    exact ⟨rfl, rfl, rfl, rfl, rfl, (vc4Accept_mem hacc : u.mem = s.mem)⟩
  · intro off
    have hexec : exec (.syncResp rx) s = execSyncResp rx s := rfl
    simp only [execSyncResp, hacc, ht1, hgm, hrun, Bool.not_true, Bool.false_eq_true, if_false] at hexec
    refine ⟨_, ?_, ?_, ?_, ?_, ?_, fun hlt => hexec.trans (if_pos hlt), fun hge => hexec.trans (if_neg (Nat.not_lt.2 hge))⟩
    · rw [takeEpoch_plumb]
      rfl
    · rw [takeEpoch_plumb]
      rfl
    · rw [takeEpoch_plumb]
      rfl
    · rw [takeEpoch_plumb]
      rfl
    · rw [takeEpoch_mem]
      exact (vc4Accept_mem hacc : u.mem = s.mem)
  · change execPlumbLockLoss s = _
    simp [execPlumbLockLoss, hgm, Nat.not_lt.2 hold]
  · simp [loseLock, hun]
  · refine ⟨_, (by unfold loseLock; rw [if_neg (by simp [hlock])]), ?_⟩
    simp [setPlumb]

/-! ### O40: PPS and the scheduled lanes -/

theorem maskOf_lt (c : Nat → Bool) (n : Nat) : (List.range n).foldl (fun m q => if c q then m + 2 ^ q else m) 0 < 2 ^ n := by
  induction n with
  | zero => simp
  | succ n ih =>
    rw [List.range_succ, List.foldl_append, List.foldl_cons, List.foldl_nil, pow_succ]
    split <;> omega

/-- A mask gathered bit by bit has the bits whose condition holds, and no others. -/
theorem bit_maskOf {c : Nat → Bool} {n q : Nat} (h : bit ((List.range n).foldl (fun m q => if c q then m + 2 ^ q else m) 0) q = true) :
    c q = true := by
  rw [bit_eq] at h
  induction n with
  | zero => simp at h
  | succ n ih =>
    rw [List.range_succ, List.foldl_append, List.foldl_cons, List.foldl_nil] at h
    split at h
    next hc =>
      rw [Nat.add_comm] at h
      rcases Nat.lt_trichotomy q n with hq | rfl | hq
      · exact ih (by rwa [Nat.testBit_two_pow_add_gt hq] at h)
      · exact hc
      · rw [Nat.testBit_lt_two_pow] at h
        · cases h
        · have := maskOf_lt c n
          calc _ < 2 ^ n + 2 ^ n := by omega
            _ = 2 ^ (n + 1) := by ring
            _ ≤ 2 ^ q := Nat.pow_le_pow_right (by decide) hq
    next => exact ih h

/-- Settles O40: each command is its definition in the case named; the mask of roomy ports by `bit_maskOf`. -/
theorem ppsAndLanesFollowPlumb : Obligations.PpsAndLanesFollowPlumb := by
  refine ⟨fun t0 s hlast hearly => ?_, fun s hlast hgm hrun => ?_, fun s hrun hlock hdue => ?_, fun rx u s hacc => ?_,
    fun s hwith hlock hoff hgood hframe => ?_, fun lane l s hl hlive hin => ⟨fun hun => ?_, fun hlock hstart hstop => ?_⟩,
    fun mask q room p s h => ?_⟩
  · change execPpsInEdge s = _
    simp [execPpsInEdge, hlast, hearly]
  · intro p
    have hexec : exec .ppsInEdge s = execPpsInEdge s := rfl
    unfold execPpsInEdge at hexec
    have hgm' : isGrandmaster (setPlumb s { p with ppsLast := some s.ns }) = true := hgm
    have hrun' : (setPlumb s { p with ppsLast := some s.ns }).fab.plumb.running = true := hrun
    dsimp only at hexec
    rw [if_neg (by cases ht : s.fab.plumb.ppsLast with
      | none => simp
      | some t0 => simpa using hlast t0 ht), if_neg (by rw [hgm', hrun']; decide)] at hexec
    by_cases hanch : p.anchored = true
    · rw [if_neg (by simpa [setPlumb] using hanch)] at hexec
      by_cases herr : (edgeError p).natAbs < 1000
      · rw [if_pos (by exact herr)] at hexec
        exact ⟨_, hexec, rfl, rfl, rfl, fun h => absurd hanch (by simp [h]), fun _ _ => ⟨rfl, rfl, rfl⟩, fun _ h => absurd herr (Nat.not_lt.2 h)⟩
      · rw [if_neg (by exact herr)] at hexec
        refine ⟨_, hexec, ?_⟩
        rw [takeEpoch_plumb, takeEpoch_mem]
        exact ⟨rfl, rfl, rfl, fun h => absurd hanch (by simp [h]), fun _ h => absurd h herr, fun _ _ => ⟨rfl, rfl⟩⟩
    · rw [if_pos (by simpa [setPlumb] using hanch)] at hexec
      exact ⟨_, hexec, rfl, rfl, rfl, fun _ => ⟨rfl, rfl⟩, fun h => absurd h hanch, fun h => absurd h hanch⟩
  · have hexec : exec .ppsOutPulse s = execPpsOutPulse s := rfl
    simp only [execPpsOutPulse, hrun, hlock, hdue, Bool.and_self, decide_true, if_true] at hexec
    refine ⟨_, hexec, by simp [ppsOutLevel, setPlumb], rfl, ?_, rfl⟩
    change s.fab.plumb.time < s.fab.plumb.anchor + ((s.fab.plumb.time - s.fab.plumb.anchor) / 1000000000 + 1) * 1000000000
    omega
  · refine ⟨_, ?_, rfl⟩
    change execSlotSlip rx s = _
    simp only [execSlotSlip, hacc]
  · change execScheduledLaneReturn s = _
    simp [execScheduledLaneReturn, hwith, hlock, hoff, hgood, hframe]
  · change execLaneSlotStart lane s = _
    simp [execLaneSlotStart, hl, hlive, hin, hun]
  · intro r g hg
    change execLaneSlotStart lane s = _
    have hopen : ¬ (s.fab.plumb.time % 2000 < l.start + 64 ∨ l.start + l.length < s.fab.plumb.time % 2000 + 64) := by omega
    simp only [execLaneSlotStart, hl, hlive, hin, hlock, hopen, Bool.not_true, Bool.or_self, Bool.false_eq_true, if_false,
      Bool.or_eq_true, decide_eq_true_eq]
    rw [hg]
    rfl
  · simpa [and_assoc] using bit_maskOf h

/-! ### O41: epoch updates -/

theorem tget_mapAfter_of_not_mem {l : List NodeChange} {n : Nat} (h : n ∉ l.map (·.node)) (t : Tab Node) :
    tget {} (mapAfter t l) n = tget {} t n := by
  induction l generalizing t with
  | nil => rfl
  | cons c l ih =>
    rw [List.map_cons, List.mem_cons, not_or] at h
    exact (ih h.2 _).trans (tget_tput_ne _ _ _ _ _ h.1)

theorem tget_mapAfter_of_mem {l : List NodeChange} (hl : (l.map (·.node)).Nodup) (t : Tab Node) {c : NodeChange} (hc : c ∈ l) :
    tget {} (mapAfter t l) c.node = ⟨c.phys, c.member, c.admitEpoch, c.timeParent, c.portMask⟩ := by
  induction l generalizing t with
  | nil => cases hc
  | cons d l ih =>
    rw [List.map_cons, List.nodup_cons] at hl
    rcases List.mem_cons.1 hc with rfl | hc
    · exact (tget_mapAfter_of_not_mem hl.1 _).trans (by rw [tget_tput, if_pos rfl])
    · exact ih hl.2 _ hc

section
variable {rx : Rx} {r : MembRecord} {u s : State} (hacc : vc4Accept s rx 0x1B = (true, u)) (hmem : u.fab.member.isMember = true)
  (hfirst : firstLive u u.fab.member.coordinators = some rx.pkt.srcNode) (hep : r.epoch = u.fab.member.epoch + 1)
include hacc hmem hfirst hep

/-- An update of the next epoch from the coordinator that no rule forbids: the use of the pairwise key, then the record. -/
theorem exec_epochUpdate_of_permitted (hroom : tooMany u (mapAfter u.fab.nodes r.nodes) = false) (hall : r.nodes.all (entryOk u r.epoch) = true)
    {st : Status} {w : State} (hslot : useSlot u (0xFA + u.fab.member.coordinators.idxOf rx.pkt.srcNode) 7 0 = (st, w)) :
    (st = .keyExhausted → exec (.epochUpdate rx r) s =
      .next (sendVc4 w 0x1C 1 rx.pkt.srcNode (leBytes 4 (statusCode .keyExhausted) ++ leBytes 4 r.epoch))) ∧
    (st ≠ .keyExhausted → exec (.epochUpdate rx r) s = .next (afterEpoch (sendVc4 (applyRecord (drawFree w).2 r
        ((aesUnwrap (slotKey (slotOf (drawFree w).2 (0xFA + u.fab.member.coordinators.idxOf rx.pkt.srcNode))) r.wrapped).getD
          ((drawFree w).1.truncate 256))) 0x1C 1 rx.pkt.srcNode (leBytes 4 0 ++ leBytes 4 r.epoch)))) := by
  have hexec : exec (.epochUpdate rx r) s = execEpochUpdate rx r s := rfl
  unfold execEpochUpdate at hexec
  rw [hacc] at hexec
  dsimp only at hexec
  rw [if_neg (by simp [hmem, hfirst, hep]), if_neg (by simp [hroom, hall]), hslot] at hexec
  refine ⟨fun hst => ?_, fun hst => ?_⟩
  · rw [hexec, hst]
  · rw [hexec]
    split
    next h => exact absurd (Prod.mk.inj h).1 hst
    next h => cases h; rfl

end

/-- Settles O41: `execEpochUpdate` branch by branch, the Node Map by `tget_mapAfter_of_mem`, the acknowledgements by their definition. -/
theorem epochUpdatesComeFromTheCoordinator : Obligations.EpochUpdatesComeFromTheCoordinator := by
  refine ⟨fun rx r u s hacc hno => ?_, fun rx r u s hacc hmem hfirst hep => ⟨fun hbad => ?_, fun hroom hall => ?_⟩,
    fun l t hl => ⟨fun c hc => tget_mapAfter_of_mem hl t hc, fun n hn => tget_mapAfter_of_not_mem hn t⟩,
    fun rx u s hacc hco hsent hep hok hnew => ?_, fun t0 s hsent hdue => ?_, fun rx u s hacc => ⟨vc4Accept_sameButFabric hacc, fun r => ?_⟩⟩
  · change execEpochUpdate rx r s = _
    unfold execEpochUpdate
    rw [hacc]
    dsimp only
    rw [if_pos (by simpa [or_assoc] using hno)]
  · change execEpochUpdate rx r s = _
    unfold execEpochUpdate
    rw [hacc]
    dsimp only
    rw [if_neg (by simp [hmem, hfirst, hep]), if_pos (by simpa using hbad)]
  · intro slot st w hslot
    obtain ⟨hex, hrun⟩ := exec_epochUpdate_of_permitted hacc hmem hfirst hep hroom hall hslot
    exact ⟨hex, fun hst => ⟨_, _, hrun hst, rfl, fun x hx => by rw [hx]; rfl⟩⟩
  · intro v
    change execEpochAck rx s = _
    unfold execEpochAck
    rw [hacc]
    dsimp only
    rw [if_neg (by simpa [hco, hep, hok, hnew] using Option.isSome_iff_ne_none.1 hsent)]
  · change execEpochAckTimeout s = _
    simp [execEpochAckTimeout, hsent, Nat.not_lt.2 hdue]
  · change execEpochUpdate rx r s = _
    simp [execEpochUpdate, hacc]

/-! ### O42: the domain is formed, joined and moved on -/

theorem answered_answerSp (s : State) (st : Status) (data : List Nat) (bytes : Bytes) : Answered (answerSp s st data bytes) st data bytes := rfl

/-- Settles O42: each request of a served connection passes its checks (`request_of_vendor`) and does what its definition says. -/
theorem domainsFormJoinAndMoveOn : Obligations.DomainsFormJoinAndMoveOn := by
  refine ⟨fun sess v r s hv hiss hco hep hroom hall hask hdrbg => ⟨fun hsent => ?_, fun t0 hsent => ?_⟩,
    fun sess node v r s hv hiss hep hnode hgm hcoord hgms hcos hnamed hout hroom hdrbg => ?_,
    fun sess node v r key s hv hpeer hout hroom hnamed => ?_⟩
  · change execEpochRequest sess r s = _
    unfold execEpochRequest
    rw [request_of_vendor _ hv hiss]
    dsimp only
    rw [if_neg (by simp [hco]), if_neg (not_not.2 hep), if_neg (by simp [hroom, hall]), if_neg (by simp [hask]), if_neg (by simp [hdrbg]), if_neg (by simp [hsent])]
  · change execEpochRequest sess r s = _
    unfold execEpochRequest
    rw [request_of_vendor _ hv hiss]
    dsimp only
    rw [if_neg (by simp [hco]), if_neg (not_not.2 hep), if_neg (by simp [hroom, hall]), if_neg (by simp [hask]), if_neg (by simp [hdrbg]), if_pos (by simp [hsent])]
  · have hexec : exec (.domainForm sess node r) s = execDomainForm sess node r s := rfl
    unfold execDomainForm at hexec
    rw [request_of_vendor _ hv hiss] at hexec
    dsimp only at hexec
    rw [if_neg (by
      simp only [hep, hgm, hcoord, hnamed, ne_eq, not_true_eq_false, Bool.true_eq_false, false_or, or_false]
      omega), if_neg (by simp [hout]), if_neg (by simp [hroom]), if_neg (by simp [hdrbg])] at hexec
    rcases hdraw : draw s with ⟨k, u⟩
    rw [hdraw] at hexec
    dsimp only at hexec
    refine ⟨u, _, k.truncate 256, hexec, answered_answerSp .., rfl, ?_⟩
    generalize enterDomain { u with fab := { u.fab with nodes := [] } } node r (k.truncate 256) = w
    rfl
  · change execDomainJoin sess node r key s = _
    unfold execDomainJoin
    rw [request_of_vendor _ hv hpeer]
    simp [hout, hroom, hnamed]

end Sys2Proof.Machine
end

section
/-! SUPPORT. Joint sessions, keys and their requests (chapters 11, 12, 14). -/

namespace Sys2Proof.Machine
open Sys2Proof

/-! ### O43: the units that act when their time has come -/

/-- Whole windows of a positive length bring a window's start to where the present lies inside it. -/
theorem windowStart_spec {a n w : Nat} (hw : 0 < w) (h : a + w ≤ n) : a + (n - a) / w * w ≤ n ∧ n < a + (n - a) / w * w + w := by
  have hdiv := Nat.div_add_mod (n - a) w
  have hlt := Nat.mod_lt (n - a) hw
  rw [Nat.mul_comm] at hdiv
  omega

theorem monWindow_pos (m : Nat) : 0 < monWindow m := by
  unfold monWindow
  split <;> omega

/-- The report for a silent peer names the oldest own record, else the peer's oldest. -/
theorem silentEntry_spec {s : State} {p : Nat} {l : Level} {e : LevelEntry} (h : silentEntry s p l = some e) : e.cause = 3 ∧
    (∀ r rest, l.own = r :: rest → (e.planSeq, e.task, e.dOwn, e.dPeer) = (r.planSeq, r.task, r.d, 0)) ∧
    (∀ r rest, l.own = [] → l.theirs = r :: rest → (e.planSeq, e.task, e.dOwn, e.dPeer) = (r.planSeq, r.task, 0, r.d)) := by
  unfold silentEntry at h
  split at h
  next hown =>
    cases h
    exact ⟨rfl, fun r rest hr => by rw [hown] at hr; cases hr; rfl, fun _ _ hnil _ => by rw [hown] at hnil; cases hnil⟩
  next hown htheirs =>
    cases h
    exact ⟨rfl, fun r rest hr => (by rw [hown] at hr; cases hr), fun r rest _ hr => by rw [htheirs] at hr; cases hr; rfl⟩
  next => cases h

/-- Settles O43: each timer is its definition once due; `windowStart_spec` places the new window, `silentEntry_spec` the report. -/
theorem timedUnitsActWhenDue : Obligations.TimedUnitsActWhenDue := by
  refine ⟨fun part grp tag recv at' g gr t s hg hgr ht hat hdue hlock hfree => ?_, fun part grp tag send o e ex g r s hg hr hlease hexp hlate => ?_,
    fun t s ht hseal hdust hdie hop => ?_, fun m s hm hdue => ?_, fun p l e s hl he hdue => ⟨?_, silentEntry_spec he⟩⟩
  · change execHoldTimer part grp tag recv s = _
    simp [execHoldTimer, hg, hgr, ht, hat, hdue, hlock, hfree]
  · change execSlotLeaseExpiry part grp tag send s = _
    simp [execSlotLeaseExpiry, hg, hr, hlease, hexp, hlate]
  · have hop : (t.op == 0 || t.op == 3) = true := by simpa using hop
    change execTrowelChunkRetire s = _
    simp [execTrowelChunkRetire, ht, hseal, hdust, hdie, hop]
  · have hexec : exec (.healthWindowExpiry m) s = execHealthWindowExpiry m s := rfl
    unfold execHealthWindowExpiry at hexec
    dsimp only at hexec
    rw [if_neg (by omega)] at hexec
    refine ⟨_, hexec, ?_⟩
    rw [monOf_setMon]
    obtain ⟨hle, hlt⟩ := windowStart_spec (monWindow_pos m) hdue
    exact ⟨rfl, rfl, hle, hlt, fun k hk => monOf_setMon_ne _ _ _ _ hk, rfl, rfl⟩
  · change execLevelPeerSilent p s = _
    simp [execLevelPeerSilent, hl, he, Nat.not_lt.2 hdue]

/-! ### O44: joint sessions -/

section
variable {β : Type} (π : State → β) (hset : ∀ s k v, π (setSlot s k v) = π s) (hdraw : ∀ s : State, π (draw s).2 = π s)
include hset hdraw

/-- What neither a slot nor a draw touches, the loading of a slot keeps. -/
theorem loadSlot_keeps (s : State) (slot cls : Nat) (key : BitVec 256) (part ses owner expiry limit : Nat) :
    π (loadSlot s slot cls key part ses owner expiry limit) = π s := by
  unfold loadSlot
  dsimp only
  rw [hset]
  split
  · exact hdraw s
  · rfl

theorem loadWrap_keeps (s : State) (i part : Nat) (ss : BitVec 384) : π (loadWrap s i part ss) = π s := by
  unfold loadWrap
  split
  · rfl
  · exact loadSlot_keeps π hset hdraw ..

theorem loadBounce_keeps (s : State) (i : Nat) (v : Session) (obs : BitVec 256) : π (loadBounce s i v obs) = π s := by
  unfold loadBounce
  split
  · rfl
  · exact loadSlot_keeps π hset hdraw ..

theorem takeOwners_keeps (s : State) (i : Nat) (v : Session) (keys : List (Nat × Nat × Nat × BitVec 256)) :
    π (takeOwners s i v keys) = π s :=
  foldl_keeps π (fun s k => by
    split
    · exact loadSlot_keeps π hset hdraw ..
    · rfl) keys s

end

/-- An identity or session request of a served connection that its class may make, on a module with a root secret. -/
theorem sessionRequest_of_vendor {s : State} {sess : Nat} {v : Spdm} {allow : Spdm → Bool} (f : Spdm → State → State) (hv : Vendor s sess v)
    (hroot : (rootBank s).isSome = true) (hallow : allow v = true) : sessionRequest s sess allow f = .next (f v s) := by
  rw [sessionRequest, request_of_vendor _ hv rfl, if_neg (by simpa using Option.isSome_iff_ne_none.1 hroot), if_neg (by simp [hallow])]

/-- An entry of the measurement log changes nothing of the security processor, of memory or of the Lath unit. -/
theorem measAdd_keeps {s u : State} {part type ctx key role ses len : Nat} {d : Digest} (h : measAdd s part type ctx key role ses len d = some u) :
    u.sp = s.sp ∧ u.mem = s.mem ∧ u.fab = s.fab := by
  unfold measAdd at h
  cases (Option.ite_none_left_eq_some.1 h).2
  unfold markMeas
  exact ⟨(setLevel_sp ..).trans rfl, (setLevel_mem ..).trans rfl, (setLevel_fab ..).trans rfl⟩

theorem localId_spec (s : State) : localId s < 65536 ∧ (65536 ≤ s.sp.nextSession → localId s ≠ 0 → sesOf s (localId s) = none) := by
  unfold localId
  split
  next h => exact ⟨h, fun hge => absurd h (Nat.not_lt.2 hge)⟩
  next =>
    cases hfind : ((List.range 65535).map (· + 1)).find? (fun i => (sesOf s i).isNone) with
    | none => simp
    | some i =>
      obtain ⟨j, hj, rfl⟩ := List.mem_map.1 (List.mem_of_find?_eq_some hfind)
      have hlt := List.mem_range.1 hj
      have hnone := List.find?_some hfind
      exact ⟨by simp; omega, fun _ _ => by simpa using hnone⟩

theorem sesOf_congr {s t : State} (h : t.sp.sessions = s.sp.sessions) (i : Nat) : sesOf t i = sesOf s i := by rw [sesOf, sesOf, h]

/-- An admissible manifest opens a session: of the founder with a secret of its own, whose wrap key is loaded. -/
theorem exec_sessionOpen {sess part : Nat} {v : Spdm} {b : Bytes} (founder : Bool) {u s : State} (hv : Vendor s sess v)
    (hok : manifestOk b (decodeManifest b) = true) (hlive : (partOf s part).live = true) (hroot : (rootBank s).isSome = true)
    (hallowed : manifestAllowed s (decodeManifest b) = true)
    (hnew : s.sp.sessions.any (fun x => x.2.id == (Config.sha384 (b.take (bodyLen b))).toNat % 2 ^ 128) = false)
    (hended : s.sp.endedIds.contains ((Config.sha384 (b.take (bodyLen b))).toNat % 2 ^ 128) = false)
    (hheld : (s.sp.sessions.filter (fun x => x.2.state != .ended)).length < 64) (hdrbg : drbgOk s = true)
    (hmeas : measAdd s part 4 0 0 0 (localId s) 0 (BitVec.ofNat 384 ((Config.sha384 (b.take (bodyLen b))).toNat % 2 ^ 128)) = some u) :
    ∃ (w : State) (x : Session), exec (.sessionOpen sess b true part founder) s = .next (answerSp
        (if founder then loadWrap (setSes w (localId s) x) (localId s) part (x.ss.getD 0) else setSes w (localId s) x) .ok [localId s] []) ∧
      x.state = .pending ∧ x.id = (Config.sha384 (b.take (bodyLen b))).toNat % 2 ^ 128 ∧ x.founder = founder ∧ x.partition = part ∧
      x.approvals = [] ∧ x.ss.isSome = founder ∧ w.sp.nextSession = min 65536 (u.sp.nextSession + 1) ∧ w.mem = u.mem := by
  have hexec : exec (.sessionOpen sess b true part founder) s = execSessionOpen sess b true part founder s := rfl
  unfold execSessionOpen at hexec
  rw [request_of_vendor _ hv rfl] at hexec
  dsimp only at hexec
  rw [if_neg (by simp [hok, hlive]), if_neg (by simpa using Option.isSome_iff_ne_none.1 hroot), if_neg (by simp [hallowed]),
    if_neg (by rw [hnew, hended]; simpa using hheld), if_neg (by simp [hdrbg]), hmeas] at hexec
  cases founder
  · exact ⟨_, _, hexec, rfl, rfl, rfl, rfl, rfl, rfl, rfl, rfl⟩
  · exact ⟨_, _, hexec, rfl, rfl, rfl, rfl, rfl, rfl, rfl, rfl⟩

/-- A session with one approval more; a list that names it already stays. -/
def approvedBy (x : Session) (a : Nat × Nat × Digest) : Session :=
  { x with approvals := if x.approvals.contains a then x.approvals else x.approvals ++ [a] }

theorem mem_approvedBy (x : Session) (a b : Nat × Nat × Digest) : b ∈ (approvedBy x a).approvals ↔ b ∈ x.approvals ∨ b = a := by
  unfold approvedBy
  dsimp only
  split
  next h => exact ⟨Or.inl, fun hb => hb.elim id fun hb => hb ▸ List.contains_iff_mem.1 h⟩
  next => simp

theorem exec_sessionApprove {sess session owner : Nat} {v : Spdm} {x : Session} (object : Digest) {s : State} (hv : Vendor s sess v)
    (hx : sesOf s session = some x) (hst : x.state ≠ .ended) (hown : owner < x.manifest.owners) (hroot : (rootBank s).isSome = true) :
    exec (.sessionApprove sess session owner 1 object true) s = .next (answerSp (setSes s session
      (if x.founder = true ∧ x.state = .pending ∧ x.manifest.kMembers ≤ (approvers (approvedBy x (owner, 1, object)) 1 object).length
        then { approvedBy x (owner, 1, object) with state := .running } else approvedBy x (owner, 1, object))) .ok [] []) := by
  have hexec : exec (.sessionApprove sess session owner 1 object true) s = execSessionApprove sess session owner 1 object true s := rfl
  unfold execSessionApprove at hexec
  rw [sessionRequest_of_vendor _ hv hroot rfl] at hexec
  dsimp only at hexec
  rw [hx] at hexec
  dsimp only at hexec
  rw [if_neg (by decide), if_neg (by simp [hst, hown]), if_neg (by simp)] at hexec
  simpa [approvedBy] using hexec

/-- What a joining module takes and loads besides its session's entry changes no session's entry and no memory. -/
theorem joinTaken_keeps (u : State) (i part : Nat) (v w : Session) (bounds : List (Nat × Nat)) (keys : List (Nat × Nat × Nat × BitVec 256))
    (ss : BitVec 384) (obs : BitVec 256) :
    (∀ j, sesOf (answerSp (loadBounce (loadWrap (takeOwners (takeBounds u i v bounds) i v keys) i part ss) i w obs) .ok [] []) j = sesOf u j) ∧
    (answerSp (loadBounce (loadWrap (takeOwners (takeBounds u i v bounds) i v keys) i part ss) i w obs) .ok [] []).mem = u.mem := by
  have htaken := takeOwners_keeps (fun u => (u.sp.sessions, u.mem)) (fun _ _ _ => rfl) (fun _ => rfl) (takeBounds u i v bounds) i v keys
  generalize takeOwners (takeBounds u i v bounds) i v keys = a at htaken ⊢
  have hwrap := loadWrap_keeps (fun u => (u.sp.sessions, u.mem)) (fun _ _ _ => rfl) (fun _ => rfl) a i part ss
  generalize loadWrap a i part ss = b at hwrap ⊢
  have hbounce := loadBounce_keeps (fun u => (u.sp.sessions, u.mem)) (fun _ _ _ => rfl) (fun _ => rfl) b i w obs
  have hall := (hbounce.trans hwrap).trans htaken
  exact ⟨sesOf_congr (congrArg Prod.fst hall), congrArg Prod.snd hall⟩

/-- Settles O44: the opening by `exec_sessionOpen`, the approval by `exec_sessionApprove`; a join and an end are their definitions. -/
theorem sessionsOpenApproveJoinAndEnd : Obligations.SessionsOpenApproveJoinAndEnd := by
  refine ⟨fun sess part v b founder u s hv => ?_, localId_spec, fun sess session owner v x object s hv hx hst hown hroot => ?_,
    fun sess session v x r s hv hx hrun hcls hrep hadm hnew hmax hroot => ?_, fun session node x s => ⟨_, rfl⟩,
    fun sess session v x r s hv hx hpend hpeer hfound hid hdrbg hroot => ?_, fun sess session v x s hv hx hst hallow hroot => ⟨fun hroom => ?_, fun hfull => ?_⟩⟩
  · intro m id hok hlive hroot hallowed hnew hended hheld hdrbg hmeas
    obtain ⟨w, x, hexec, hst, hid, hf, hp, happ, hss, hnext, hmem⟩ :=
      exec_sessionOpen founder hv hok hlive hroot hallowed hnew hended hheld hdrbg hmeas
    obtain ⟨hsp, hm, -⟩ := measAdd_keeps hmeas
    refine ⟨_, x, hexec, answered_answerSp .., ?_, hst, hid, hf, hp, happ, by rw [hss], ?_, ?_⟩
    · cases founder
      · exact sesOf_setSes ..
      · exact (sesOf_congr (loadWrap_keeps (·.sp.sessions) (fun _ _ _ => rfl) (fun _ => rfl) ..) _).trans (sesOf_setSes ..)
    · rw [hsp] at hnext
      cases founder
      · exact hnext
      · exact (loadWrap_keeps (·.sp.nextSession) (fun _ _ _ => rfl) (fun _ => rfl) ..).trans hnext
    · rw [hm] at hmem
      cases founder
      · exact hmem
      · exact (loadWrap_keeps (·.mem) (fun _ _ _ => rfl) (fun _ => rfl) ..).trans hmem
  · have hexec := exec_sessionApprove object hv hx hst hown hroot
    have hmem := mem_approvedBy x (owner, 1, object)
    by_cases hc : x.founder = true ∧ x.state = .pending ∧ x.manifest.kMembers ≤ (approvers (approvedBy x (owner, 1, object)) 1 object).length
    all_goals
      simp only [hc, if_false] at hexec
      refine ⟨_, _, hexec, answered_answerSp .., sesOf_setSes .., (hmem _).2 (.inr rfl), fun a ha => (hmem a).2 (.inl ha), rfl, rfl, ?_,
        rfl, rfl, fun i hi => sesOf_setSes_ne _ _ _ _ hi⟩
    · exact (if_pos hc).symm
    · exact (if_neg hc).symm
  · change execSessionJoin sess session r s = _
    unfold execSessionJoin
    rw [sessionRequest_of_vendor _ hv hroot (by simp [isPeer, hcls])]
    simp [hx, hrun, hrep, hadm, hcls, hnew, Nat.not_le.2 hmax]
  · have hexec : exec (.sessionJoin sess session r) s = execSessionJoin sess session r s := rfl
    unfold execSessionJoin at hexec
    rw [sessionRequest_of_vendor _ hv hroot hpeer] at hexec
    dsimp only at hexec
    rw [hx] at hexec
    dsimp only at hexec
    rw [hpend] at hexec
    dsimp only at hexec
    rw [if_neg (by simp [hfound, hid]), if_neg (by simp [hdrbg])] at hexec
    exact ⟨_, _, hexec, answered_answerSp .., ((joinTaken_keeps ..).1 _).trans (sesOf_setSes ..), rfl, rfl, rfl,
      (joinTaken_keeps ..).2.trans (setSes_mem ..)⟩
  · change execSessionEnd sess session s = _
    unfold execSessionEnd
    rw [sessionRequest_of_vendor _ hv hroot (by simpa using hallow), hx]
    dsimp only
    rw [if_neg hst, if_neg (Nat.not_le.2 hroom)]
  · change execSessionEnd sess session s = _
    unfold execSessionEnd
    rw [sessionRequest_of_vendor _ hv hroot (by simpa using hallow), hx]
    dsimp only
    rw [if_neg hst, if_pos hfull]

/-! ### O45: tickets, logs and pairs -/

theorem slotOf_answerSp (s : State) (st : Status) (data : List Nat) (bytes : Bytes) (k : Nat) : slotOf (answerSp s st data bytes) k = slotOf s k := rfl
theorem slotOf_setSes (s : State) (i : Nat) (v : Session) (k : Nat) : slotOf (setSes s i v) k = slotOf s k := rfl

theorem slotOf_loadSlot_cls (s : State) (slot cls : Nat) (key : BitVec 256) (part ses owner expiry limit : Nat) :
    (slotOf (loadSlot s slot cls key part ses owner expiry limit) slot).cls = cls := by
  unfold loadSlot
  dsimp only
  split <;> simp

theorem setPairing_spec (s : State) (part : Nat) (l : Option Level) :
    (partOf (setPairing s part l) part).level = l ∧ (setPairing s part l).mem = s.mem := by
  unfold setPairing
  refine ⟨?_, (setLevel_mem ..).trans rfl⟩
  rw [partOf, setLevel_parts]
  exact congrArg (·.level) (partOf_setPart s part _)

section
variable {sess part peer va len key : Nat} {halt detail : Bool} {v : Spdm} {s : State} (hv : Vendor s sess v) (hiss : isIssuer s v = true)
  (hlive : (partOf s part).live = true) (hpeer : peer ≠ 0xFFFF)
include hv hiss hlive hpeer

theorem exec_levelPair_of_permitted (hva : va < 2 ^ 48)
    (hrun : s.sp.sessions.any (fun x => x.2.partition == part && x.2.state == .running && x.2.members.any (fun m => m.1 == peer)) = true)
    (hcls : (keyOf s key).cls = 0) (hst : (keyOf s key).state ≠ .free) (hrange : keyInRange s part key = true) :
    exec (.levelPair sess part peer va len key halt detail) s = .next (answerSp (setPairing s part
      (some ⟨peer, va, len, key, halt, detail, 0, 0, [], [], [], [], s.ns, [], [], []⟩)) .ok [] []) := by
  change execLevelPair sess part peer va len key halt detail s = _
  unfold execLevelPair
  rw [request_of_vendor _ hv hiss]
  dsimp only
  rw [if_neg (by simp [hlive]), if_neg hpeer, if_neg (Nat.not_le.2 hva), if_neg (by rw [hrun]; simp [hcls, hst, hrange])]

end

/-- Settles O45: each request passes its checks and does what its definition says. -/
theorem releasesLogsAndPairsAnswer : Obligations.ReleasesLogsAndPairsAnswer := by
  refine ⟨fun sess session rule ctx addr len key slot v x r b u s hv hx hown hr hk hlen haddr hrun hses hlive hkey hrole hmax hroom hdrbg hslot
      hread => ?_, fun sess session ticket v x t s hv howner hx ht hst => ?_, fun sess part seq v s hv => ?_, fun sess seq v s hv => ?_,
    fun sess part peer va len key halt detail v s hv hiss hlive => ⟨fun hpeer => ⟨?_, (setPairing_spec ..).1⟩, fun hpeer hva => ?_,
      fun hpeer hva hrun hcls hst hrange => ?_⟩⟩
  · have hexec : exec (.releasePrepare sess session rule ctx addr len key) s = execReleasePrepare sess session rule ctx addr len key s := rfl
    unfold execReleasePrepare at hexec
    rw [request_of_vendor _ hv (by rw [hx]; simpa using hown)] at hexec
    dsimp only at hexec
    rw [hx] at hexec
    dsimp only at hexec
    rw [hr] at hexec
    dsimp only at hexec
    rw [if_neg (by simp only [hk, hlen, false_or]; omega),
      if_neg (by
        simp only [hrun, hses, hlive, hkey, hrole, ne_eq, not_true_eq_false, Bool.true_eq_false, false_or, not_and, Nat.not_lt]
        exact hmax),
      if_neg (Nat.not_le.2 hroom), if_neg (by simp [hdrbg]), hslot] at hexec
    dsimp only at hexec
    rw [hread] at hexec
    dsimp only at hexec
    rw [if_neg (by simp)] at hexec
    refine ⟨_, _, _, _, hexec, answered_answerSp .., sesOf_setSes .., rfl, rfl, rfl, rfl, rfl, rfl, ?_, ?_, ?_⟩
    · rw [slotOf_answerSp, slotOf_setSes, slotOf_loadSlot]
    · rw [slotOf_answerSp, slotOf_setSes, slotOf_loadSlot_cls]
    · rw [answerSp_mem, setSes_mem, loadSlot_mem, draw_mem]
  · intro r hrec
    have hexec : exec (.releaseKeyGet sess session ticket) s = execReleaseKeyGet sess session ticket s := rfl
    unfold execReleaseKeyGet at hexec
    rw [request_of_vendor _ hv howner] at hexec
    dsimp only at hexec
    rw [hx] at hexec
    dsimp only at hexec
    rw [ht] at hexec
    dsimp only at hexec
    rw [if_neg (by simpa [hst] using hrec)] at hexec
    refine ⟨fun hc => ?_, fun hc hdest => ?_⟩
    · rw [hexec, if_pos (by simp [hc])]
    · rw [hexec, if_neg (by simp [hc]), if_pos hdest]
  · intro l
    change execMeasLogRead sess part seq s = _
    exact request_of_vendor _ hv rfl
  · intro l
    have hexec : exec (.spLogRead sess seq) s = execSpLogRead sess seq s := rfl
    unfold execSpLogRead at hexec
    rw [request_of_vendor _ hv rfl] at hexec
    exact ⟨_, hexec, rfl, (setLevel_mem ..).trans rfl, congrArg (·.log) (setLevel_sp ..)⟩
  · change execLevelPair sess part peer va len key halt detail s = _
    unfold execLevelPair
    rw [request_of_vendor _ hv hiss]
    simp [hlive, hpeer]
  · change execLevelPair sess part peer va len key halt detail s = _
    unfold execLevelPair
    rw [request_of_vendor _ hv hiss]
    dsimp only
    rw [if_neg (by simp [hlive]), if_neg hpeer, if_pos hva]
  · obtain ⟨hlevel, hmem⟩ := setPairing_spec s part (some ⟨peer, va, len, key, halt, detail, 0, 0, [], [], [], [], s.ns, [], [], []⟩)
    exact ⟨_, _, exec_levelPair_of_permitted hv hiss hlive hpeer hva hrun hcls hst hrange, rfl, hlevel, rfl, rfl, rfl, rfl, rfl, hmem⟩

/-! ### O46: windows and groups -/

/-- The arrival counter of a window that opens: one window more, or a new counter of its partition. -/
def arrivalOpened (s : State) (w : Window) : Arrival :=
  match tlook s.fab.arrivals w.counter with
  | some a => { a with windows := a.windows + 1 }
  | none => ⟨w.partition, 1, 0⟩

theorem exec_windowOpen {sess window : Nat} {v : Spdm} {b : Bytes} {w : Window} {s : State} (hv : Vendor s sess v)
    (hiss : isIssuer s v = true) (hlt : window < 4095) (hdec : decodeWindow b = some w)
    (hctx : (ctxOf s w.context).live = true ∧ (ctxOf s w.context).partition = w.partition ∧ (ctxOf s w.context).session = w.session)
    (heven : w.lkey % 2 = 0) (hpair : isLathOf s w.session w.lkey = true ∧ isLathOf s w.session (w.lkey + 1) = true)
    (hmkey : keyInRange s w.partition w.mkey = true) (hcls : (keyOf s w.mkey).cls = 0)
    (harr : ∀ a, tlook s.fab.arrivals w.counter = some a → a.partition = w.partition) (hfree : tlook s.fab.windows window = none) :
    exec (.windowOpen sess window b) s = .next (answerSp { s with fab := { s.fab with
      windows := tins s.fab.windows window w, arrivals := tins s.fab.arrivals w.counter (arrivalOpened s w) } } .ok [] []) := by
  obtain ⟨hlive, hpart, hses⟩ := hctx
  obtain ⟨hpair0, hpair1⟩ := hpair
  have hany : (tlook s.fab.arrivals w.counter).any (fun a => a.partition != w.partition) = false := by
    cases ha : tlook s.fab.arrivals w.counter with
    | none => rfl
    | some a => simp [harr a ha]
  change execWindowOpen sess window b s = _
  unfold execWindowOpen
  rw [request_of_vendor _ hv hiss]
  dsimp only
  rw [if_neg (Nat.not_le.2 hlt), hdec]
  dsimp only
  rw [if_neg (by simp [hlive, hpart, hses, heven, hpair0, hpair1, hmkey, hcls, hany]), if_neg (by simp [hfree])]
  rfl

/-- A window that closes leaves its place, and its arrival counter goes with the last window. -/
theorem closeWindow_spec {s : State} {window : Nat} {w : Window} (h : tlook s.fab.windows window = some w) :
    tlook (closeWindow s window).fab.windows window = none ∧
    (∀ a, tlook s.fab.arrivals w.counter = some a → tlook (closeWindow s window).fab.arrivals w.counter =
      if a.windows ≤ 1 then none else some { a with windows := a.windows - 1 }) := by
  unfold closeWindow
  rw [h]
  refine ⟨tlook_tdel_same .., fun a ha => ?_⟩
  dsimp only
  rw [ha]
  dsimp only
  split
  · exact tlook_tdel_same ..
  · exact tlook_tins_same ..

/-- Settles O46: the opening of a window by `exec_windowOpen`, its close by `closeWindow_spec`; the group requests are their
definitions. -/
theorem windowsAndGroupsOpenAndClose : Obligations.WindowsAndGroupsOpenAndClose := by
  refine ⟨fun sess window v b w s hv hiss hlt hdec hlive hpart hses heven hp0 hp1 hmkey hcls harr hfree => ?_,
    fun sess window v w s hv hiss hw => ⟨?_, closeWindow_spec hw⟩, fun sess part v b lb u s hv hiss hfields => ?_,
    fun sess part group v s hv hiss hg => ⟨fun hbusy => ?_, fun hidle => ?_⟩⟩
  · refine ⟨_, exec_windowOpen hv hiss hlt hdec ⟨hlive, hpart, hses⟩ heven ⟨hp0, hp1⟩ hmkey hcls harr hfree, answered_answerSp ..,
      tlook_tins_same .., fun a ha => ?_, fun ha => ?_, fun n hn => tlook_tins_ne _ _ _ _ hn, rfl⟩
    all_goals
      refine (tlook_tins_same ..).trans ?_
      rw [arrivalOpened, ha]
  · change execWindowClose sess window s = _
    unfold execWindowClose
    rw [request_of_vendor _ hv hiss]
    simp [hw]
  · intro group ctx n lkey stage c members hlive hpart hcls hst hkpart hcheck hread hnodup hself hl0 hl1 hstage hnew hlanes hroom
    have hexec : exec (.groupOpen sess part b) s = execGroupOpen sess part b s := rfl
    unfold execGroupOpen at hexec
    rw [request_of_vendor _ hv hiss] at hexec
    dsimp only at hexec
    obtain ⟨hr0, hr1⟩ := hcheck .read (by simp)
    obtain ⟨hw0, hw1⟩ := hcheck .write (by simp)
    rw [if_neg (by simp [hfields])] at hexec
    have hready : (c.live && c.partition == part && (keyOf s stage).cls == 0 && (keyOf s stage).state != .free && (keyOf s stage).partition == part
        && (vcheck s ctx stage (le b 16 8) (2 * n) .read == .ok && vcheck s ctx stage (le b 16 8) (2 * n) .write == .ok)) = true := by
      simp [hlive, hpart, hcls, hst, hkpart, hr0, hw0]
    rw [hready, if_pos rfl, hread] at hexec
    dsimp only at hexec
    have hlist : ¬ (true = true ∧ Status.ok = .ok ∧ (members.all (fun m => members.count m == 1) = false ∨ members.contains s.fab.member.node = false)) := by
      rw [hnodup, hself]
      decide
    have hkeys : ¬ ((!true || !isLathOf s c.session lkey || !isLathOf s c.session (lkey + 1)
        || !(vcheck s ctx stage (le b 24 8) (le b 32 8) .read == .ok && vcheck s ctx stage (le b 24 8) (le b 32 8) .write == .ok)) = true) := by
      rw [hl0, hl1, hr1, hw1]
      decide
    have hnotNew : ¬ ((groupOf s part group).isSome = true) := by simp [hnew]
    rw [if_pos rfl, if_neg (by exact hlist), if_neg (by exact hkeys), if_neg (by simp), if_neg (by exact Nat.not_lt.2 hstage),
      if_neg (by exact fun h => h.elim hnotNew fun h => h.elim (Nat.not_lt.2 hlanes) (Nat.not_lt.2 hroom))] at hexec
    exact ⟨_, _, hexec, answered_answerSp .., tlook_tins_same .., rfl, rfl, rfl, rfl, rfl, rfl⟩
  · change execGroupClose sess part group s = _
    unfold execGroupClose
    rw [request_of_vendor _ hv hiss]
    simp [hbusy]
  · have hexec : exec (.groupClose sess part group) s = execGroupClose sess part group s := rfl
    unfold execGroupClose at hexec
    rw [request_of_vendor _ hv hiss] at hexec
    rw [if_neg (by simp [hidle]), if_neg (by simpa using Option.isSome_iff_ne_none.1 hg)] at hexec
    exact ⟨_, hexec, answered_answerSp .., tlook_tdel_same .., rfl⟩

/-! ### O47: key slots -/

/-- A loaded slot holds its key as two shares under the next generation, for the owner and session named. -/
theorem loadSlot_spec (s : State) (slot cls : Nat) (key : BitVec 256) (part ses owner expiry limit : Nat) :
    let v := slotOf (loadSlot s slot cls key part ses owner expiry limit) slot
    v.state = .loaded ∧ slotKey v = key ∧ v.cls = cls ∧ v.owner = owner ∧ v.session = ses ∧ v.sgen = (slotOf s slot).sgen + 1 ∧
      ∀ i, i ≠ slot → slotOf (loadSlot s slot cls key part ses owner expiry limit) i = slotOf s i := by
  intro v
  have hshares : ∀ m : BitVec 256, m ^^^ (m ^^^ key) = key := fun m => by rw [← BitVec.xor_assoc, BitVec.xor_self, BitVec.zero_xor]
  obtain ⟨m, w, hw, hslots⟩ : ∃ (m : BitVec 256) (w : State), loadSlot s slot cls key part ses owner expiry limit = setSlot w slot
      { slotOf s slot with cls := cls, state := .loaded, share1 := m, share2 := m ^^^ key, sgen := (slotOf s slot).sgen + 1,
                           partition := part, session := ses, owner := owner, expiry := expiry, uses := 0, limit := limit,
                           pins := 0, bound := 0 } ∧ ∀ i, slotOf w i = slotOf s i := by
    unfold loadSlot
    dsimp only
    split
    · exact ⟨_, _, rfl, fun _ => rfl⟩
    · exact ⟨_, _, rfl, fun _ => rfl⟩
  subst v
  rw [hw, slotOf_setSlot]
  exact ⟨rfl, hshares m, rfl, rfl, rfl, rfl, fun i hi => (slotOf_setSlot_ne _ _ _ _ hi).trans (hslots i)⟩

/-- An emptied slot holds no key, and keeps its generation. -/
theorem emptySlot_spec (s : State) (slot : Nat) : (slotOf (emptySlot s slot) slot).state = .empty ∧ slotKey (slotOf (emptySlot s slot) slot) = 0 ∧
    (slotOf (emptySlot s slot) slot).sgen = (slotOf s slot).sgen := by
  rw [emptySlot, slotOf_setSlot]
  exact ⟨rfl, BitVec.xor_self, rfl⟩

/-- A slot whose shares take a fresh mask. -/
def remasked (s : State) (i : Nat) : State :=
  modSlot (draw s).2 i (fun v => { v with share1 := v.share1 ^^^ (draw s).1.truncate 256, share2 := v.share2 ^^^ (draw s).1.truncate 256 })

/-- A fresh mask changes no key and no slot's state or uses. -/
theorem slotOf_remasked (s : State) (j i : Nat) : slotKey (slotOf (remasked s j) i) = slotKey (slotOf s i) ∧
    (slotOf (remasked s j) i).state = (slotOf s i).state ∧ (slotOf (remasked s j) i).uses = (slotOf s i).uses := by
  by_cases hi : i = j
  · rw [hi, remasked, modSlot, slotOf_setSlot]
    refine ⟨?_, rfl, rfl⟩
    change (slotOf s j).share1 ^^^ (draw s).1.truncate 256 ^^^ ((slotOf s j).share2 ^^^ (draw s).1.truncate 256) =
      (slotOf s j).share1 ^^^ (slotOf s j).share2
    rw [BitVec.xor_comm (slotOf s j).share2, BitVec.xor_assoc, ← BitVec.xor_assoc ((draw s).1.truncate 256), BitVec.xor_self, BitVec.zero_xor]
  · have hne : slotOf (remasked s j) i = slotOf s i := slotOf_setSlot_ne _ _ _ _ hi
    rw [hne]
    exact ⟨rfl, rfl, rfl⟩

/-- Every loaded slot takes a fresh mask (R362). -/
def slotsRemasked (s : State) : State := ((s.sp.slots.filter (fun x => x.2.state == .loaded)).map (·.1)).foldl remasked s

theorem slotOf_slotsRemasked (s : State) (i : Nat) : slotKey (slotOf (slotsRemasked s) i) = slotKey (slotOf s i) ∧
    (slotOf (slotsRemasked s) i).state = (slotOf s i).state ∧ (slotOf (slotsRemasked s) i).uses = (slotOf s i).uses :=
  ⟨foldl_keeps (fun u => slotKey (slotOf u i)) (fun u j => (slotOf_remasked u j i).1) _ s,
    foldl_keeps (fun u => (slotOf u i).state) (fun u j => (slotOf_remasked u j i).2.1) _ s,
    foldl_keeps (fun u => (slotOf u i).uses) (fun u j => (slotOf_remasked u j i).2.2) _ s⟩

theorem exec_slotRemask {s : State} (hruns : spRuns s = true) (hdrbg : drbgOk s = true) : exec .slotRemask s =
    .next { slotsRemasked s with sp := { (slotsRemasked s).sp with remasks := (slotsRemasked s).sp.remasks + 1 } } := by
  change execSlotRemask s = _
  unfold execSlotRemask
  dsimp only
  rw [if_neg (by simp [hruns]), if_neg (by simp [hdrbg])]
  rfl

/-- Settles O47: a loaded slot by `loadSlot_spec`, an emptied one by `emptySlot_spec`; the re-mask keeps every key slot by slot
(`slotOf_remasked`). -/
theorem keySlotsLoadEraseAndRemask : Obligations.KeySlotsLoadEraseAndRemask := by
  refine ⟨fun sess session slot cls o key v x s hv howner hx ho hst hcls hslot hempty hdrbg => ?_,
    fun sess slot v x s hv howner hx ho hcls hst => ?_, fun slot s hst hbound => ?_, fun s hruns hdrbg => ?_⟩
  · have hexec : exec (.keyImport sess session slot cls key) s = execKeyImport sess session slot cls key s := rfl
    unfold execKeyImport at hexec
    rw [request_of_vendor _ hv howner] at hexec
    dsimp only at hexec
    rw [hx] at hexec
    dsimp only at hexec
    rw [ho] at hexec
    dsimp only at hexec
    rw [if_neg hst, if_neg (by simp [hdrbg]), if_neg (by omega), if_neg (by omega), if_pos hempty] at hexec
    obtain ⟨hl, hkey, hc, how, hs, hgen, hne⟩ := loadSlot_spec s slot cls key x.partition session o 2 (2 ^ 32)
    exact ⟨_, hexec, answered_answerSp .., hl, hkey, hc, how, hs, hgen, hne, (answerSp_mem ..).trans (loadSlot_mem ..), loadSlot_keyCtxs s slot cls key x.partition session o 2 (2 ^ 32)⟩
  · have hexec : ∀ imm, exec (.slotErase sess slot imm) s = execSlotErase sess slot imm s := fun _ => rfl
    unfold execSlotErase at hexec
    obtain ⟨hem, hzero, -⟩ := emptySlot_spec (dropUses s slot) slot
    refine ⟨?_, hem, hzero, ?_⟩
    · rw [hexec, request_of_vendor _ hv howner]
      dsimp only
      rw [if_neg (by rw [hx]; rcases hcls with h | h <;> simp [ho, h, hst]), if_pos rfl]
    · have hexec := hexec false
      rw [request_of_vendor _ hv howner] at hexec
      dsimp only at hexec
      rw [if_neg (by rw [hx]; rcases hcls with h | h <;> simp [ho, h, hst]), if_neg (by decide)] at hexec
      refine ⟨_, hexec, answered_answerSp .., ?_, fun i hi => slotOf_setSlot_ne _ _ _ _ hi, rfl⟩
      rw [slotOf_answerSp, eraseSlot, modSlot, slotOf_setSlot, if_pos hst]
  · obtain ⟨hem, hzero, hgen⟩ := emptySlot_spec s slot
    refine ⟨?_, hzero, hem, hgen⟩
    change execSlotZeroize slot s = _
    simp [execSlotZeroize, hst, hbound]
  · exact ⟨_, exec_slotRemask hruns hdrbg, slotOf_slotsRemasked s, foldl_keeps (f := remasked) (·.mem) (fun _ _ => rfl) _ s,
      foldl_keeps (f := remasked) (·.sp.keyCtxs) (fun _ _ => rfl) _ s, congrArg (· + 1) (foldl_keeps (f := remasked) (·.sp.remasks) (fun _ _ => rfl) _ s)⟩

/-! ### O48: key contexts -/

/-- An activated context is active with its slot under the next generation, no other context with it, and no slot but for pins. -/
theorem activateKey_spec (s : State) (key cls part ses role slot : Nat) :
    keyOf (activateKey s key cls part ses role slot) key =
      { state := .active, cls := cls, partition := part, session := ses, role := role, slotCur := slot, gen := (keyOf s key).gen + 1, sandAt := 0xC0000000000 } ∧
    (∀ k, k ≠ key → keyOf (activateKey s key cls part ses role slot) k = keyOf s k) ∧
    (slotOf (activateKey s key cls part ses role slot) slot).state = (slotOf s slot).state := by
  unfold activateKey
  dsimp only
  refine ⟨?_, fun k hk => ?_, ?_⟩
  · rw [keyOf_congr (pin_keyCtxs ..), keyOf_setKey]
  · rw [keyOf_congr (pin_keyCtxs ..), keyOf_setKey_ne _ _ _ _ hk]
  · rw [pin, modSlot, slotOf_setSlot]
    rfl

theorem activateKey_sessions (s : State) (key cls part ses role slot : Nat) : (activateKey s key cls part ses role slot).sp.sessions = s.sp.sessions := rfl
theorem activateKey_mem (s : State) (key cls part ses role slot : Nat) : (activateKey s key cls part ses role slot).mem = s.mem := rfl
theorem clearReplay_sessions (s : State) (key : Nat) : (clearReplay s key).sp.sessions = s.sp.sessions := rfl
theorem loadSlot_sessions (s : State) (slot cls : Nat) (key : BitVec 256) (part ses owner expiry limit : Nat) :
    (loadSlot s slot cls key part ses owner expiry limit).sp.sessions = s.sp.sessions :=
  loadSlot_keeps (·.sp.sessions) (fun _ _ _ => rfl) (fun _ => rfl) ..

/-- A bound Lath index is active under its roll count, which its session has on record with what it has used before. -/
theorem bindLath_spec {s : State} {ses : Nat} {x : Session} (key part role count : Nat) (ss : BitVec 384)
    (hslot : (freeSlot s).isSome = true) (hx : sesOf s ses = some x) :
    sesOf (bindLath s key part ses role count ss) ses = some { x with rolls := tins x.rolls role (max count (tget 0 x.rolls role)) } ∧
    (keyOf (bindLath s key part ses role count ss) key).roll = count ∧ (keyOf (bindLath s key part ses role count ss) key).state = .active := by
  obtain ⟨slot, hslot⟩ := Option.isSome_iff_exists.1 hslot
  unfold bindLath
  rw [hslot]
  dsimp only
  generalize deriveKey (leBytes 48 ss.toNat) "ZEL-LATH".toList (leBytes 1 role ++ leBytes 4 count) = k
  have hses : sesOf (clearReplay (activateKey (loadSlot s slot 1 k part ses 0 2 (2 ^ 48 - 1)) key 2 part ses role slot) key) ses = some x := by
    refine (sesOf_congr ?_ ses).trans hx
    rw [clearReplay_sessions, activateKey_sessions, loadSlot_sessions]
  obtain ⟨hkey, -, -⟩ := activateKey_spec (loadSlot s slot 1 k part ses 0 2 (2 ^ 48 - 1)) key 2 part ses role slot
  generalize activateKey (loadSlot s slot 1 k part ses 0 2 (2 ^ 48 - 1)) key 2 part ses role slot = u at hses hkey ⊢
  rw [hses]
  dsimp only
  refine ⟨sesOf_setSes .., ?_, ?_⟩
  · rw [modKey, keyOf_setKey]
  · rw [modKey, keyOf_setKey]
    exact congrArg (·.state) hkey

theorem keyOf_answerSp (s : State) (st : Status) (data : List Nat) (bytes : Bytes) (k : Nat) : keyOf (answerSp s st data bytes) k = keyOf s k := rfl
theorem modKey_mem (s : State) (k : Nat) (f : KeyCtx → KeyCtx) : (modKey s k f).mem = s.mem := rfl

section
variable {sess session role a : Nat} {v : Spdm} {x : Session} {r : Role} {s : State} (hv : Vendor s sess v) (hiss : isIssuer s v = true)
  (hx : sesOf s session = some x) (hrole : lathRole x role = some r) (hact : pairActive s r.lkey = some a) (hst : x.state ≠ .ended)
  (hses : (keyOf s a).session = session)
include hv hiss hx hrole hact hst hses

theorem exec_keyRollInstall_of_free {ss : BitVec 384} (hss : x.ss = some ss)
    (hfree : (keyOf s (if a = r.lkey then r.lkey + 1 else r.lkey)).state = .free) (hslot : (freeSlot s).isSome = true) (hdrbg : drbgOk s = true) :
    exec (.keyRollInstall sess session role ((keyOf s a).roll + 1)) s = .next (answerSp (pumpEverything
      (bindLath s (if a = r.lkey then r.lkey + 1 else r.lkey) x.partition session role ((keyOf s a).roll + 1) ss)) .ok [] []) := by
  change execKeyRollInstall sess session role ((keyOf s a).roll + 1) s = _
  unfold execKeyRollInstall
  rw [request_of_vendor _ hv hiss]
  dsimp only
  rw [hx]
  dsimp only
  rw [hrole, hss]
  dsimp only
  rw [hact]
  dsimp only
  rw [if_neg (by simp [hst, hses]), if_neg (by simp), if_neg (by rw [hfree]; simp), if_neg (by simp [hdrbg]),
    if_neg (by simpa using Option.isSome_iff_ne_none.1 hslot)]

theorem exec_keyRollRetire_of_active (hold : (keyOf s (if a = r.lkey then r.lkey + 1 else r.lkey)).state = .active) :
    exec (.keyRollRetire sess session role) s = .next (answerSp (modKey s (if a = r.lkey then r.lkey + 1 else r.lkey)
      (fun c => { c with retire := some s.fab.plumb.time })) .ok [] []) := by
  change execKeyRollRetire sess session role s = _
  unfold execKeyRollRetire
  rw [request_of_vendor _ hv hiss]
  dsimp only
  rw [hx]
  dsimp only
  rw [hrole]
  dsimp only
  rw [hact]
  dsimp only
  rw [if_neg (by simp [hst, hses]), if_neg (by rw [hold]; simp)]

end

/-- Settles O48: a bound index by `activateKey_spec` and `bindLath_spec`, an erased one by `zeroizeKey_spec`; the checks of each
request pass by its hypotheses. -/
theorem keyContextsBindRollAndErase : Obligations.KeyContextsBindRollAndErase := by
  refine ⟨fun sess part session key role slot v x r s hv hiss hx hr hst hpart hrange hfree hcls hdrbg hslot => ?_,
    fun sess part session role v x r ss s hv hiss hx hr hst hpart hrange hrange1 hfree hfree1 hcls hdrbg hss hslots => ?_,
    fun key part session role count ss x s hslot hx => ?_, fun sess key v s hv hallow hkey hst => ?_,
    fun sess session role a v x r ss s hv hiss hx hrole hss hact hst hses => ?_, fun sess key v s hv hallow hkey hst hcls => ?_⟩
  · have hexec : exec (.keyCtxBind sess part session key role) s = execKeyCtxBind sess part session key role s := rfl
    unfold execKeyCtxBind at hexec
    rw [request_of_vendor _ hv hiss] at hexec
    dsimp only at hexec
    rw [hx] at hexec
    dsimp only at hexec
    rw [hr] at hexec
    dsimp only at hexec
    rw [if_neg (by simp [hst, hpart, hrange, hfree]), if_neg hcls, if_neg (by simp [hdrbg]), hslot] at hexec
    obtain ⟨hkey, hne, hs⟩ := activateKey_spec (loadSlot (draw s).2 slot 0 ((draw s).1.truncate 256) part session 0 2 (2 ^ 48 - 1)) key r.kclass part
      session role slot
    refine ⟨_, hexec, answered_answerSp .., ?_⟩
    rw [keyOf_answerSp, hkey, slotOf_answerSp, hs, slotOf_loadSlot, answerSp_mem, activateKey_mem, loadSlot_mem, draw_mem,
      keyOf_congr (loadSlot_keyCtxs ..)]
    refine ⟨rfl, rfl, rfl, rfl, rfl, rfl, rfl, rfl, fun k hk => ?_, rfl⟩
    rw [keyOf_answerSp, hne k hk, keyOf_congr (loadSlot_keyCtxs ..)]
    rfl
  · intro c
    have hexec : exec (.keyCtxBind sess part session r.lkey role) s = execKeyCtxBind sess part session r.lkey role s := rfl
    unfold execKeyCtxBind at hexec
    rw [request_of_vendor _ hv hiss] at hexec
    dsimp only at hexec
    rw [hx] at hexec
    dsimp only at hexec
    rw [hr] at hexec
    dsimp only at hexec
    rw [if_neg (by simp [hst, hpart, hrange, hfree]), if_pos hcls, if_neg (by simp [hrange1, hfree1]), if_neg (by simp [hdrbg]), hss] at hexec
    dsimp only at hexec
    rw [if_neg (Nat.not_lt.2 hslots)] at hexec
    exact hexec
  · obtain ⟨hses, hroll, hact⟩ := bindLath_spec key part role count ss hslot hx
    have hrolls : tget 0 (tins x.rolls role (max count (tget 0 x.rolls role))) role = max count (tget 0 x.rolls role) := by
      rw [tget, tlook_tins_same]
      rfl
    exact ⟨_, hses, (le_max_left _ _).trans_eq hrolls.symm, (le_max_right _ _).trans_eq hrolls.symm, hroll, hact⟩
  · intro u
    obtain ⟨hz, -, -, -⟩ := zeroizeKey_spec u key
    have hall : (isIssuer s v || ownsSession s v (keyOf s key).session) = true := by simpa using hallow
    refine ⟨?_, hz, fun ctx => ?_, ?_⟩
    · change execKeyCtxErase sess key true s = _
      unfold execKeyCtxErase
      rw [request_of_vendor _ hv hall]
      dsimp only
      rw [if_neg (by simp [hkey, hst]), if_pos rfl]
    · rw [memKeyCheck, if_neg (by omega), if_pos (by omega)]
    · have hexec : exec (.keyCtxErase sess key false) s = execKeyCtxErase sess key false s := rfl
      unfold execKeyCtxErase at hexec
      rw [request_of_vendor _ hv hall] at hexec
      dsimp only at hexec
      rw [if_neg (by simp [hkey, hst]), if_neg (by decide)] at hexec
      refine ⟨_, hexec, answered_answerSp .., ?_, ?_⟩
      · rw [keyOf_answerSp, modKey, keyOf_setKey]
      · rw [answerSp_mem, modKey_mem]
        split <;> rfl
  · intro partner
    refine ⟨fun hfree hslot hdrbg => ⟨exec_keyRollInstall_of_free hv hiss hx hrole hact hst hses hss hfree hslot hdrbg, ?_⟩,
      exec_keyRollRetire_of_active hv hiss hx hrole hact hst hses⟩
    exact (bindLath_spec partner x.partition role ((keyOf s a).roll + 1) ss hslot hx).2
  · change execSandStart sess key s = _
    unfold execSandStart
    rw [request_of_vendor _ hv (by simpa using hallow)]
    dsimp only
    rw [if_neg (by simp [hst]), if_neg (by simp [hkey, hst, hcls])]

end Sys2Proof.Machine
end

section
/-! SUPPORT. Checkpoints (chapter 13). -/

namespace Sys2Proof.Machine
open Sys2Proof

/-! ### O49: checkpoints

What the helpers of a capture and a restore leave as it is, and how each of them ends. -/

/-- Dropping the packets of a request touches the Lath unit alone. -/
theorem dropLinkRequests_keeps {β : Type} (π : State → β) (hfab : ∀ s f, π { s with fab := f } = π s) (s : State) (i : Nat) :
    π (dropLinkRequests s i) = π s := by
  unfold dropLinkRequests
  split
  · exact foldl_keeps π (fun s _ => hfab s _) _ s
  · rfl

theorem dropLinkRequests_mem (s : State) (i : Nat) : (dropLinkRequests s i).mem = s.mem := dropLinkRequests_keeps (·.mem) (fun _ _ => rfl) s i
theorem sesOf_dropLinkRequests (s : State) (i j : Nat) : sesOf (dropLinkRequests s i) j = sesOf s j :=
  sesOf_congr (dropLinkRequests_keeps (·.sp.sessions) (fun _ _ => rfl) s i) j

theorem freeSes_mem (s : State) (i : Nat) : (freeSes s i).mem = s.mem := by
  unfold freeSes
  split <;> rfl
theorem sesOf_freeSes {s : State} {i : Nat} {v : Session} (h : sesOf s i = some v) :
    sesOf (freeSes s i) i = some { v with capture := none, restore := none, ckptBusy := false } := by
  unfold freeSes
  rw [h]
  exact sesOf_setSes ..

theorem sesOf_endUse (s : State) (slot i : Nat) : sesOf (endUse s slot) i = sesOf s i := by
  unfold endUse
  dsimp only
  split <;> rfl

theorem sesOf_answerSp (s : State) (st : Status) (data : List Nat) (bytes : Bytes) (i : Nat) : sesOf (answerSp s st data bytes) i = sesOf s i := rfl

theorem captureOf_of_ses {s : State} {i : Nat} {v : Session} (h : sesOf s i = some v) : captureOf s i = v.capture := by rw [captureOf, h]; rfl
theorem restoreOf_of_ses {s : State} {i : Nat} {v : Session} (h : sesOf s i = some v) : restoreOf s i = v.restore := by rw [restoreOf, h]; rfl

/-! #### Captures -/

theorem contains_filter_not (l c : List Nat) (g : Nat) : (l.filter (fun x => !c.contains x)).contains g = (l.contains g && !c.contains g) := by
  rw [Bool.eq_iff_iff]
  simp

/-- A capture that fails answers its status, gives its dirty bits back, and leaves the chain of its session. -/
theorem captureFail_spec {s : State} {i : Nat} {v : Session} {c : Capture} (st : Status) (hv : sesOf s i = some v) (hc : v.capture = some c) :
    Answered (captureFail s i st) st [] [] ∧
    (captureFail s i st).mem = { s.mem with clean := s.mem.clean.filter (fun g => !c.cleared.contains g) } ∧
    sesOf (captureFail s i st) i = some { v with capture := none, restore := none, ckptBusy := false } := by
  have hmem : (endUse (freeSes (dropLinkRequests s i) i) (capSlot c.operands)).mem = s.mem := by
    rw [endUse_mem, freeSes_mem, dropLinkRequests_mem]
  have hses : sesOf (endUse (freeSes (dropLinkRequests s i) i) (capSlot c.operands)) i = some { v with capture := none, restore := none, ckptBusy := false } := by
    rw [sesOf_endUse]
    exact sesOf_freeSes ((sesOf_dropLinkRequests ..).trans hv)
  unfold captureFail
  rw [captureOf_of_ses hv, hc]
  dsimp only
  generalize endUse (freeSes (dropLinkRequests s i) i) (capSlot c.operands) = u at hmem hses ⊢
  rw [hmem]
  exact ⟨answered_answerSp .., rfl, hses⟩

/-- A capture whose manifest has been written takes its chain. -/
theorem captureDone_spec {s : State} {i : Nat} {v : Session} (c : Capture) (chain : Chain) (len : Nat) (d : Digest) (hv : sesOf s i = some v) :
    Answered (captureDone s i c chain len d) .ok [len] (digestBytes d) ∧ (captureDone s i c chain len d).mem = s.mem ∧
    sesOf (captureDone s i c chain len d) i = some { v with capture := none, ckptBusy := false, chain := some chain } := by
  unfold captureDone
  rw [hv]
  dsimp only
  rw [answerSp_mem, endUse_mem, sesOf_answerSp, sesOf_endUse, sesOf_setSes]
  exact ⟨answered_answerSp .., rfl, rfl⟩

/-! #### Restores -/

theorem restoreEnd_mem (s : State) (i : Nat) (st : Status) (bytes : Bytes) : (restoreEnd s i st bytes).mem = s.mem := by
  unfold restoreEnd
  split
  · rfl
  · rw [answerSp_mem]
    split
    · rw [freeSes_mem, dropLinkRequests_mem]
    · rw [endUse_mem, freeSes_mem, dropLinkRequests_mem]

theorem restoreEnd_spec {s : State} {i : Nat} {v : Session} {r : Restore} (st : Status) (bytes : Bytes) (hv : sesOf s i = some v)
    (hr : v.restore = some r) : Answered (restoreEnd s i st bytes) st [] bytes ∧
    sesOf (restoreEnd s i st bytes) i = some { v with capture := none, restore := none, ckptBusy := false } := by
  have hses := sesOf_freeSes ((sesOf_dropLinkRequests s i i).trans hv)
  unfold restoreEnd
  rw [restoreOf_of_ses hv, hr]
  dsimp only
  refine ⟨answered_answerSp .., ?_⟩
  rw [sesOf_answerSp]
  split
  · exact hses
  · rw [sesOf_endUse]
    exact hses

/-- Priming granules changes memory alone, and the granules named are primed. -/
theorem primed_keeps {β : Type} (π : State → β) (hmem : ∀ s m, π { s with mem := m } = π s) (l : List Nat) (s : State) :
    π (l.foldl primeGranule s) = π s :=
  foldl_keeps π (fun s _ => hmem s _) l s

theorem tlook_primed {l : List Nat} {g : Nat} (s : State) (h : g ∈ l ∨ tlook s.mem.granules g = none) :
    tlook (l.foldl primeGranule s).mem.granules g = none := by
  induction l generalizing s with
  | nil => exact h.resolve_left List.not_mem_nil
  | cons k l ih =>
    refine ih _ ?_
    by_cases hk : g = k
    · exact .inr (hk ▸ tlook_tdel_same ..)
    · exact h.imp (fun h => (List.mem_cons.1 h).resolve_left hk) (fun h => (tlook_tdel_ne _ _ _ hk).trans h)

/-- What a failing restore has primed when its end is answered. -/
def failPrimed (s : State) (r : Restore) (st : Status) : State :=
  match (targetsOf r.targets)[r.region]? with
  | some t => if !r.verify && !r.manifest.isEmpty && (st == .tagMismatch || st == .keyRevoked) then (t.phys s r.context).foldl primeGranule s else s
  | none => s

theorem restoreFail_eq {s : State} {i : Nat} {v : Session} {r : Restore} (st : Status) (hv : sesOf s i = some v) (hr : v.restore = some r) :
    restoreFail s i st = restoreEnd (failPrimed s r st) i st [] := by
  unfold restoreFail
  rw [restoreOf_of_ses hv, hr]
  rfl

theorem sesOf_failPrimed (s : State) (r : Restore) (st : Status) (i : Nat) : sesOf (failPrimed s r st) i = sesOf s i := by
  unfold failPrimed
  split
  · split
    · exact sesOf_congr (primed_keeps (·.sp.sessions) (fun _ _ => rfl) _ s) i
    · rfl
  · rfl

/-- A verification, and a request whose manifest has not been read, prime nothing. -/
theorem failPrimed_of_idle {s : State} {r : Restore} (st : Status) (h : r.verify = true ∨ r.manifest = []) : failPrimed s r st = s := by
  unfold failPrimed
  have hno : (!r.verify && !r.manifest.isEmpty && (st == .tagMismatch || st == .keyRevoked)) = false := by
    rcases h with h | h <;> simp [h]
  rw [hno]
  split <;> rfl

/-- A restore that fails answers its status. -/
theorem restoreFail_spec {s : State} {i : Nat} {v : Session} {r : Restore} (st : Status) (hv : sesOf s i = some v) (hr : v.restore = some r) :
    Answered (restoreFail s i st) st [] [] ∧ (restoreFail s i st).mem = (failPrimed s r st).mem := by
  rw [restoreFail_eq st hv hr]
  exact ⟨(restoreEnd_spec st [] ((sesOf_failPrimed ..).trans hv) hr).1, restoreEnd_mem ..⟩

theorem modRestore_mem (s : State) (i : Nat) (f : Restore → Restore) : (modRestore s i f).mem = s.mem := by
  unfold modRestore
  split
  · unfold putRestore
    split <;> rfl
  · rfl

theorem sesOf_modRestore {s : State} {i : Nat} {v : Session} {r : Restore} (f : Restore → Restore) (hv : sesOf s i = some v)
    (hr : v.restore = some r) : sesOf (modRestore s i f) i = some { v with restore := some (f r) } := by
  unfold modRestore
  rw [restoreOf_of_ses hv, hr]
  dsimp only
  rw [putRestore, hv]
  exact sesOf_setSes ..

/-! #### Requests -/

theorem useSlot_of_loaded {s : State} {slot cls ses : Nat} (hst : (slotOf s slot).state = .loaded) (hcls : (slotOf s slot).cls = cls)
    (hses : (slotOf s slot).session = ses) (hlim : (slotOf s slot).uses < (slotOf s slot).limit) :
    useSlot s slot cls ses = (.ok, setSlot s slot { slotOf s slot with uses := (slotOf s slot).uses + 1 }) := by
  unfold useSlot
  dsimp only
  rw [if_neg (by simp [hst]), if_neg (by simp [hst, hcls, hses]), if_neg (Nat.not_le.2 hlim)]

section
variable {sess session : Nat} {b : Bytes} {v : Spdm} {x : Session} {s : State} (hv : Vendor s sess v)
  (hallow : isIssuer s v = true ∨ ownsSession s v session = true) (hx : sesOf s session = some x) (hst : x.state ≠ .ended)
include hv hallow hx hst

/-- The checks of a capture in their order (R332). -/
theorem exec_ckptCapture : exec (.ckptCapture sess session b) s = .next (
    if x.ckptBusy then answerSp s .busy [] []
    else if !captureFieldsOk s x b then answerSp s .descInvalid [] []
    else if !captureAllowed s session b then answerSp s .policyDenied [] []
    else if !diffBaseOk x b then answerSp s .descInvalid [] []
    else if !drbgOk s then answerSp s .entropyNotReady [] []
    else if (rootBank s).isNone then answerSp s .notReady [] []
    else startCapture s sess session b) := by
  change execCkptCapture sess session b s = _
  unfold execCkptCapture
  rw [request_of_vendor _ hv (by simpa using hallow), hx]
  dsimp only
  rw [if_neg hst]

/-- The checks of a restore or verification that need no manifest, in their order (R341). -/
theorem exec_ckptStart (verify : Bool) (ctx : Nat) (targets : Bytes) (src : CkptSource) :
    exec (if verify then .ckptVerify sess session ctx targets src else .ckptRestore sess session ctx targets src) s = .next (
      if x.ckptBusy then answerSp s .busy [] []
      else if !restoreOperandsOk targets src then answerSp s .descInvalid [] []
      else if !boundContext s session ctx || !placeKeyOk s session src.source src.key then answerSp s .policyDenied [] []
      else setSes s session { x with ckptBusy := true, asker := some sess,
                                     restore := some { verify := verify, context := ctx, targets := targets, source := src } }) := by
  have hstart : ∀ verify, startRestore s sess session x verify ctx targets src = _ := fun verify => by
    rw [startRestore, if_neg hst]
  cases verify
  · change execCkptRestore sess session ctx targets src s = _
    unfold execCkptRestore
    rw [request_of_vendor _ hv (by simpa using hallow), hx]
    exact congrArg _ (hstart false)
  · change execCkptVerify sess session ctx targets src s = _
    unfold execCkptVerify
    rw [request_of_vendor _ hv (by simpa using hallow), hx]
    exact congrArg _ (hstart true)

end

/-- An accepted capture without a step record stands in its session with its granules picked. -/
theorem startCapture_spec {s : State} {sess i : Nat} {b : Bytes} {x : Session} (hx : sesOf s i = some x) (hok : captureAllowed s i b = true)
    (hlim : (slotOf s (capSlot b)).uses < (slotOf s (capSlot b)).limit) (hstep : capStepVa b = 0) :
    ∃ c, sesOf (startCapture s sess i b) i = some { x with capture := some c, ckptBusy := true, asker := some sess } ∧ c.operands = b ∧ c.region = 0 ∧
      c.cleared = [] ∧ c.picks = (captureRegions b).map (taken s (capContext b) (capKind b == 1)) ∧ (startCapture s sess i b).mem = s.mem := by
  unfold captureAllowed at hok
  simp only [Bool.and_eq_true, beq_iff_eq] at hok
  obtain ⟨⟨⟨⟨⟨-, hcls⟩, hst⟩, hses⟩, -⟩, -⟩ := hok
  have hcommit : ∀ u : State, commitStep u b = (.ok, 2 ^ 64 - 1, u) := fun u => by rw [commitStep, if_pos hstep]
  have hses' : ∀ (w : Slot) (f : Slot → Slot), sesOf (modSlot (draw (setSlot s (capSlot b) w)).2 (capSlot b) f) i = some x := fun _ _ => hx
  unfold startCapture
  dsimp only
  rw [useSlot_of_loaded hst hcls hses hlim]
  dsimp only
  rw [hcommit]
  dsimp only
  rw [hses']
  refine ⟨_, sesOf_setSes .., ?_, ?_, ?_, ?_, ?_⟩
  · rfl
  · rfl
  · rfl
  · rfl
  · rw [setSes_mem]
    rfl

/-! #### The manifest of a restore -/

section
variable {s : State} {i : Nat} {v : Session} {r : Restore} (hv : sesOf s i = some v) (hr : v.restore = some r)
include hv hr

/-- A request whose manifest is not in order is answered DESC_INVALID, with nothing primed. -/
theorem restoreFail_before (hman : r.manifest = []) (st : Status) :
    Answered (restoreFail s i st) st [] [] ∧ (restoreFail s i st).mem = s.mem := by
  obtain ⟨hans, hmem⟩ := restoreFail_spec st hv hr
  exact ⟨hans, hmem.trans (by rw [failPrimed_of_idle st (.inr hman)])⟩

theorem restoreFail_of_verify (hver : r.verify = true) (st : Status) : (restoreFail s i st).mem = s.mem :=
  (restoreFail_spec st hv hr).2.trans (by rw [failPrimed_of_idle st (.inl hver)])

omit hr in
/-- A manifest that passes the checks before its key is unwrapped: the key of its slot decides. -/
theorem restoreStart_of_slot {b : Bytes} {slot : Nat} (hfields : restoreFieldsOk s r.context r.targets b = true)
    (hallow : restoreAllowed s i v r.context r.targets r.source b = some slot) (hst : (slotOf s slot).state = .loaded)
    (hcls : (slotOf s slot).cls = 5) (hses : (slotOf s slot).session = i) (hlim : (slotOf s slot).uses < (slotOf s slot).limit) :
    ∃ w : State, sesOf w i = some v ∧ w.mem = s.mem ∧
      (aesUnwrap (slotKey (slotOf s slot)) (slice b 0x40 40) = none → restoreStart s i v r b = restoreFail w i .tagMismatch) ∧
      ∀ ck, aesUnwrap (slotKey (slotOf s slot)) (slice b 0x40 40) = some ck →
        (restoreBaseOk v r.context r.targets b = false → restoreStart s i v r b = restoreFail w i .descInvalid) ∧
        (restoreBaseOk v r.context r.targets b = true → restoreStart s i v r b =
          modRestore (modSlot w slot (fun w => { w with bound := w.bound + 1 })) i (fun r => { r with manifest := b, slot := slot, ck := ck })) := by
  refine ⟨setSlot s slot { slotOf s slot with uses := (slotOf s slot).uses + 1 }, hv, rfl, ?_⟩
  have hkey : slotKey (slotOf (setSlot s slot { slotOf s slot with uses := (slotOf s slot).uses + 1 }) slot) = slotKey (slotOf s slot) := by
    rw [slotOf_setSlot]
    rfl
  unfold restoreStart
  rw [if_neg (by simp [hfields]), hallow]
  dsimp only
  rw [useSlot_of_loaded hst hcls hses hlim]
  dsimp only
  rw [hkey]
  refine ⟨fun h => by rw [h], fun ck h => ⟨fun hb => ?_, fun hb => ?_⟩⟩
  · rw [h]
    dsimp only
    rw [if_pos (by simp [hb])]
  · rw [h]
    dsimp only
    rw [if_neg (by simp [hb])]

/-- A verification changes no memory by its manifest, whatever the checks find. -/
theorem restoreStart_mem (hver : r.verify = true) (b : Bytes) : (restoreStart s i v r b).mem = s.mem := by
  have huse : ∀ slot, (useSlot s slot 5 i).2.mem = s.mem ∧ sesOf (useSlot s slot 5 i).2 i = some v := fun slot => by
    unfold useSlot
    dsimp only
    split
    · exact ⟨rfl, hv⟩
    · split
      · exact ⟨rfl, hv⟩
      · split
        · exact ⟨rfl, hv⟩
        · exact ⟨rfl, hv⟩
  unfold restoreStart
  split
  · exact restoreFail_of_verify hv hr hver _
  · split
    · exact restoreFail_of_verify hv hr hver _
    · next slot _ =>
      obtain ⟨hm, hs⟩ := huse slot
      split
      next w hw =>
        rw [hw] at hm hs
        split
        · exact (restoreFail_of_verify hs hr hver _).trans hm
        · split
          · exact (restoreFail_of_verify hs hr hver _).trans hm
          · exact (modRestore_mem ..).trans hm
      next w _ hw =>
        rw [hw] at hm hs
        exact (restoreFail_of_verify hs hr hver _).trans hm

end

/-! #### The work of a restore -/

theorem sourceBytes_of_host {r : Restore} (h : r.source.source = 0) (s : State) (i off n : Nat) :
    sourceBytes s i r off n = (some (.ok, slice r.source.host off n), s) := by
  unfold sourceBytes
  dsimp only
  rw [h]
  rfl

section
variable {s w : State} {i g : Nat} {r : Restore} {t : Region} {rest : List Nat} {b : Bytes} (hsrc : sourceBytes s i r r.off 65600 = (some (.ok, b), w))
include hsrc

/-- A granule that fails its tag or its digest ends the restore. -/
theorem restoreGranule_of_bad (h : openObject r.ck r.region 0 g (objectAad r.manifest) b = none ∨
    ∃ p, openObject r.ck r.region 0 g (objectAad r.manifest) b = some p ∧ r.entries[g]? ≠ some (Config.sha384 p)) :
    restoreGranule s i r t g rest = restoreFail w i .tagMismatch := by
  unfold restoreGranule
  rw [hsrc]
  dsimp only
  rw [if_neg (by simp)]
  rcases h with h | ⟨p, h, hd⟩
  · rw [h]
  · rw [h]
    exact if_pos hd

variable {p : Bytes} (hopen : openObject r.ck r.region 0 g (objectAad r.manifest) b = some p) (hd : r.entries[g]? = some (Config.sha384 p))
include hopen hd

theorem restoreGranule_of_written {u : State} (hver : r.verify = false)
    (hw : vwrite w r.context t.key (t.va + 65536 * g) p ((keyOf w t.key).cls == 1) = (.ok, u)) :
    restoreGranule s i r t g rest = modRestore u i (fun r => { r with todo := rest, off := r.off + 65600, since := u.ns }) := by
  unfold restoreGranule
  rw [hsrc]
  dsimp only
  rw [if_neg (by simp), hopen]
  dsimp only
  have hwrite : (if r.verify = true then (Status.ok, w)
      else vwrite w r.context t.key (t.va + 65536 * g) p ((keyOf w t.key).cls == 1)) = (.ok, u) := by rw [hver, hw]; rfl
  rw [if_neg (by simp [hd]), hwrite]
  exact if_neg (by simp)

theorem restoreGranule_of_verified (hver : r.verify = true) :
    restoreGranule s i r t g rest = modRestore w i (fun r => { r with todo := rest, off := r.off + 65600, since := w.ns }) := by
  unfold restoreGranule
  rw [hsrc]
  dsimp only
  rw [if_neg (by simp), hopen]
  dsimp only
  rw [if_neg (by simp [hd]), if_pos hver]
  exact if_neg (by simp)

end

/-! #### The end of a restore -/

/-- Numbers gathered once each, unless the list stands them already. -/
theorem mem_gathered {have' : List Nat} {g : Nat} (l : List Nat) (acc : List Nat) (h : g ∈ l ∨ g ∈ acc) :
    g ∈ have' ++ l.foldl (fun (a : List Nat) g => if a.contains g || have'.contains g then a else g :: a) acc ∨ g ∈ have' := by
  induction l generalizing acc with
  | nil => exact .inl (List.mem_append_right _ (h.resolve_left List.not_mem_nil))
  | cons k l ih =>
    rw [List.foldl_cons]
    by_cases hin : g ∈ have'
    · exact .inr hin
    · refine ih _ ?_
      rcases h with h | h
      · rcases List.mem_cons.1 h with rfl | h
        · refine .inr ?_
          split
          next hc => exact (Bool.or_eq_true_iff.1 hc).elim List.contains_iff_mem.1 fun hc => absurd (List.contains_iff_mem.1 hc) hin
          next => exact List.mem_cons_self
        · exact .inl h
      · refine .inr ?_
        split
        · exact h
        · exact List.mem_cons_of_mem _ h

section
variable {s : State} {i : Nat} {v : Session} {r : Restore} (hv : sesOf s i = some v) (hr : v.restore = some r)
include hv hr

/-- A verification ends with its digest and changes nothing but the request's place. -/
theorem restoreDone_of_verify (hver : r.verify = true) : Answered (restoreDone s i v r) .ok [] (digestBytes (Config.sha384 r.manifest)) ∧
    (restoreDone s i v r).mem = s.mem ∧
    sesOf (restoreDone s i v r) i = some { v with capture := none, restore := none, ckptBusy := false } := by
  unfold restoreDone
  dsimp only
  rw [if_pos hver]
  obtain ⟨hans, hses⟩ := restoreEnd_spec .ok (digestBytes (Config.sha384 r.manifest)) hv hr
  exact ⟨hans, restoreEnd_mem .., hses⟩

omit hv hr in
/-- A restore ends with its digest and the chain of its targets. -/
theorem restoreDone_of_restore (hver : r.verify = false) : ∃ w : State,
    restoreDone s i v r = restoreEnd w i .ok (digestBytes (Config.sha384 r.manifest)) ∧
    sesOf w i = some { v with chain := some (chainRestored s (sesChain v r.context) r (Config.sha384 r.manifest)) } ∧
    w.mem.bytes = s.mem.bytes ∧
    (manifestKind r.manifest ≠ 2 → ∀ t ∈ targetsOf r.targets, ∀ g ∈ t.phys s r.context, w.mem.clean.contains g = true) := by
  unfold restoreDone
  dsimp only
  rw [if_neg (by simp [hver])]
  refine ⟨_, rfl, sesOf_setSes .., ?_, fun hk t ht g hg => ?_⟩
  · rw [setSes_mem]
    split <;> rfl
  · rw [setSes_mem, if_neg hk, List.contains_iff_mem]
    exact (mem_gathered _ [] (.inl (List.mem_flatMap.2 ⟨t, ht, hg⟩))).elim id (List.mem_append_left _)

end

/-! #### A verification writes nothing -/

section
variable {s : State} {i : Nat} {v : Session} {r : Restore} (hv : sesOf s i = some v) (hr : v.restore = some r) (hver : r.verify = true)
  (hsrc : r.source.source = 0)
include hv hr hver hsrc

theorem restoreList_mem (t : Region) : (restoreList s i r t).mem = s.mem := by
  unfold restoreList
  dsimp only
  rw [sourceBytes_of_host hsrc]
  dsimp only
  rw [if_neg (by simp)]
  split
  · exact restoreFail_of_verify hv hr hver _
  · rw [if_neg (by simp [hver])]
    exact modRestore_mem ..

theorem restoreGranule_mem (t : Region) (g : Nat) (rest : List Nat) : (restoreGranule s i r t g rest).mem = s.mem := by
  have hread := sourceBytes_of_host hsrc s i r.off 65600
  cases hopen : openObject r.ck r.region 0 g (objectAad r.manifest) (slice r.source.host r.off 65600) with
  | none => rw [restoreGranule_of_bad hread (.inl hopen), restoreFail_of_verify hv hr hver]
  | some p =>
    by_cases hd : r.entries[g]? = some (Config.sha384 p)
    · rw [restoreGranule_of_verified hread hopen hd hver, modRestore_mem]
    · rw [restoreGranule_of_bad hread (.inr ⟨p, hopen, hd⟩), restoreFail_of_verify hv hr hver]

omit hv hr hsrc in
theorem restoreRegionEnd_mem (t : Region) : (restoreRegionEnd s i r t).mem = s.mem := by
  unfold restoreRegionEnd
  rw [if_pos (by simp [hver])]
  dsimp only
  rw [if_neg (by simp)]
  exact modRestore_mem ..

/-- No action of a verification changes memory (R344). -/
theorem restoreStep_mem : (restoreStep s i v r).mem = s.mem := by
  unfold restoreStep
  split
  · exact restoreFail_of_verify hv hr hver _
  · split
    · rw [sourceBytes_of_host hsrc]
      dsimp only
      rw [if_neg (by simp)]
      exact restoreStart_mem hv hr hver _
    · split
      · exact (restoreDone_of_verify hv hr hver).2.1
      next t _ =>
        split
        · exact restoreList_mem hv hr hver hsrc t
        · split
          · split
            · rfl
            · exact restoreGranule_mem hv hr hver hsrc t _ _
          · exact restoreRegionEnd_mem hver t

end

theorem ckptStep_of_running {s : State} {i : Nat} {v : Session} (hdust : s.pow.dustSheet = false) (hdie : dieWaits s hubDie = false)
    (hv : sesOf s i = some v) : (∀ c, v.capture = some c → ckptStep s i = captureStep s i v c) ∧
    (∀ r, v.capture = none → v.restore = some r → ckptStep s i = restoreStep s i v r) := by
  unfold ckptStep
  rw [if_neg (by simp [hdust, hdie]), hv]
  exact ⟨fun c hc => by dsimp only; rw [hc], fun r hc hr => by dsimp only; rw [hc, hr]⟩

/-- Settles O49: the requests are their checks in order; each early or regular end is the spec lemma of its function above, and
every action of a verification keeps memory (`restoreStep_mem`). -/
theorem checkpointsCaptureRestoreAndVerify : Obligations.CheckpointsCaptureRestoreAndVerify := by
  refine ⟨⟨fun sess session b v x s hv hallow hx hst => ?_, fun i v c st s hv hc => ?_,
      fun i v c chain len d s hv hc hfail hidle hfin hdust hdie => ?_⟩,
    fun sess session ctx targets src v x s hv hallow hx hst => ?_, fun i slot v r b s hv hc hr hman => ⟨fun hf => ?_, fun hf ha => ?_,
      fun hf ha hsst hcls hses hlim => ⟨fun hun => ?_, fun ck hun => ⟨fun hbase => ?_, fun hbase => ?_⟩⟩⟩,
    fun i off n r s hsrc => sourceBytes_of_host hsrc s i off n, fun i g r t rest b s w hsrc => ?_,
    fun i v r t s hv hr hman ht => ⟨?_, fun hver g hg => ?_, fun hver => ?_⟩, fun i v r s hv hc hr => ?_,
    fun i v r s hv hc hr hver hsrc => ?_⟩
  · have hexec := exec_ckptCapture (b := b) hv hallow hx hst
    refine ⟨fun hb => ?_, fun hb => ⟨fun hf => ?_, fun hf ha => ?_, fun hf ha hd => ?_, fun hf ha hd hr hroot => ⟨?_, fun hlim hstep => ?_⟩⟩⟩
    · rw [hexec, if_pos hb]
    · rw [hexec, if_neg (by simp [hb]), if_pos (by simp [hf])]
    · rw [hexec, if_neg (by simp [hb]), if_neg (by simp [hf]), if_pos (by simp [ha])]
    · rw [hexec, if_neg (by simp [hb]), if_neg (by simp [hf]), if_neg (by simp [ha]), if_pos (by simp [hd])]
    · rw [hexec, if_neg (by simp [hb]), if_neg (by simp [hf]), if_neg (by simp [ha]), if_neg (by simp [hd]), if_neg (by simp [hr]),
        if_neg (by simpa using Option.isSome_iff_ne_none.1 hroot)]
    · obtain ⟨c, hses, hop, hreg, hcl, hpicks, hmem⟩ := startCapture_spec (sess := sess) hx ha hlim hstep
      exact ⟨_, c, hses, rfl, rfl, rfl, hop, hreg, hcl, hpicks, hmem⟩
  · obtain ⟨hans, hmem, hses⟩ := captureFail_spec st hv hc
    rw [hmem]
    exact ⟨hans, contains_filter_not _ _, rfl, _, hses, rfl, rfl, rfl⟩
  · have hstep : ckptStep s i = captureDone s i c chain len d := by
      rw [(ckptStep_of_running hdust hdie hv).1 c hc, captureStep, hfail]
      dsimp only
      rw [if_neg (by simp [hidle]), hfin]
    obtain ⟨hans, hmem, hses⟩ := captureDone_spec c chain len d hv
    rw [hstep]
    exact ⟨hans, hmem, _, hses, rfl, rfl, rfl⟩
  · intro both verify
    have hexec := fun verify => exec_ckptStart hv hallow hx hst verify ctx targets src
    refine ⟨fun hb => ?_, fun hb ho => ?_, fun hb ho hno => ?_, fun hb ho hctx hplace => ?_⟩
    · exact (hexec verify).trans (by rw [if_pos hb])
    · exact (hexec verify).trans (by rw [if_neg (by simp [hb]), if_pos (by simp [ho])])
    · exact (hexec verify).trans (by rw [if_neg (by simp [hb]), if_neg (by simp [ho]), if_pos (by simpa using hno)])
    · simp only [hb, ho, hctx, hplace, Bool.false_eq_true, Bool.not_true, Bool.or_self, if_false] at hexec
      exact ⟨⟨_, _, hexec false, sesOf_setSes .., rfl, rfl, rfl, rfl, rfl⟩, ⟨_, _, hexec true, sesOf_setSes .., rfl, rfl, rfl, rfl, rfl⟩⟩
  · rw [restoreStart, if_pos (by simp [hf])]
    exact restoreFail_before hv hr hman _
  · rw [restoreStart, if_neg (by simp [hf]), ha]
    exact restoreFail_before hv hr hman _
  · obtain ⟨w, hw, hmem, hbad, -⟩ := restoreStart_of_slot hv hf ha hsst hcls hses hlim
    rw [hbad hun]
    exact ⟨(restoreFail_before hw hr hman _).1, (restoreFail_before hw hr hman _).2.trans hmem⟩
  · obtain ⟨w, hw, hmem, -, hgood⟩ := restoreStart_of_slot hv hf ha hsst hcls hses hlim
    rw [(hgood ck hun).1 hbase]
    exact (restoreFail_before hw hr hman _).1
  · obtain ⟨w, hw, hmem, -, hgood⟩ := restoreStart_of_slot hv hf ha hsst hcls hses hlim
    rw [(hgood ck hun).2 hbase]
    exact ⟨_, sesOf_modRestore _ hw hr, rfl, rfl⟩
  · intro o
    exact ⟨restoreGranule_of_bad hsrc, fun p u ho hd => ⟨restoreGranule_of_written hsrc ho hd, restoreGranule_of_verified hsrc ho hd⟩⟩
  · exact (restoreFail_spec .tagMismatch hv hr).1
  · rw [(restoreFail_spec .tagMismatch hv hr).2, failPrimed, ht]
    dsimp only
    rw [if_pos (by simp [hver, hman])]
    exact tlook_primed s (.inl hg)
  · exact restoreFail_of_verify hv hr hver _
  · intro d
    cases hver : r.verify with
    | true =>
      obtain ⟨hans, hmem, hses⟩ := restoreDone_of_verify hv hr hver
      exact ⟨hans, congrArg (·.bytes) hmem, fun _ => ⟨hmem, _, hses, rfl⟩, fun h => absurd h (by decide)⟩
    | false =>
      obtain ⟨w, heq, hw, hbytes, hclean⟩ := restoreDone_of_restore (s := s) (i := i) (v := v) hver
      obtain ⟨hans, hses⟩ := restoreEnd_spec .ok (digestBytes d) hw hr
      rw [heq, restoreEnd_mem]
      refine ⟨hans, hbytes, fun h => absurd h (by decide), fun _ hk => ⟨hclean hk, _, _, hses, rfl, rfl, rfl, ?_⟩⟩
      rw [chainRestored, if_neg hk]
      refine ⟨rfl, rfl, rfl, rfl, fun x hx hx' => List.mem_cons_of_mem _ (List.mem_filter.2 ⟨hx, ?_⟩)⟩
      simpa using hx'
  · by_cases hrun : s.pow.dustSheet = false ∧ dieWaits s hubDie = false
    · rw [(ckptStep_of_running hrun.1 hrun.2 hv).2 r hc hr]
      exact restoreStep_mem hv hr hver hsrc
    · rw [ckptStep, if_pos (by simpa [or_iff_not_imp_left] using hrun)]

end Sys2Proof.Machine
end

section
/-! SUPPORT. The life cycle and the debug port (chapter 15). -/

namespace Sys2Proof.Machine
open Sys2Proof

/-! ### O50: the life cycle and the debug port -/

theorem presents_of_tokenOk {s : State} {t : AuthToken} {kind : Nat} (h : tokenOk s t kind = true) : presents s t = true := by
  unfold tokenOk at h
  simp only [Bool.and_eq_true] at h
  exact h.1.1.2

theorem spendNonce_of_presents {s : State} {t : AuthToken} (h : presents s t = true) : spendNonce s t = useNonce s := if_pos h

theorem killed_useNonce (s : State) : killed (useNonce s) = killed s := rfl

/-- A token that passes its checks, of an authorised transition that may be programmed, begins the programming. -/
theorem exec_lcAdvance_of_token {s : State} {sess : Nat} {v : Spdm} {token : AuthToken} (hv : Vendor s sess v) (hok : tokenOk s token 1 = true)
    (htrans : transition (lcState s.sp.lcWord) (le token.bytes 5 1) = true)
    (hcond : lcCondition (useNonce s) (le token.bytes 5 1) token.bytes = true) (hmay : mayProgram s = true) :
    exec (.lcAdvance sess (.token token)) s = .next (advanceTo (useNonce s) (le token.bytes 5 1) token.bytes) := by
  have hword : (useNonce s).sp.lcWord = s.sp.lcWord := rfl
  have hmay : mayProgram (useNonce s) = true := hmay
  change execLcAdvance sess (.token token) s = _
  rw [execLcAdvance, request_of_vendor _ hv rfl]
  dsimp only
  rw [if_pos hok, spendNonce_of_presents (presents_of_tokenOk hok), advance, hword, if_neg (by simp [htrans, hcond]), if_neg (by simp [hmay])]

/-- A token that presents the nonce consumes it, also where another check fails. -/
theorem exec_of_badToken {s : State} {sess : Nat} {v : Spdm} {token : AuthToken} (hv : Vendor s sess v) (hpres : presents s token = true) :
    (tokenOk s token 1 = false → exec (.lcAdvance sess (.token token)) s = .next (answerSp (useNonce s) .policyDenied [] [])) ∧
    (tokenOk s token 2 = false → exec (.debugUnlock sess token) s = .next (answerSp (useNonce s) .policyDenied [] [])) ∧
    (tokenOk s token 3 = false → exec (.debugKill sess (some token)) s = .next (answerSp (useNonce s) .policyDenied [] [])) := by
  refine ⟨fun h => ?_, fun h => ?_, fun h => ?_⟩
  · change execLcAdvance sess (.token token) s = _
    rw [execLcAdvance, request_of_vendor _ hv rfl]
    dsimp only
    rw [if_neg (by simp [h]), spendNonce_of_presents hpres]
  · change execDebugUnlock sess token s = _
    rw [execDebugUnlock, request_of_vendor _ hv rfl]
    dsimp only
    rw [if_pos (by simp [h]), spendNonce_of_presents hpres]
  · change execDebugKill sess (some token) s = _
    rw [execDebugKill, request_of_vendor _ hv rfl]
    dsimp only
    rw [if_neg (by simp [h]), spendNonce_of_presents hpres]

/-- The next bit to program reads 0, and every lower bit of the code reads 1 already. -/
theorem nextBit_spec {s : State} {target i : Nat} (h : nextBit s target = some i) : bit s.sp.lcWord.toNat i = false ∧
    ∀ j < i, bit (lcCode target).toNat j = true → bit s.sp.lcWord.toNat j = true := by
  unfold nextBit at h
  obtain ⟨hi, -, hlow⟩ := List.find?_range_eq_some.1 h
  refine ⟨by simpa using (Bool.and_eq_true_iff.1 hi).2, fun j hj hcode => ?_⟩
  simpa [hcode] using hlow j hj

/-! #### The port -/

theorem exec_debugUnlock_of_token {s : State} {sess : Nat} {v : Spdm} {token : AuthToken} (hv : Vendor s sess v) (hok : tokenOk s token 2 = true)
    (hscope : le token.bytes 6 1 = 1 ∨ le token.bytes 6 1 = 2) (hkill : killed s = false)
    (hst : lcState s.sp.lcWord = 2 ∨ (lcState s.sp.lcWord = 3 ∧ s.sp.sessions.all (fun x => x.2.state == .ended) = true)) :
    exec (.debugUnlock sess token) s = .next (answerSp { useNonce s with sp := { (useNonce s).sp with
      debugOpen := some (le token.bytes 6 1, s.ns, le token.bytes 8 4, some sess), debugged := s.sp.debugged || lcState s.sp.lcWord == 3 } } .ok [] []) := by
  have hsess : (useNonce s).sp.sessions = s.sp.sessions := rfl
  change execDebugUnlock sess token s = _
  rw [execDebugUnlock, request_of_vendor _ hv rfl]
  dsimp only
  rw [if_neg (by simpa [hok, or_iff_not_imp_left] using hscope), spendNonce_of_presents (presents_of_tokenOk hok), killed_useNonce, hsess, if_neg (by
    rw [hkill]
    rcases hst with h | ⟨h, hall⟩
    · simp [h]
    · rw [h, hall]
      decide)]
  rfl

theorem debugPortOpen_of_unlocked {s : State} (hkill : killed s = false) (hopen : s.sp.debugOpen.isSome = true)
    (hst : lcState s.sp.lcWord = 2 ∨ lcState s.sp.lcWord = 3) : debugPortOpen s = true := by
  rw [debugPortOpen, hkill]
  rcases hst with h | h <;> rw [h] <;> exact hopen

theorem arrayOpen_of_testModes {s : State} (hopen : debugPortOpen s = true) (hst : lcState s.sp.lcWord = 1 ∨ lcState s.sp.lcWord = 4)
    (hacc : s.sp.testAccess = true) : arrayOpen s = true := by
  rw [arrayOpen, hacc, hopen]
  rcases hst with h | h <;> rw [h] <;> rfl

/-- A direct write leaves the line as it was given, and no byte of memory as such. -/
theorem arrayWrite_spec {s : State} (hopen : arrayOpen s = true) (a tag gen : Nat) (cipher : Bytes) (poison : Bool) :
    lineInfo (arrayWrite s a cipher tag gen poison) (lineBase a) =
      { key := 512, gen := gen % 4, poison := poison, cipher := cipher, tag := tag % 2 ^ 28 } ∧
    (arrayWrite s a cipher tag gen poison).mem.bytes = s.mem.bytes := by
  unfold arrayWrite
  dsimp only
  rw [if_pos hopen]
  refine ⟨?_, rfl⟩
  unfold lineInfo
  dsimp only
  rw [tlook_tins_same]

/-- A closed port, and a state other than TEST and RMA, hold the test modes shut (R391). -/
theorem arrayOpen_of_shut {s : State} (h : debugPortOpen s = false ∨ (lcState s.sp.lcWord ≠ 1 ∧ lcState s.sp.lcWord ≠ 4)) :
    (debugPortOpen s && testModes (lcState s.sp.lcWord)) = false ∧ arrayOpen s = false := by
  have hshut : (debugPortOpen s && testModes (lcState s.sp.lcWord)) = false := by
    rcases h with h | ⟨h1, h4⟩
    · rw [h, Bool.false_and]
    · simp [testModes, h1, h4]
  exact ⟨hshut, by rw [arrayOpen, Bool.and_assoc, hshut, Bool.and_false]⟩

theorem debugReach_of_closed {s : State} (h : debugPortOpen s = false) (t : DebugTarget) : debugReach s t = false := by
  unfold debugReach
  rw [h, Bool.false_and]

theorem debugRead_of_closed {s : State} (h : debugPortOpen s = false) (a size racing : Nat) : debugRead s a size racing = (0, s) := by
  have hopen := (arrayOpen_of_shut (.inl h)).2
  unfold debugRead
  split
  · rw [debugReach_of_closed h, Bool.and_false]
    rfl
  · rw [debugReach_of_closed h, Bool.and_false]
    rfl
  · rw [debugReach_of_closed h]
    rfl
  · rw [arrayRead, hopen]
    rfl
  · dsimp only
    rw [hopen]
    rfl
  · rfl

theorem debugWrite_of_closed {s : State} (h : debugPortOpen s = false) (a size v : Nat) : debugWrite s a size v = s := by
  obtain ⟨hshut, hopen⟩ := arrayOpen_of_shut (.inl h)
  unfold debugWrite
  split
  · rw [testSelectWrite, hshut]
    rfl
  · rw [hubHaltWrite, debugReach_of_closed h]
    rfl
  · rw [debugReach_of_closed h]
    rfl
  · dsimp only
    rw [arrayWrite, hopen]
    rfl
  · rw [arrayWrite, hopen]
    rfl
  · rfl

/-- Settles O50: each request passes its checks and does what its definition says; the closed port by `debugRead_of_closed` and
`debugWrite_of_closed`. -/
theorem lifeCycleAndDebugRequests : Obligations.LifeCycleAndDebugRequests := by
  refine ⟨⟨fun sess v s h => ?_, fun sess v s hv hdrbg => ?_, fun sess target v token s hv hok htarget htrans hcond hmay => ?_,
      fun sess v token s hv hpres => exec_of_badToken hv hpres, fun target at' s hprog => ⟨fun hearly => ?_, fun hdue => ⟨fun hnone => ?_, fun i hi => ?_⟩⟩,
      fun s hn hold => ?_⟩,
    fun sess v token s hv hok hscope hkill hst => ?_, fun sess scope at' dur v s hv hopen => ?_, fun sess v token s hv hok => ?_,
    fun scope at' dur user s hopen hdue => ⟨?_, rfl⟩, fun on poison a tag gen cipher s => ⟨fun hshut => ?_, fun hopen hst => ⟨?_, fun hacc => ⟨?_, ?_, ?_⟩⟩⟩,
    fun a size v racing s => ⟨?_, ?_, fun hclosed => ⟨debugWrite_of_closed hclosed .., debugRead_of_closed hclosed ..⟩⟩⟩
  · change execLcGet sess s = _
    rcases h with hv | ⟨hruns, hhalt, hprog⟩
    · have ⟨⟨_, hhalt, hprog⟩, _⟩ := hv
      have hsettled : settleProgramming s = s := by rw [settleProgramming, hprog]
      rw [execLcGet, hsettled, hhalt, if_neg (by simp), request_of_vendor _ hv rfl]
      rfl
    · have hsettled : settleProgramming s = s := by rw [settleProgramming, hprog]
      rw [execLcGet, hsettled, hhalt, hruns]
      rfl
  · have hnonce : exec (.lcNonce sess) s = .next (freshNonce s false) := request_of_vendor _ hv rfl
    have hdebug : exec (.debugChallenge sess) s = .next (freshNonce s true) := request_of_vendor _ hv rfl
    have hfresh : ∀ d, freshNonce s d = answerSp { (draw s).2 with sp := { (draw s).2.sp with
        nonce := some ((draw s).1.truncate 256), nonceAt := s.ns, nonceDebug := d } } .ok [] (keyBytes ((draw s).1.truncate 256)) := fun d => by
      rw [freshNonce, if_neg (by simp [hdrbg])]
      rfl
    exact ⟨_, _, _, hnonce.trans (congrArg _ (hfresh false)), hdebug.trans (congrArg _ (hfresh true)), rfl, rfl, rfl, rfl, rfl, rfl, rfl, rfl, rfl⟩
  · subst htarget
    exact ⟨_, exec_lcAdvance_of_token hv hok htrans hcond hmay, rfl, rfl, rfl, rfl⟩
  · rw [programTick, hprog]
    exact if_pos hearly
  · rw [programTick, hprog]
    dsimp only
    rw [if_neg (Nat.not_lt.2 hdue), hnone]
  · obtain ⟨hbit, hlow⟩ := nextBit_spec hi
    refine ⟨hbit, hlow, ?_⟩
    rw [programTick, hprog]
    dsimp only
    rw [if_neg (Nat.not_lt.2 hdue), hi]
  · change execNonceLapse s = _
    simp [execNonceLapse, hn, hold]
  · refine ⟨_, exec_debugUnlock_of_token hv hok hscope hkill hst, answered_answerSp .., debugPortOpen_of_unlocked hkill rfl
      (hst.imp id fun h => h.1), rfl, rfl, rfl, rfl⟩
  · change execDebugLock sess s = _
    rw [execDebugLock, request_of_vendor _ hv rfl]
    simp [hopen]
  · have hexec : exec (.debugKill sess (some token)) s = execDebugKill sess (some token) s := rfl
    rw [execDebugKill, request_of_vendor _ hv rfl] at hexec
    dsimp only at hexec
    rw [if_pos hok, spendNonce_of_presents (presents_of_tokenOk hok)] at hexec
    refine ⟨_, hexec, answered_answerSp .., rfl, rfl, rfl, rfl, rfl⟩
  · change execDebugDurationExpiry s = _
    simp [execDebugDurationExpiry, hopen, hdue]
  · obtain ⟨hsel, harr⟩ := arrayOpen_of_shut hshut
    simp [testSelectWrite, arrayRead, arrayWrite, hsel, harr]
  · have htest : testModes (lcState s.sp.lcWord) = true := by rcases hst with h | h <;> rw [h] <;> rfl
    rw [testSelectWrite, hopen, htest]
    rfl
  · rw [arrayRead, if_pos (arrayOpen_of_testModes hopen hst hacc)]
  · rw [(arrayWrite_spec (arrayOpen_of_testModes hopen hst hacc) ..).1]
    exact ⟨rfl, rfl, rfl, rfl⟩
  · exact (arrayWrite_spec (arrayOpen_of_testModes hopen hst hacc) ..).2
  · change execRegisterWrite (debugBase + a) size v s = _
    rw [execRegisterWrite, if_pos (Nat.le_add_right ..), Nat.add_sub_cancel_left]
  · change execRcFieldRead (debugBase + a) size racing s = _
    rw [execRcFieldRead, if_pos (Nat.le_add_right ..), Nat.add_sub_cancel_left]

end Sys2Proof.Machine
end

section
/-! SUPPORT. SPDM (chapter 14). -/

namespace Sys2Proof.Machine
open Sys2Proof

/-! ### O52: SPDM -/

/-- A serving processor without a waiting activation does what an SPDM message asks for. -/
theorem spdm_of_serves {s : State} (hs : SpServes s) (hw : s.sp.fwWait = false) (f : State → State) : spdm s f = .next (f s) := by
  obtain ⟨hruns, hhalt, hprog⟩ := hs
  have hsettled : settleProgramming s = s := by rw [settleProgramming, hprog]
  simp [spdm, hruns, hsettled, hhalt, hw]

/-- While an activation waits, it is BUSY (R350). -/
theorem spdm_of_waiting {s : State} (hs : SpServes s) (hw : s.sp.fwWait = true) (f : State → State) : spdm s f = .next (answerSp s .busy [] []) := by
  obtain ⟨hruns, hhalt, hprog⟩ := hs
  have hsettled : settleProgramming s = s := by rw [settleProgramming, hprog]
  simp [spdm, hruns, hsettled, hhalt, hw]

theorem withIdentity_of_root {s : State} (h : (rootBank s).isSome = true) (f : State → State) : withIdentity s f = f s := by
  rw [withIdentity, if_neg (by simpa using Option.isSome_iff_ne_none.1 h)]

theorem reservedCode_iff (code : Nat) : reservedCode code = true ↔ 0x27 ≤ code ∧ code ≤ 0x2F := by simp [reservedCode]

/-- A key exchange that names a live offer of its own opens a session in its requester's class. -/
theorem exec_spdmKeyExchange {sess requester handle : Nat} {identity offer : Digest} {k : Bytes} {c : ReqClass} {s : State} (hs : SpServes s)
    (hw : s.sp.fwWait = false) (hdrbg : drbgOk s = true) (hroom : s.sp.spdm.length < 64)
    (hoffer : s.sp.offers.find? (fun o => o.1 == handle && o.2.1 == sess && o.2.2.1 == offer) = some (handle, sess, offer, k))
    (hnew : tlook s.sp.spdm sess = none) (hcls : classOf s requester identity = some c) :
    exec (.spdmKeyExchange sess requester identity handle offer) s = .next (answerSp { (draw s).2 with
      fresh := s.fresh + 1, sp := { (draw s).2.sp with
        spdm := tins s.sp.spdm sess { cls := c, secret := leBytes 48 (Config.ecdhSecret (draw s).1 s.fresh).toNat ++ k },
        offers := s.sp.offers.filter (· != (handle, sess, offer, k)) } } .ok [] (digestBytes (ownIdentity s))) := by
  change execSpdmKeyExchange sess requester identity handle offer s = _
  rw [execSpdmKeyExchange, spdm_of_serves hs hw]
  dsimp only
  rw [if_neg (Nat.not_le.2 hroom), hoffer]
  dsimp only
  rw [if_neg (by simp [hnew]), hcls]
  dsimp only
  rw [if_neg (by simp [hdrbg])]
  rfl

/-- Settles O52: each message reaches its definition through `spdm_of_serves`, each request of the session through `request_of_vendor`. -/
theorem spdmAnswersAndSecuredSessions : Obligations.SpdmAnswersAndSecuredSessions := by
  refine ⟨fun sess s hs hw => ⟨?_, ?_, fun asym hash dhe aead h0 h1 h2 h3 h4 => ?_, fun asym hash dhe aead h => ?_,
      fun code hcode => ?_, fun code v hlo hhi hv => ?_, fun hroot => ⟨?_, ?_, ?_, fun i b hi => ?_, fun i h0 hFF hno => ?_⟩⟩,
    fun sess ek s hs hw hdrbg => ?_, fun sess requester handle identity offer k c s hs hw hdrbg hroom hoffer hnew hcls => ?_,
    fun sess v s hs hw hv hfin => ⟨?_, ?_⟩, fun sess requester handle identity offer ek s hs hw =>
      ⟨?_, ?_, ?_⟩,
    fun sess v s hs hw hv hfin => ⟨?_, ?_, ?_, ?_, ?_, tlook_tdel_same ..⟩, fun sess v m s hv hroot hm => ?_⟩
  · change execSpdmGetVersion sess s = _
    rw [execSpdmGetVersion, spdm_of_serves hs hw]
  · change execSpdmGetCapabilities sess s = _
    rw [execSpdmGetCapabilities, spdm_of_serves hs hw]
  · change execSpdmNegotiateAlgorithms sess asym hash dhe aead s = _
    rw [execSpdmNegotiateAlgorithms, spdm_of_serves hs hw]
    dsimp only
    rw [if_pos (by simp [h0, h1, h2, h3, h4])]
    cases bit aead.meas 0 <;> cases bit asym.req 7 <;> rfl
  · change execSpdmNegotiateAlgorithms sess asym hash dhe aead s = _
    rw [execSpdmNegotiateAlgorithms, spdm_of_serves hs hw]
    dsimp only
    rw [if_neg (by rcases h with h | h | h | h | h <;> simp [h])]
  · change execSpdmUnsupportedRequest sess code s = _
    rw [execSpdmUnsupportedRequest, if_neg (by rw [reservedCode_iff]; omega), spdm_of_serves hs hw]
  · change execSpdmUnsupportedRequest sess code s = _
    rw [execSpdmUnsupportedRequest, if_pos ((reservedCode_iff _).2 ⟨hlo, hhi⟩), request_of_vendor _ hv rfl]
  · change execSpdmGetDigests sess s = _
    rw [execSpdmGetDigests, spdm_of_serves hs hw, withIdentity_of_root hroot]
  · change execSpdmGetCertificate sess s = _
    rw [execSpdmGetCertificate, spdm_of_serves hs hw, withIdentity_of_root hroot]
  · change execSpdmChallenge sess s = _
    rw [execSpdmChallenge, spdm_of_serves hs hw, withIdentity_of_root hroot]
  · change execSpdmGetMeasurements sess i s = _
    rw [execSpdmGetMeasurements, spdm_of_serves hs hw, withIdentity_of_root hroot]
    dsimp only
    rcases hi with ⟨h0, hFF, hb⟩ | ⟨rfl, rfl⟩
    · rw [if_neg h0, if_neg hFF, hb]
    · rw [if_neg (by decide), if_pos rfl]
  · change execSpdmGetMeasurements sess i s = _
    rw [execSpdmGetMeasurements, spdm_of_serves hs hw, withIdentity_of_root hroot]
    dsimp only
    rw [if_neg h0, if_neg hFF, hno]
  · have hexec : exec (.pqOffer sess ek) s = execPqOffer sess ek s := rfl
    rw [execPqOffer, spdm_of_serves hs hw] at hexec
    dsimp only at hexec
    rw [if_neg (by simp [hdrbg])] at hexec
    exact ⟨_, _, _, hexec, rfl, ⟨_, rfl⟩, rfl, rfl⟩
  · refine ⟨_, _, exec_spdmKeyExchange hs hw hdrbg hroom hoffer hnew hcls, answered_answerSp .., tlook_tins_same .., fun hin => ?_,
      fun i hi => tlook_tins_ne _ _ _ _ hi⟩
    simpa using (List.mem_filter.1 hin).2
  · have hexec : exec (.spdmFinish sess true) s = execSpdmFinish sess true s := rfl
    rw [execSpdmFinish, spdm_of_serves hs hw, hv] at hexec
    dsimp only at hexec
    rw [if_neg (by simp [hfin]), if_neg (by simp)] at hexec
    exact ⟨_, _, hexec, tlook_tins_same .., rfl, rfl, fun i hi => tlook_tins_ne _ _ _ _ hi⟩
  · change execSpdmFinish sess false s = _
    rw [execSpdmFinish, spdm_of_serves hs hw, hv]
    dsimp only
    rw [if_neg (by simp [hfin]), if_pos (by simp)]
  · change execPqOffer sess ek s = _
    rw [execPqOffer, spdm_of_waiting hs hw]
  · change execSpdmKeyExchange sess requester identity handle offer s = _
    rw [execSpdmKeyExchange, spdm_of_waiting hs hw]
  · change execSpdmChallenge sess s = _
    rw [execSpdmChallenge, spdm_of_waiting hs hw]
  · change execPqSign sess true s = _
    rw [execPqSign, spdm_of_serves hs hw, hv]
    simp [hfin]
  · change execPqSign sess false s = _
    rw [execPqSign, spdm_of_serves hs hw, hv]
    simp
  · change execSpdmHeartbeat sess s = _
    rw [execSpdmHeartbeat, spdm_of_serves hs hw, hv]
    simp [hfin]
  · change execSpdmKeyUpdate sess s = _
    rw [execSpdmKeyUpdate, spdm_of_serves hs hw, hv]
    simp [hfin]
  · change execSpdmEndSession sess s = _
    rw [execSpdmEndSession, spdm_of_serves hs hw, hv]
    rfl
  · change execPqCountersign sess s = _
    rw [execPqCountersign, request_of_vendor _ hv rfl, withIdentity_of_root hroot, tget, hm]
    rfl

end Sys2Proof.Machine
end

section
/-! SUPPORT. Clocks, power domains and the safety loops (chapter 17); the platform's buses (chapter 20); the CLKGATE page in LOCAL mode (chapter 19). -/

namespace Sys2Proof.Machine
open Sys2Proof

/-! ## A domain in its low state -/

theorem movePort_keeps {β : Type} (π : State → β) (hfab : ∀ s f, π { s with fab := f } = π s) (hexc : ∀ s, π (countLinkExc s) = π s)
    (hpulse : ∀ s pg b i, π (pulseEvent s pg b i) = π s) (hlevel : ∀ s pg b h i, π (levelEvent s pg b h i) = π s) (s : State) (p : Nat)
    (st : PState) : π (movePort s p st) = π s := by
  unfold movePort
  dsimp only
  split
  · rfl
  · rw [hlevel, hpulse, modPort, setPort, hfab]
    split
    · exact hexc s
    · rfl

/-- The switch of a domain touches no domain's record but its own. -/
theorem downPort_domains (s : State) (p : Nat) : (downPort s p).pow.domains = s.pow.domains :=
  movePort_keeps (fun s => s.pow.domains) (fun _ _ => rfl) (fun _ => rfl)
    (fun s pg b i => congrArg Power.domains (pulseEvent_pow s pg b i)) (fun s pg b h i => congrArg Power.domains (levelEvent_pow s pg b h i)) s p .down

theorem darkCluster_domains (s : State) (n : Nat) : (darkCluster s n).pow.domains = s.pow.domains := by
  unfold darkCluster
  dsimp only
  rw [setCluster_pow]
  rw [foldl_keeps (fun s : State => s.pow.domains) (f := fun s i => setPage s (pgCluster n + i) {}) (fun s i => by rw [setPage_pow]),
    foldl_keeps (fun s : State => s.pow.domains) (f := fun s l => setCore s (16 * n + l) {}) (fun s l => by rw [setCore_pow])]

theorem primeWhere_pow (s : State) (p : Nat → Bool) : (primeWhere s p).pow = s.pow := rfl

theorem switchOff_domains (s : State) (d : Nat) (target : DState) :
    (switchOff s d target).pow.domains = (setDom s d { state := target, target := target, since := s.ns }).pow.domains := by
  unfold switchOff
  dsimp only
  split
  · exact darkCluster_domains _ d
  · split
    · split
      · rw [modCtl, setCtl_pow]
      · rw [setCtl_pow, setPage_pow]
        split
        · rw [primeWhere_pow]
        · rfl
    · split
      · refine foldl_keeps (fun s : State => s.pow.domains) (fun u i => ?_) _ _
        rw [setPort_pow, setPage_pow, downPort_domains]
      · split <;> rfl

theorem domOf_switchOff (s : State) (d : Nat) (target : DState) :
    domOf (switchOff s d target) d = { state := target, target := target, since := s.ns } := by
  unfold domOf
  rw [switchOff_domains]
  exact domOf_setDom s d _

/-! ## The gates of the hub's blocks -/

/-- A hub whose three blocks are all enabled. -/
theorem cgHub_of_gateBits {s : State} (h0 : gateBit s 120 = true) (h1 : gateBit s 121 = true) (h2 : gateBit s 122 = true) : s.pow.cgHub = 7#3 := by
  change bit s.pow.cgHub.toNat 0 = true at h0
  change bit s.pow.cgHub.toNat 1 = true at h1
  change bit s.pow.cgHub.toNat 2 = true at h2
  generalize s.pow.cgHub = v at h0 h1 h2
  revert v
  decide

/-- A bit that a block already has is not written. -/
theorem writeGate_same {s : State} {b : Nat} {on : Bool} (h : gateBit s b = on) : writeGate s b on = s := by
  rw [writeGate, if_pos (by simp [h])]

/-- Grout loses its bit at once, and waits for its gate to take effect. -/
theorem writeGate_grout {s : State} (h : gateBit s 120 = true) :
    writeGate s 120 false = { setGate s 120 false with pow := { (setGate s 120 false).pow with cgPend := s.pow.cgPend ++ [120] } } := by
  rw [writeGate, if_neg (by simp [gateIgnored, h]), if_neg (by simp)]
  rfl

theorem setGate_mem (s : State) (b : Nat) (on : Bool) : (setGate s b on).mem = s.mem := rfl
theorem setGate_cores (s : State) (b : Nat) (on : Bool) : (setGate s b on).cores = s.cores := rfl

theorem cgHub_writeGate_grout {s : State} (h0 : gateBit s 120 = true) (h1 : gateBit s 121 = true) (h2 : gateBit s 122 = true) :
    (writeGate s 120 false).pow.cgHub = 6#3 := by
  rw [writeGate_grout h0]
  change BitVec.ofNat 3 (withBit s.pow.cgHub.toNat 0 false) = 6#3
  rw [cgHub_of_gateBits h0 h1 h2]
  decide

theorem bits_of_six {n : Nat} (h : n % 8 = 6) : bit n 0 = false ∧ bit n 1 = true ∧ bit n 2 = true := by
  unfold bit
  refine ⟨?_, ?_, ?_⟩ <;> simp <;> omega

/-- A write of the hub's gates walks its three blocks. -/
theorem clkgateWrite_hub {s : State} (hauth : s.sp.authority ≠ 0) (v : Nat) :
    clkgateWrite s 0x050 v = writeGate (writeGate (writeGate s 120 (bit v 0)) 121 (bit v 1)) 122 (bit v 2) := by
  have hbits : (List.range (gateBlocks 0x050).length).zip (gateBlocks 0x050) = [(0, 120), (1, 121), (2, 122)] := rfl
  rw [clkgateWrite, if_neg hauth]
  dsimp only
  rw [hbits]
  simp only [List.foldl_cons, List.foldl_nil]

/-- A hub with all gates open, of which a write clears Grout's alone. -/
theorem exec_clkgateWrite_hub {s : State} {v : Word} (hserved : hostServed s = true) (hauth : s.sp.authority ≠ 0) (h0 : gateBit s 120 = true)
    (h1 : gateBit s 121 = true) (h2 : gateBit s 122 = true) (hv : v.toNat % 8 = 6) :
    exec (.clkgateWrite 0x050 v) s = .next (writeGate s 120 false) := by
  obtain ⟨hb0, hb1, hb2⟩ := bits_of_six hv
  have hhub := cgHub_writeGate_grout h0 h1 h2
  have hkeep1 : writeGate (writeGate s 120 false) 121 true = writeGate s 120 false :=
    writeGate_same (by change bit (writeGate s 120 false).pow.cgHub.toNat 1 = true; rw [hhub]; decide)
  have hkeep2 : writeGate (writeGate s 120 false) 122 true = writeGate s 120 false :=
    writeGate_same (by change bit (writeGate s 120 false).pow.cgHub.toNat 2 = true; rw [hhub]; decide)
  change execClkgateWrite 0x050 v s = _
  rw [execClkgateWrite, if_pos hserved, clkgateWrite_hub hauth, hb0, hb1, hb2, hkeep1, hkeep2]

/-- Settles O53: each command by its own test; a gate write walks its blocks; the switch of a domain keeps all other records. -/
theorem blocksGateAndDomainsSwitch : Obligations.BlocksGateAndDomainsSwitch := by
  unfold Obligations.BlocksGateAndDomainsSwitch
  refine ⟨fun offset v s hserved hauth => ?_, fun v s hserved hauth h0 h1 h2 hv => ?_, fun s hpend => ?_, fun d s hst hdust hbusy => ⟨?_, ?_⟩,
    fun d s hst htgt hd hdust => ?_, fun k t0 s hidleAt hclk hidle hdue hdt => ?_, fun k p t0 s hpart hstop hclk hidle hoff hdue hdom hdt => ?_⟩
  · change execClkgateWrite offset v s = _
    rw [execClkgateWrite, if_pos hserved, clkgateWrite, if_pos hauth]
  · rw [exec_clkgateWrite_hub hserved (by simp [hauth]) h0 h1 h2 hv]
    refine ⟨_, rfl, ?_, ?_, ?_, ?_⟩
    · change bit (writeGate s 120 false).pow.cgHub.toNat 0 = false
      rw [cgHub_writeGate_grout h0 h1 h2]
      decide
    all_goals rw [writeGate_grout h0]
    exacts [setGate_mem s 120 false, setGate_cores s 120 false]
  · refine ⟨_, ?_, rfl⟩
    change execClkgateTakeEffect 120 s = _
    rw [execClkgateTakeEffect, if_neg (by simpa using hpend)]
    rfl
  · change execDomainDrainEnd d s = _
    unfold execDomainDrainEnd
    dsimp only
    rw [if_neg (by simp [hst, hdust]), if_neg (by simp [hbusy])]
    simp only [hbusy, Bool.false_eq_true, if_false]
  · intro u target
    rw [domOf_switchOff]
  · have hexec : exec (.domainWakeComplete d) s =
        .next (powerProgress (progress (pumpEverything (setDom s d { domOf s d with state := .on, target := .on, since := s.ns })))) := by
      change execDomainWakeComplete d s = _
      unfold execDomainWakeComplete
      dsimp only
      rw [if_neg (by simp [hst, hdust]), if_neg (by simp [htgt]), if_neg (by omega), if_neg (by omega), if_neg (by omega)]
    refine ⟨_, hexec, ?_, rfl, rfl, fun e he => domOf_setDom_ne _ _ _ _ he⟩
    rw [domOf_setDom]
  · change execClusterClockStop k s = _
    unfold execClusterClockStop
    dsimp only
    rw [hidleAt]
    dsimp only
    rw [if_pos]
    rcases hdt with hdt | hdt <;> simp [hclk, hidle, hdue, hdt]
  · change execClusterOffDelay k s = _
    unfold execClusterOffDelay
    dsimp only
    rw [hstop, hpart]
    dsimp only
    rw [if_pos (by simp [hclk, hidle, hoff, hdue, hdom, hdt])]
    rfl

/-! ## The dust-sheet state is entered once and for all -/

section
variable {β : Type} (π : State → β) (hcluster : ∀ s n v, π (setCluster s n v) = π s) (hclock : ∀ s n v, π (setClock s n v) = π s)
include hclock

theorem failOverDie_keeps (s : State) (die : Nat) : π (failOverDie s die) = π s := by
  unfold failOverDie
  dsimp only
  split
  · rfl
  · exact hclock ..

include hcluster

theorem failOver_keeps (s : State) (n : Nat) : π (failOver s n) = π s := by
  unfold failOver
  dsimp only
  split
  · rfl
  · split <;> rw [hcluster, hclock]

end

theorem updateThrottle_dust (s : State) : (updateThrottle s).pow.dustSheet = s.pow.dustSheet := by
  unfold updateThrottle
  dsimp only
  split
  · rfl
  · split <;> rfl

theorem movePort_dust (s : State) (p : Nat) (st : PState) : (movePort s p st).pow.dustSheet = s.pow.dustSheet :=
  movePort_keeps (fun s => s.pow.dustSheet) (fun _ _ => rfl) (fun _ => rfl)
    (fun s pg b i => congrArg Power.dustSheet (pulseEvent_pow s pg b i)) (fun s pg b h i => congrArg Power.dustSheet (levelEvent_pow s pg b h i)) s p st

theorem forAll_keeps {β : Type} (π : State → β) {f : Nat → State → State} (h : ∀ s i, π (f i s) = π s) (l : List Nat) (s : State) :
    π (forAll l s f) = π s := foldl_keeps π h l s

theorem enterDust_dust (s : State) (src : Nat) : (enterDust s src).pow.dustSheet = true := by
  unfold enterDust
  dsimp only
  rw [postClockLost, postEvent_pow, levelEvent_pow,
    forAll_keeps (fun s : State => s.pow.dustSheet) (f := fun c s => modCtl s c (fun v => { v with selfRefresh := true }))
      (fun s c => by rw [modCtl, setCtl_pow]),
    forAll_keeps (fun s : State => s.pow.dustSheet) (f := fun p s => if (portOf s p).state = .up then movePort s p .training else s)
      (fun s p => by split; exacts [movePort_dust s p _, rfl]),
    updateThrottle_dust,
    forAll_keeps (fun s : State => s.pow.dustSheet) (f := fun d s => failOverDie s d)
      (fun s d => failOverDie_keeps (fun s : State => s.pow.dustSheet) (fun _ _ _ => rfl) s d),
    forAll_keeps (fun s : State => s.pow.dustSheet) (f := fun n s => failOver s n)
      (fun s n => failOver_keeps (fun s : State => s.pow.dustSheet) (fun _ _ _ => rfl) (fun _ _ _ => rfl) s n)]

theorem not_off_of_sheetable {s : State} (h : sheetable s = true) : (s.pow.state == .off) = false := by
  simp only [sheetable, Bool.and_eq_true, Bool.or_eq_true, beq_iff_eq] at h
  obtain ⟨⟨hst | hst, -⟩, -⟩ := h <;> simp [hst]

/-! ## A new target frequency -/

/-- A clock on its own source takes a new target: a running cluster moves there, a stopped one stands there. -/
theorem retarget_spec {s : State} {k : Nat} (hwant : (clockOf s k).want = (clockOf s k).backup) (hlad : (clockOf s k).ladder = false) (n : Nat) :
    (clockOf (retarget s k n) k).target = n ∧
      ((clusterOf s k).clock = true → (clockOf (retarget s k n) k).moving = ((clusterOf s k).n != n) ∧ clusterOf (retarget s k n) k = clusterOf s k) ∧
      ((clusterOf s k).clock = false → (clusterOf (retarget s k n) k).n = n) ∧ (∀ j, j ≠ k → clockOf (retarget s k n) j = clockOf s j) ∧
      (retarget s k n).mem = s.mem := by
  cases hclk : (clusterOf s k).clock
  case true =>
    have he : retarget s k n = setClock s k { clockOf s k with target := n, moving := (clusterOf s k).n != n } := by
      unfold retarget
      dsimp only
      rw [if_neg (by simp [hwant, hlad]), if_pos hclk]
    rw [he, clockOf_setClock]
    exact ⟨rfl, fun _ => ⟨rfl, rfl⟩, (by simp), fun j hj => clockOf_setClock_ne _ _ _ _ hj, rfl⟩
  case false =>
    have he : retarget s k n = setCluster (setClock s k { clockOf s k with target := n, moving := false }) k { clusterOf s k with n := n } := by
      unfold retarget
      dsimp only
      rw [if_neg (by simp [hwant, hlad]), if_neg (by simp [hclk])]
    rw [he, clusterOf_setCluster]
    refine ⟨?_, (by simp), fun _ => rfl, fun j hj => ?_, rfl⟩
    · change (clockOf (setClock s k _) k).target = n
      rw [clockOf_setClock]
    · exact clockOf_setClock_ne s j k _ hj

/-- Settles O54: each command by its own test; the dust sheet stays through everything that its entry does. -/
theorem clocksStepFailOverAndRecover : Obligations.ClocksStepFailOverAndRecover := by
  unfold Obligations.ClocksStepFailOverAndRecover
  refine ⟨fun c s hdust hmov hc hclk hheld => ?_, fun c s hdust hmov hc hclk hheld => ?_, fun c s hdust hmov hc hheld => ?_,
    fun k n s hen hdust hdom hwant hlad => ?_, fun s hsheet => ⟨?_, enterDust_dust _ _⟩, fun d s hsheet hd => ?_, fun d s hoff hd => ?_,
    fun s hdust hdue => ?_, fun s hdust hlost => ?_, fun s => ⟨_, rfl, ?_, ?_, ?_, ?_⟩⟩
  · intro m
    change execClockLadderStep c s = _
    unfold execClockLadderStep
    dsimp only
    rw [if_neg (by simp [hdust, hmov]), if_neg (by omega), if_neg (by simp [hclk]), if_neg (by omega)]
  · change execClockLadderStep c s = _
    unfold execClockLadderStep
    dsimp only
    rw [if_neg (by simp [hdust, hmov]), if_neg (by omega), if_neg (by simp [hclk]), if_pos hheld]
  · intro m
    change execClockLadderStep c s = _
    unfold execClockLadderStep
    dsimp only
    rw [if_neg (by simp [hdust, hmov]), if_pos hc, if_neg (by omega)]
  · have hexec : exec (.dvfsDecision k n) s = .next (retarget s k (boundedN s k n)) := by
      change execDvfsDecision k n s = _
      rw [execDvfsDecision, if_pos (by simp [hen, hdust, hdom])]
    exact ⟨_, hexec, retarget_spec hwant hlad _⟩
  · change execClockLoss .refclk s = _
    unfold execClockLoss
    rw [if_neg (by simp [not_off_of_sheetable hsheet])]
    dsimp only
    rw [if_pos (by exact hsheet)]
  · change execClockLoss (.mainPll d) s = _
    unfold execClockLoss
    rw [if_neg (by simp [not_off_of_sheetable hsheet])]
    dsimp only
    rw [if_neg (by omega), if_pos (by exact hsheet)]
  · change execClockLoss (.backupPll d) s = _
    unfold execClockLoss
    rw [if_neg (by simp [hoff])]
    dsimp only
    rw [if_pos hd]
  · change execClockRecovery s = _
    rw [execClockRecovery, if_pos hdust, if_pos hdue]
  · change execClockRecovery s = _
    rw [execClockRecovery, if_neg (by simp [hdust]), if_pos (by rcases hlost with h | h <;> simp [h])]
  all_goals simp

/-! ## Overrides begin and end -/

theorem beginOverride_spec (s : State) (loop : Nat) :
    (beginOverride s loop).pow.overrides.contains loop = true ∧ (beginOverride s loop).mem = s.mem ∧ (beginOverride s loop).cores = s.cores := by
  cases h : s.pow.overrides.contains loop
  case true => rw [beginOverride, if_pos h]; exact ⟨h, rfl, rfl⟩
  case false =>
    rw [beginOverride, if_neg (by simp only [h]; decide)]
    dsimp only
    split <;> simp

theorem endOverride_contains (s : State) (loop : Nat) : (endOverride s loop).pow.overrides.contains loop = false := by
  simp [endOverride]

/-- Skipping cycles follows the loops alone, which setting it leaves. -/
theorem skipNow_congr {s t : State} (h : t.pow = s.pow) (n : Nat) : skipNow t n = skipNow s n := by rw [skipNow, skipNow, h]

/-- One cluster's turn in `setSkip`. -/
def skipCluster (c : Nat) (s : State) : State :=
  if (clusterOf s c).clock then modCluster s c (fun k => { k with skip := skipNow s c }) else s

theorem setSkip_eq (s : State) : setSkip s = forAll allClusters s skipCluster := rfl

theorem skipCluster_pow (c : Nat) (s : State) : (skipCluster c s).pow = s.pow := by
  unfold skipCluster
  split <;> rfl

theorem clusterOf_skipCluster_ne {k c : Nat} (h : k ≠ c) (s : State) : clusterOf (skipCluster c s) k = clusterOf s k := by
  unfold skipCluster
  split
  · exact clusterOf_setCluster_ne _ _ _ _ h
  · rfl

theorem clusterOf_skipCluster {c : Nat} {s : State} (h : (clusterOf s c).clock = true) :
    clusterOf (skipCluster c s) c = { clusterOf s c with skip := skipNow s c } := by
  rw [skipCluster, if_pos h, modCluster, clusterOf_setCluster]

/-- A running cluster whose turn comes skips cycles where the loops say so; the turns of the others leave it. -/
theorem skip_of_mem {k : Nat} : ∀ (l : List Nat) (s : State), (clusterOf s k).clock = true → (k ∈ l ∨ (clusterOf s k).skip = skipNow s k) →
    (clusterOf (forAll l s skipCluster) k).skip = skipNow s k
  | [], s, _, h => h.resolve_left (List.not_mem_nil)
  | c :: l, s, hclk, h => by
    change (clusterOf (forAll l (skipCluster c s) skipCluster) k).skip = _
    rw [← skipNow_congr (skipCluster_pow c s) k]
    by_cases hc : k = c
    · subst hc
      refine skip_of_mem l _ ?_ (.inr ?_) <;> rw [clusterOf_skipCluster hclk]
      · exact hclk
      · exact (skipNow_congr (skipCluster_pow k s) k).symm
    · refine skip_of_mem l _ ?_ ?_ <;> rw [clusterOf_skipCluster_ne hc]
      · exact hclk
      · rw [skipNow_congr (skipCluster_pow c s) k]
        exact h.imp_left (fun hm => (List.mem_cons.1 hm).resolve_left hc)

theorem setSkip_skip {k : Nat} {s : State} (hk : k < 64) (h : (clusterOf s k).clock = true) : (clusterOf (setSkip s) k).skip = skipNow s k := by
  rw [setSkip_eq]
  exact skip_of_mem _ s h (.inl (List.mem_range.2 hk))

/-- The end of an override that no trip, brake or 1 ms bound holds. -/
theorem execSafetyOverrideEnd_of_due {loop : Nat} {s : State} (h : s.pow.overrides.contains loop = true) (h5 : loop ≠ 5) (h6 : loop ≠ 6)
    (hdue : (loop = 1 ∨ loop = 3) → tget 0 s.pow.lowAt loop + 1000000 ≤ s.ns) :
    exec (.safetyOverrideEnd loop) s =
      (let u := endOverride s loop
       let u := if loop = 2 then { u with pow := { u.pow with droops := [] } } else u
       .next (updateThrottle (updateFloor (if loop = 0 ∨ loop = 2 then setSkip u else u)))) := by
  change execSafetyOverrideEnd loop s = _
  rw [execSafetyOverrideEnd, if_neg (by simp only [h, Bool.not_true, Bool.false_or, Bool.or_eq_true, beq_iff_eq]; omega), if_neg]
  simp only [Bool.and_eq_true, Bool.or_eq_true, beq_iff_eq, decide_eq_true_eq, not_and, Nat.not_lt]
  exact hdue

/-- Settles O55: each loop by its own test; beginning, ending and cycle skipping by their rules above. -/
theorem safetyLoopsOverrideAndRelease : Obligations.SafetyLoopsOverrideAndRelease := by
  unfold Obligations.SafetyLoopsOverrideAndRelease
  refine ⟨fun s hp => ⟨?_, fun die hdie => ?_, ?_, ?_, ?_, beginOverride_spec s⟩, fun loop s hover hloop hdue => ⟨?_, endOverride_contains s loop⟩,
    fun s => ⟨fun hover => ?_, fun hover => ?_, fun hover => ?_, fun k hk hclk => setSkip_skip hk hclk⟩,
    fun s hoff hbrake => ?_, fun s hbrake hdue => ?_, fun s hbrake hdue => ?_, fun c s hth hnow hclear hdue hmin => ?_⟩
  · change execFastCurrentOverride s = _
    rw [execFastCurrentOverride, if_pos hp]
  · change execVoltageDroop die s = _
    rw [execVoltageDroop, if_pos (by simp [hp, hdie])]
  · change execSustainedCurrentStep s = _
    rw [execSustainedCurrentStep, if_pos hp]
  · change execTemperatureThrottleStep s = _
    rw [execTemperatureThrottleStep, if_pos hp]
  · change execTemperatureFloor s = _
    rw [execTemperatureFloor, if_pos hp]
  · rw [execSafetyOverrideEnd_of_due hover (by omega) (by omega) (fun _ => hdue)]
    dsimp only
    rw [if_neg (by omega), if_neg (by omega)]
  · rw [execSafetyOverrideEnd_of_due hover (by omega) (by omega) (by omega)]
    rfl
  · rw [execSafetyOverrideEnd_of_due hover (by omega) (by omega) (by omega)]
    rfl
  · rw [execSafetyOverrideEnd_of_due hover (by omega) (by omega) (by omega)]
    rfl
  · have hexec : exec .brakeInTrigger s = .next (updateThrottle (updateFloor (beginOverride (postEvent
        { s with pow := { s.pow with brake := true, brakeTrig := s.ns, brakeAt := s.ns, brakePosts := 1 } } [moduleRing] 0x0007 false 0 0 0) 6))) := by
      change execBrakeInTrigger s = _
      rw [execBrakeInTrigger, if_neg (by simp [hoff]), if_neg (by simp [hbrake])]
    refine ⟨_, hexec, ?_, ?_, ?_, ?_, ?_⟩ <;> simp
  · have hexec : exec .brakeAssertedRepeat s =
        .next (postEvent { s with pow := { s.pow with brakePosts := s.pow.brakePosts + 1 } } [moduleRing] 0x0007 false 0 s.pow.brakePosts 0) := by
      change execBrakeAssertedRepeat s = _
      rw [execBrakeAssertedRepeat, if_pos (by simp [hbrake, hdue])]
    refine ⟨_, hexec, ?_, ?_, ?_⟩ <;> simp
  · change execBrakeRelease s = _
    rw [execBrakeRelease, if_pos (by simp [hbrake, hdue])]
  · change execThrottleOutRelease s = _
    unfold execThrottleOutRelease
    rw [hclear]
    dsimp only
    rw [if_pos (by simp [hth, hnow, hdue, hmin])]

/-! ## The platform's buses -/

theorem mctpServed_of_serves {s : State} (h : SpServes s) : mctpServed s = true := by
  obtain ⟨hruns, hhalt, -⟩ := h
  simp only [lcHalted, Bool.or_eq_false_iff, beq_eq_false_iff_ne] at hhalt
  rw [spRuns] at hruns
  simp [mctpServed, hruns, hhalt.1]

/-- A serving processor does what a PLDM firmware command asks for. -/
theorem pldm_of_serves {s : State} (h : SpServes s) (f : State → State) : pldm s f = .next (f s) := by
  have hserved := mctpServed_of_serves h
  obtain ⟨-, hhalt, hprog⟩ := h
  have hsettled : settleProgramming s = s := by rw [settleProgramming, hprog]
  simp [pldm, hsettled, hserved, hhalt]

/-- The readings of a refresh, die by die. -/
theorem tget_readings (temps : List Nat) (d : Nat) (l : List Nat) (t : Tab Nat) :
    tget 0 (l.foldl (fun (t : Tab Nat) i => tput 0 t i (nth temps i)) t) d = if d ∈ l then nth temps d else tget 0 t d := by
  induction l generalizing t with
  | nil => simp
  | cons i l ih =>
    rw [List.foldl_cons, ih]
    by_cases hi : d = i
    · subst hi; simp
    · simp [hi, tget_tput_ne _ _ _ _ _ hi]

theorem updateThrottle_readings (s : State) :
    (updateThrottle s).pow.mv = s.pow.mv ∧ (updateThrottle s).pow.mvRead = s.pow.mvRead ∧ (updateThrottle s).pow.watts = s.pow.watts ∧
      (updateThrottle s).pow.inlet = s.pow.inlet ∧ (updateThrottle s).pow.outlet = s.pow.outlet ∧ (updateThrottle s).pow.temps = s.pow.temps ∧
      (updateThrottle s).mem = s.mem ∧ (updateThrottle s).cores = s.cores ∧ (updateThrottle s).regs = s.regs := by
  unfold updateThrottle
  dsimp only
  split
  · exact ⟨rfl, rfl, rfl, rfl, rfl, rfl, rfl, rfl, rfl⟩
  · split <;> exact ⟨rfl, rfl, rfl, rfl, rfl, rfl, rfl, rfl, rfl⟩

/-- A sensor of Table 20.7 is read. -/
theorem exec_pldmSensorRead {s : State} (h : mctpServed s = true) {sensor : Nat} (h0 : sensor ≠ 0) (h13 : sensor ≤ 13) :
    exec (.pldmSensorRead sensor) s = .next (answerSp s .ok [if sensor = 1 then s.pow.mvRead
      else if sensor = 2 then s.pow.watts
      else if sensor = 3 then hottest s
      else if sensor ≤ 8 then tget 0 s.pow.temps (sensor - 4)
      else if sensor = 9 then s.pow.inlet
      else if sensor = 10 then s.pow.outlet
      else if sensor = 11 then s.fab.plumb.ppsDrop
      else if sensor = 12 then s.pow.stuckCount
      else b2n s.pow.brake + 2 * b2n s.pow.throttle + 4 * b2n s.pow.dustSheet] []) := by
  change execPldmSensorRead sensor s = _
  unfold execPldmSensorRead
  dsimp only
  rw [if_neg (by simp [h]), if_neg (by simp [h0, h13])]

/-- The state with the readings of a refresh. -/
def refreshed (s : State) (mv watts : Nat) (temps : List Nat) (inlet outlet : Nat) : State :=
  { s with pow := { s.pow with
    mv := mv
    mvRead := mv
    watts := watts
    temps := (List.range 5).foldl (fun (t : Tab Nat) i => tput 0 t i (nth temps i)) []
    inlet := inlet
    outlet := outlet } }

/-- Settles O57: each bus's command by its own test. -/
theorem platformBusesAnswer : Obligations.PlatformBusesAnswer := by
  unfold Obligations.PlatformBusesAnswer
  refine ⟨fun scl sda s hoff hlow hup => ?_, fun s => ⟨rfl, fun hup => ?_⟩, fun binding eid s hserved hreach h8 h254 => ?_,
    fun comp target version image s hs hcomp => ⟨?_, ?_, fun htr => ?_⟩, fun sess s hs hplat hstaged hwait hidle hkey => ?_,
    fun s hserved => ⟨?_, ?_, ?_, ?_, fun d hd => ?_, ?_⟩, fun mv watts inlet outlet temps s hoff => ?_,
    fun sess entry s hs hplat hlocal hwait hidle hhost => ?_⟩
  · have hexec : exec (.smbusStuck scl sda) s = .next (postEvent
        { s with pow := { s.pow with smbusUp := false, stuckCount := satAdd 32 s.pow.stuckCount 1, mctpMsg := false } }
        (if s.pow.perst then [] else [moduleRing]) 0x0008 true 0 (if scl then 0 else 1) 0) := by
      change execSmbusStuck scl sda s = _
      rw [execSmbusStuck, if_neg (by rcases hlow with h | h <;> simp [hoff, hup, h])]
    refine ⟨_, hexec, ?_, ?_, ?_, ?_, ?_⟩ <;> simp
  · change execSmbusAlertResponse s = _
    rw [execSmbusAlertResponse, if_pos hup]
  · have hexec : exec (.mctpControlMessage binding eid) s = .next (answerSp { s with pow := { s.pow with
        eids := tput 0 s.pow.eids binding eid, mctpMsg := s.pow.mctpMsg || binding == 0 } } .ok [eid] []) := by
      change execMctpControlMessage binding eid s = _
      unfold execMctpControlMessage
      dsimp only
      rw [if_neg]
      obtain ⟨rfl, h⟩ | ⟨rfl, h⟩ := hreach <;> simp [hserved, h] <;> omega
    exact ⟨_, hexec, rfl, tget_tput_same _ _ _ _, fun b hb => tget_tput_ne _ _ _ _ _ hb, rfl⟩
  · change execPldmFwTransfer comp image version true s = _
    rw [execPldmFwTransfer, pldm_of_serves hs, hcomp]
    rfl
  · change execPldmFwTransfer comp image version false s = _
    rw [execPldmFwTransfer, pldm_of_serves hs, hcomp]
    rfl
  · have hexec : exec (.pldmApply comp) s = .next (answerSp { s with sp := { s.sp with transfer := none, staged := tins s.sp.staged target (image, version) } } .ok [] []) := by
      change execPldmApply comp s = _
      rw [execPldmApply, pldm_of_serves hs, htr, hcomp]
      dsimp only
      rw [if_pos rfl]
    exact ⟨_, hexec, rfl, tlook_tins_same _ _ _, rfl, rfl⟩
  · change execPldmActivateFirmware sess s = _
    rw [execPldmActivateFirmware, pldm_of_serves hs, if_neg (by simp [hplat, hstaged]), if_neg (by simp [hwait, hidle]), if_neg (by simp [hkey])]
  · rw [exec_pldmSensorRead hserved (by omega) (by omega), if_pos rfl]
  · rw [exec_pldmSensorRead hserved (by omega) (by omega), if_neg (by omega), if_pos rfl]
  · rw [exec_pldmSensorRead hserved (by omega) (by omega), if_neg (by omega), if_neg (by omega), if_pos rfl]
  · rw [exec_pldmSensorRead hserved (by omega) (by omega), if_neg (by omega), if_neg (by omega), if_neg (by omega), if_neg (by omega), if_pos rfl]
  · rw [exec_pldmSensorRead hserved (by omega) (by omega), if_neg (by omega), if_neg (by omega), if_neg (by omega), if_pos (by omega), Nat.add_sub_cancel_left]
  · change execPldmFruRead s = _
    rw [execPldmFruRead, if_neg (by simp [hserved])]
  · have hexec : exec (.sensorRefresh mv watts temps inlet outlet) s = .next (updateThrottle (refreshed s mv watts temps inlet outlet)) := by
      change execSensorRefresh mv watts temps inlet outlet s = _
      rw [execSensorRefresh, if_neg (by simp [hoff])]
      rfl
    obtain ⟨hmv, hread, hwatts, hinlet, houtlet, htemps, hmem, hcores, hregs⟩ := updateThrottle_readings (refreshed s mv watts temps inlet outlet)
    refine ⟨_, hexec, hmv, hread, hwatts, hinlet, houtlet, fun d hd => ?_, hmem, hcores, hregs⟩
    rw [htemps, refreshed, tget_readings, if_pos (List.mem_range.2 hd)]
  · have hsettled : settleProgramming s = s := by rw [settleProgramming, hs.2.2]
    obtain ⟨hruns, hhalt, -⟩ := hs
    change execPlatformManagementRequest sess entry s = _
    unfold execPlatformManagementRequest
    dsimp only
    rw [hsettled, if_neg (by simp [hruns]), if_neg (by simp [hhalt]), if_neg (by simp [hplat, hlocal]), if_neg (by simp [hwait, hidle]), if_neg (by simp [hhost])]

/-! ## The CLKGATE page in LOCAL mode (R456) -/

/-- In LOCAL mode a write of EVT_STICKY of the CLKGATE page is dropped, its header being part of the page. -/
theorem exec_evtStickyWrite_clkgate_local {s : State} (h : s.sp.authority = 0) (hread : readable s .clkgate = true) (v : Word) :
    exec (.evtStickyWrite 1 v) s = .next s := by
  have hwrite : regWrite s .clkgate 1 0x14 (v.toNat % 2 ^ 32) = s := by rw [regWrite, if_pos ⟨h, rfl⟩]
  have haddr : (4096 * 1 + 0x14) / 4096 = 1 ∧ (4096 * 1 + 0x14) % 4096 = 0x14 ∧ msixAt (4096 * 1 + 0x14) = none := by decide
  obtain ⟨hpage, hoff, hmsix⟩ := haddr
  change execEvtStickyWrite 1 v s = _
  rw [execEvtStickyWrite, writeBar, if_neg (by decide), hmsix]
  dsimp only
  rw [if_neg (by decide), hpage, hoff]
  change Host.Outcome.next (if readable s .clkgate = true then regWrite s .clkgate 1 0x14 (v.toNat % 2 ^ 32) else s) = _
  rw [if_pos hread, hwrite]

/-- A working module in LOCAL mode whose CLKGATE page holds a sticky event bit. -/
def stickyClkgate : State :=
  { pow := { state := .active, resetDone := true, perst := false }
    sp := { authority := 0 }
    regs := { pages := [(1, { sticky := 1#32 })] } }

/-- Refutes O59: the sticky bits of every readable page are said to clear where 1 is written, but in LOCAL mode the host writes
nothing of the CLKGATE page, its header included (R456): its sticky bit stays. -/
theorem not_registersReadClearAndSet : ¬ Obligations.RegistersReadClearAndSet := by
  unfold Obligations.RegistersReadClearAndSet
  rintro ⟨-, -, hclear, -⟩
  have hread : readable stickyClkgate .clkgate = true := by decide
  obtain ⟨t, hexec, hsticky, -⟩ := hclear 1 1#32 .clkgate stickyClkgate rfl hread
  have hstays : (pageOf stickyClkgate 1).sticky = 1#32 := by decide
  rw [exec_evtStickyWrite_clkgate_local rfl hread] at hexec
  cases hexec
  rw [hstays] at hsticky
  exact absurd hsticky (by decide)

end Sys2Proof.Machine
end

section
/-! SUPPORT. What the model says of entropy, the DRBG and the root secret (chapter 14), and what it leaves to an opaque draw. -/

namespace Sys2Proof.Machine
open Sys2Proof

/-! ## Entropy and the root secret (R351 to R354): all that the text fixes of them

`Config.random` is an `opaque` constant: nothing of the model says which bits the DRBG draws. `entropySeeds_iff` proves that O51 holds
exactly where no draw has 256 ones as its low bits, so neither O51 nor its negation follows from the model. -/

/-- A run of one value long enough to reach the cutoff fails the repetition count test, whatever stood before it. -/
theorem repeats_run (x : Nat) (post : List Nat) : ∀ m run : Nat, 81 ≤ run + m → 0 < m → repeats x run (List.replicate m x ++ post) = true
  | m + 1, run, h, _ => by
    rw [List.replicate_succ, List.cons_append, repeats, if_pos rfl]
    by_cases hrun : 81 ≤ run + 1
    · simp [hrun]
    · rw [repeats_run x post m (run + 1) (by omega) (by omega), Bool.or_true]

theorem repeats_append (x : Nat) (post : List Nat) (pre : List Nat) (last run : Nat) :
    repeats last run (pre ++ List.replicate 81 x ++ post) = true := by
  induction pre generalizing last run with
  | nil =>
    rw [List.nil_append, List.replicate_succ, List.cons_append, repeats, repeats_run x post 80 _ (by split <;> omega) (by omega), Bool.or_true]
  | cons y pre ih =>
    rw [List.cons_append, List.cons_append, repeats, ih, Bool.or_true]

theorem samplesOk_of_repetition (pre post : List Nat) (x : Nat) : samplesOk (pre ++ List.replicate 81 x ++ post) = false := by
  have hfail : repetitionOk (pre ++ List.replicate 81 x ++ post) = false := by
    cases pre with
    | nil =>
      rw [List.nil_append, List.replicate_succ, List.cons_append, repetitionOk, repeats_run x post 80 1 (by omega) (by omega), Bool.not_true]
    | cons y pre => rw [List.cons_append, List.cons_append, repetitionOk, repeats_append, Bool.not_true]
  rw [samplesOk, hfail, Bool.false_and]

theorem samplesOk_of_proportion {pre w post : List Nat} (hpre : pre.length % 512 = 0) (hw : w.length = 512) (hmany : 434 ≤ w.count (w.headD 0)) :
    samplesOk (pre ++ w ++ post) = false := by
  have hat : 512 * (pre.length / 512) = pre.length := by omega
  have hwindow : ((pre ++ w ++ post).drop (512 * (pre.length / 512))).take 512 = w := by
    rw [hat, List.append_assoc, List.drop_left, ← hw, List.take_left]
  have hfail : proportionOk (pre ++ w ++ post) = false := by
    rw [proportionOk, List.all_eq_false]
    refine ⟨pre.length / 512, List.mem_range.2 ?_, ?_⟩
    · simp only [List.length_append]
      omega
    · dsimp only
      rw [hwindow]
      simpa using hmany
  rw [samplesOk, hfail, Bool.and_false]

/-- One failure of start-up more, of which the third in a row stops the service. -/
def failCounted (s : State) : State :=
  { s with sp := { s.sp with startFails := s.sp.startFails + 1, stopped := decide (3 ≤ s.sp.startFails + 1) } }
/-- The state after a start-up that fails; a stop is logged. -/
def startupFailed (s : State) : State :=
  if 3 ≤ s.sp.startFails + 1 then logIt (failCounted s) 2 (statusCode .entropyNotReady) 0 0 0 (s.sp.startFails + 1) else failCounted s

/-- Start-up fails on 1,024 samples that do not pass, or on another number of them. -/
theorem exec_entropyStartup_of_bad {s : State} (hoff : s.pow.state ≠ .off) (hstop : s.sp.stopped = false) (hent : s.sp.entropyOk = false)
    {l : List Nat} (h : l.length ≠ 1024 ∨ samplesOk l = false) :
    ∃ t, exec (.entropyStartup l) s = .next t ∧ t.sp.startFails = s.sp.startFails + 1 ∧ t.sp.stopped = decide (2 ≤ s.sp.startFails) ∧
      t.sp.entropyOk = false ∧ t.mem = s.mem := by
  have hexec : exec (.entropyStartup l) s = .next (startupFailed s) := by
    change execEntropyStartup l s = _
    rw [execEntropyStartup, if_neg (by simp [hoff, hstop, hent]), if_neg (by rcases h with h | h <;> simp [h])]
    rfl
  refine ⟨_, hexec, ?_⟩
  have hcount : decide (3 ≤ s.sp.startFails + 1) = decide (2 ≤ s.sp.startFails) := by simp
  unfold startupFailed
  split
  · have hquiet := quiet_logIt (failCounted s) 2 (statusCode .entropyNotReady) 0 0 0 (s.sp.startFails + 1)
    exact ⟨congrArg (·.sp.startFails) hquiet, (congrArg (·.sp.stopped) hquiet).trans hcount, (congrArg (·.sp.entropyOk) hquiet).trans hent,
      (congrArg State.mem hquiet :)⟩
  · exact ⟨rfl, hcount, hent, rfl⟩

/-- The bank that a draw of the DRBG would be committed to (R354). -/
def drawnBank (n : Nat) : BitVec 264 := BitVec.ofNat 264 ((Config.random n).toNat % 2 ^ 256 + 255 * 2 ^ 256)

/-- It stands as a secret unless its 256 bits are all ones, which with the commit word is a destroyed bank. -/
theorem bankHolds_drawnBank (n : Nat) : bankHolds (drawnBank n) = true ↔ (Config.random n).toNat % 2 ^ 256 ≠ 2 ^ 256 - 1 := by
  have hlt : (Config.random n).toNat % 2 ^ 256 < 2 ^ 256 := Nat.mod_lt _ (by decide)
  have hnat : (drawnBank n).toNat = (Config.random n).toNat % 2 ^ 256 + 255 * 2 ^ 256 := by
    rw [drawnBank, BitVec.toNat_ofNat]
    exact Nat.mod_eq_of_lt (by omega)
  have hones : (BitVec.allOnes 264).toNat = 2 ^ 264 - 1 := BitVec.toNat_allOnes
  rw [bankHolds, Bool.and_eq_true, beq_iff_eq, bne_iff_ne, ne_eq, ← BitVec.toNat_inj, hnat, hones]
  omega

/-- ROOT_SECRET_GENERATE into a blank bank A of a module without a secret. -/
theorem exec_rootSecretGenerate {s : State} (hlc : lcState s.sp.lcWord = 2) (hroot : rootBank s = none) (hruns : spRuns s = true)
    (hdrbg : drbgOk s = true) (hblank : s.sp.bankA = 0) :
    exec .rootSecretGenerate s = .next { (draw s).2 with sp := { (draw s).2.sp with bankA := drawnBank s.sp.draws } } := by
  change execRootSecretGenerate s = _
  unfold execRootSecretGenerate
  rw [if_neg (by simp [hlc, hroot, hruns]), if_neg (by simp [hdrbg])]
  exact if_pos hblank

/-- A module in PROVISIONED, without a root secret and with a ready DRBG, whose next draw is the n-th. -/
def blankModule (n : Nat) : State :=
  { pow := { state := .active }
    sp := { lcWord := 0xFFFFFF#64, drbgReady := true, entropyOk := true, stopped := false, bankA := 0, bankB := 0, draws := n } }

theorem blankModule_ready (n : Nat) : lcState (blankModule n).sp.lcWord = 2 ∧ rootBank (blankModule n) = none ∧ spRuns (blankModule n) = true ∧
    drbgOk (blankModule n) = true ∧ (blankModule n).sp.bankA = 0 := by
  have hempty : ¬ bankHolds 0 = true := by decide
  have hstate : lcState 0xFFFFFF#64 = 2 := by decide
  exact ⟨hstate, (if_neg hempty).trans (if_neg hempty), rfl, rfl, rfl⟩

/-- What stands between the model and O51: that no draw has 256 ones as its low bits. -/
theorem entropySeeds_iff : Obligations.EntropySeedsTheRootSecret ↔ ∀ n, (Config.random n).toNat % 2 ^ 256 ≠ 2 ^ 256 - 1 := by
  unfold Obligations.EntropySeedsTheRootSecret
  constructor
  · rintro ⟨-, -, -, -, -, hgen⟩ n
    obtain ⟨hlc, hroot, hruns, hdrbg, hblank⟩ := blankModule_ready n
    obtain ⟨t, b, hexec, hbank, hheld, -⟩ := hgen (blankModule n) hlc hroot hruns hdrbg hblank
    rw [exec_rootSecretGenerate hlc hroot hruns hdrbg hblank] at hexec
    cases hexec
    rw [← bankHolds_drawnBank]
    by_contra hnot
    have hnone : rootBank { (draw (blankModule n)).2 with sp := { (draw (blankModule n)).2.sp with bankA := drawnBank (blankModule n).sp.draws } } = none := by
      rw [rootBank, if_neg (by exact hnot), if_neg (by change ¬ bankHolds 0 = true; decide)]
    rw [hnone] at hheld
    cases hheld
  · intro hdraw
    refine ⟨fun s hoff hstop hent => ⟨fun l hlen hok => ?_, fun l hbad => exec_entropyStartup_of_bad hoff hstop hent hbad⟩, fun s hent => ?_,
      fun pre post x => samplesOk_of_repetition pre post x, fun pre w post hpre hw hmany => samplesOk_of_proportion hpre hw hmany,
      fun s hent hstop hdue => ⟨?_, ?_⟩, fun s hlc hroot hruns hdrbg hblank => ?_⟩
    · refine ⟨{ s with sp := { s.sp with entropyOk := true, drbgReady := true, startFails := 0, generates := 0, seededAt := s.ns } }, ?_, ?_, rfl, rfl, rfl⟩
      · change execEntropyStartup l s = _
        rw [execEntropyStartup, if_neg (by simp [hoff, hstop, hent]), if_pos ⟨hlen, hok⟩]
      · simp [drbgOk, hstop]
    · refine ⟨{ s with sp := { s.sp with entropyOk := false, drbgReady := false } }, ?_, rfl, rfl⟩
      change execEntropyTestFailure s = _
      rw [execEntropyTestFailure, if_pos hent]
    · change execDrbgReseed true s = _
      rw [execDrbgReseed, if_neg (by simp [hent, hstop]), if_neg (by rcases hdue with h | h | h <;> simp [h]), if_pos rfl]
    · change execDrbgReseed false s = _
      rw [execDrbgReseed, if_neg (by simp [hent, hstop]), if_neg (by rcases hdue with h | h | h <;> simp [h]), if_neg (by decide)]
    · refine ⟨_, _, exec_rootSecretGenerate hlc hroot hruns hdrbg hblank, rfl, ?_, rfl, rfl⟩
      rw [rootBank, if_pos (by exact (bankHolds_drawnBank _).2 (hdraw _))]

end Sys2Proof.Machine
end
